-- ==== Sys2Proof/Word.lean ====
section
/-!
DEFINITION. The word types of the block and sparse maps.

R7, R8: bit 0 is the least significant bit; multi-byte values are little-endian.
-/

namespace Sys2Proof

/-- A byte (R8). -/
abbrev Byte := BitVec 8
/-- A register word (R335). -/
abbrev Word := BitVec 32
/-- A queue word's payload, or the data of a 64-bit access. -/
abbrev Dword := BitVec 64
/-- The 64 bytes of a granule (R68); bit `8 * i` is the low bit of byte `i` (R8). -/
abbrev Gran := BitVec 512
/-- One bit for each byte of a granule. -/
abbrev ByteEn := BitVec 64
/-- One bit for each of the sixteen agents. -/
abbrev AgentSet := BitVec 16

/-- A sparse map from a natural number to `β`, in one canonical form: keys strictly rising, no entry
equal to what an unlisted key reads as. -/
abbrev SMap (β : Type) := List (Nat × β)

end Sys2Proof
end

