-- ==== Sys2Proof/Syntax.lean ====
section
/-!
DEFINITION. The commands the block takes from outside, as syntax: one constructor of `Instr` for each row of the
opcode table. An operand holds what the outside world supplies (assumption 6): an address, a value, a raw flit,
a raw datagram, or what an expander or a start-up step reports.
-/

namespace Sys2Proof

/-- A link with the flit layers of The Sirdoa Link: 0 to 15 an agent port's, 16 the shroud link (R379). -/
abbrev LinkId := Fin 17
/-- A requester of register accesses (R345): 0 to 15 an agent, 16 the management cluster. -/
abbrev Requester := Fin 17

/-- The message classes that wait for credit toward an agent (R200). -/
inductive MsgClass where
  | req | snp | rsp | dat | mgq
deriving DecidableEq, Repr

/-- Access widths of the management cluster (R335). -/
inductive AccWidth where
  | w8 | w16 | w32 | w64
deriving DecidableEq, Repr

/-- A far access that its target does not answer (R343): a read, or a write in a compact rig, with the tag of its MGQ slot where it
has one. -/
structure FarAcc where
  a : Word
  width : AccWidth
  write : Bool
  tag : Option Byte
deriving DecidableEq, Repr

/-- The access that FAR_ACCESS_TIMEOUT abandons: the requester's oldest posted write, or one that stalls it. -/
structure FarLoss where
  who : Requester
  lost : Option FarAcc := none
deriving DecidableEq, Repr

/-- Bits that a push brings, with the upset that strikes the word of 67 bits in the pool (R291, R292). -/
structure PoolWord (w : Nat) where
  bits : BitVec w
  upset : BitVec 67 := 0
deriving DecidableEq, Repr

/-- A bit upset that the lookup of a pass meets (R73, R134): nothing, a correctable or an uncorrectable error of
tag way `w`, of the set word, or of on-die directory way `w`. The upset comes from outside the device. -/
inductive Upset where
  | none
  | tag (w : Fin 16) (fatal : Bool)
  | word (fatal : Bool)
  | dir (w : Fin 16) (fatal : Bool)
deriving DecidableEq, Repr

/-- What the expander behind a backing port reports during the link step (R227) and its journal area (R239, R242). -/
structure PortEnv where
  /-- The link trains and the device is enumerated. -/
  trained : Bool
  /-- Trained rate, in the MAXSPD encoding (R42). -/
  rate : BitVec 2
  /-- GPF Phase 2 duration in µs. -/
  p2dur : BitVec 16
  /-- Persistent capacity in MiB. -/
  capMib : Nat
  /-- It presents as a multi-headed single-logical device. -/
  mhd : Bool
  /-- The 16 KiB slots of its journal area that are not blank, as raw bytes. -/
  journal : List (List Byte)
deriving DecidableEq, Repr

/-- What a start finds outside the controller die (R417, R419). -/
structure StartEnv where
  /-- The crystal runs within 2 ms. -/
  crystal : Bool
  /-- HBM3E training succeeds on all 32 pseudo-channels. -/
  hbm : Bool
  /-- The four backing ports. -/
  ports : Vector PortEnv 4
deriving DecidableEq, Repr

/-- Where a TMP datagram came from (R357): an IP address and a port, or a halyard chain neighbour. -/
inductive TmpSrc where
  | host (ip : BitVec 128) (port : BitVec 16)
  | chainUp (src : Byte)
  | chainDown (src : Byte)
deriving DecidableEq, Repr

/-- The commands, events and operations of the block: one constructor for each row of the opcode table, in the
table's order. Each docstring is the row's own summary. -/
inductive Instr where
  /-- RD_SH (R26). An agent's read-for-shared request is taken whole at its agent port, checked, and passed to its home slice or held. -/
  | rdSh (p : Fin 16) (g : BitVec 40)
  /-- RD_OWN (R26). An agent's read-for-exclusive request is taken whole at its agent port, checked, and passed to its home slice or held. -/
  | rdOwn (p : Fin 16) (g : BitVec 40)
  /-- UPGRADE (R26). An agent's request for exclusive right to a held S or O copy is taken whole at its agent port and forwarded. -/
  | upgrade (p : Fin 16) (g : BitVec 40)
  /-- WR (R26). An agent's write of 1 to 64 bytes, with its DAT_WR data, is taken whole at the port and forwarded to the home slice. -/
  | wr (p : Fin 16) (g : BitVec 40) (wt bef : Bool) (be : ByteEn) (d : Gran)
  /-- EVICT (R26). An agent's drop of a clean copy is taken whole at the port and forwarded to the home slice. -/
  | evict (p : Fin 16) (g : BitVec 40)
  /-- WB (R26). An agent's write-back of a dirty granule, with its DAT_WB data, is taken on its WB channel and forwarded to the home slice. -/
  | wb (p : Fin 16) (g : BitVec 40) (ch : Fin 8) (d : Gran)
  /-- PASS_ADMISSION (R92). A slice admits the waiting pass of highest priority and runs it through stages S1 to S16. -/
  | passAdmission (s : Fin 8) (u : Upset)
  /-- WAIT_LIST_READMISSION (R95). A pass waiting for a miss-tracker entry, write-buffer space, ledger room or credit is readmitted at priority 3 when the resource frees. -/
  | waitListReadmission (s : Fin 8)
  /-- RETRY_REENTRY (R153). The oldest REQ of a directory set's retry queue whose blocking condition has cleared re-enters at priority 3. -/
  | retryReentry (s : Fin 8) (dset : BitVec 14)
  /-- RSP_I (R151). An agent's answer that it is now invalid and sent no data is accepted for an open HTE or absorbed by an owed marker. -/
  | rspI (p : Fin 16) (g : BitVec 40)
  /-- RSP_I_FWD (R151). An owner's answer that it is invalid and has sent its data to the requester is applied to the HTE. -/
  | rspIFwd (p : Fin 16) (g : BitVec 40)
  /-- RSP_S_FWD (R151). An owner's answer that it kept S and sent clean data to the requester is applied to the HTE. -/
  | rspSFwd (p : Fin 16) (g : BitVec 40)
  /-- RSP_O_FWD (R151). An owner's answer that it kept O and sent data to the requester is applied to the HTE. -/
  | rspOFwd (p : Fin 16) (g : BitVec 40)
  /-- RSP_I_WB (R160). An owner in WB_A answers a snoop and the home records it as WBSRC and readmits its waiting WB. -/
  | rspIWb (p : Fin 16) (g : BitVec 40)
  /-- RSP_RECALL (R234). An agent's end of its answer to RECALL or to a census is taken by the port and reported. -/
  | rspRecall (p : Fin 16) (g : BitVec 40)
  /-- RSP_CN_S (R396). A census report that the agent holds a granule in S or S_WT is installed in the directory. -/
  | rspCnS (p : Fin 16) (g : BitVec 40)
  /-- RSP_CN_X (R396). A census report that the agent holds a granule in E or M is installed and charged. -/
  | rspCnX (p : Fin 16) (g : BitVec 40)
  /-- RSP_CN_O (R396). A census report that the agent holds a granule in O is installed and charged. -/
  | rspCnO (p : Fin 16) (g : BitVec 40)
  /-- DAT_S (R190). Shared data sent by an owner is steered by the agent crossbar to the requester's port. -/
  | datS (p : Fin 16) (g : BitVec 40) (peer : Fin 16) (poison : Bool) (d : Gran)
  /-- DAT_E (R190). Exclusive clean data sent by an owner is steered to the requester's port. -/
  | datE (p : Fin 16) (g : BitVec 40) (peer : Fin 16) (poison : Bool) (d : Gran)
  /-- DAT_M (R190). Exclusive dirty data sent by an owner is steered to the requester's port. -/
  | datM (p : Fin 16) (g : BitVec 40) (peer : Fin 16) (poison : Bool) (d : Gran)
  /-- DAT_SNP_C (R151). Clean snoop data from an agent to the home is placed in the HTE's buffer and applied. -/
  | datSnpC (p : Fin 16) (g : BitVec 40) (poison : Bool) (d : Gran)
  /-- DAT_SNP_D (R151). Dirty snoop data from an agent to the home is placed in the HTE's buffer and applied. -/
  | datSnpD (p : Fin 16) (g : BitVec 40) (poison : Bool) (d : Gran)
  /-- FILL (R100). Backing data for a miss-tracker entry arrives, is merged, written to store or side buffer, and the waiters are readmitted. -/
  | fill (s : Fin 8) (mt : BitVec 6) (d0 d1 : Gran) (p0 p1 : Bool)
  /-- STORE_READ_RETURN (R263). The store controller returns a codeword read, decoded, corrected or recovered, to its slice. -/
  | storeReadReturn (s : Fin 8)
  /-- BINV (R138). A back-invalidation pass applies BINV through the protocol table to a pinned spill-buffer entry. -/
  | binv (s : Fin 8)
  /-- DIRECTORY_FETCH_RETURN (R136). A backstop set read returns and a matching entry moves to the pinned on-die way. -/
  | directoryFetchReturn (s : Fin 8)
  /-- SPILL_BACKSTOP_WRITE (R137). The spill buffer writes an entry into its backstop set by read-modify-write and sets BOCC. -/
  | spillBackstopWrite (s : Fin 8)
  /-- HOLD_EXPIRY (R154). A hold record expires and REQs blocked by it re-enter in the next cycle. -/
  | holdExpiry (s : Fin 8)
  /-- SNOOP_ANSWER_TIMEOUT (R172). The snoop-answer timer of an HTE expires and every agent still in PENDING, and WBSRC, is isolated. -/
  | snoopAnswerTimeout (s : Fin 8) (ga : BitVec 36)
  /-- OWED_ANSWER_TIMEOUT (R172). An owed marker is not absorbed in time, its agent is isolated and the marker freed. -/
  | owedAnswerTimeout (s : Fin 8) (ga : BitVec 36) (p : Fin 16)
  /-- BACKING_READ_TIMEOUT (R172). A backing read expires and is treated as failed. -/
  | backingReadTimeout (s : Fin 8) (side : Bool) (i : BitVec 6)
  /-- BACKING_WRITE_TIMEOUT (R172). An unacknowledged backing write is reissued at first expiry and fails its port at the second. -/
  | backingWriteTimeout (s : Fin 8) (i : BitVec 6)
  /-- STORE_DIRECTORY_TIMEOUT (R172). A backstop read or write not completed in 20 µs is a slice fault. -/
  | storeDirectoryTimeout (s : Fin 8)
  /-- RETRY_WAIT_TIMEOUT (R172). A REQ that has waited RTRY in a retry queue is captured and reported. -/
  | retryWaitTimeout (s : Fin 8)
  /-- BUDGET_WAIT_TIMEOUT (R224). A request stalled under the budget wait is released after 20 µs and counted. -/
  | budgetWaitTimeout (s : Fin 8)
  /-- BACKING_WRITE_ACK (R217). A backing port acknowledges a write-buffer entry, which frees it and credits the ledger. -/
  | backingWriteAck (s : Fin 8) (i : BitVec 6)
  /-- WB_ENTRY_SEND (R107). A backing port takes the oldest ISSUED write-buffer entry bound for it and sends it as MemWr or MemWrPtl. -/
  | wbEntrySend (b : Fin 4)
  /-- COMBINE_EXPIRY (R107). An OPEN WT or NA entry's combining time passes and the entry becomes ISSUED. -/
  | combineExpiry (s : Fin 8) (i : BitVec 6)
  /-- PREFETCH (R116). A priority-6 prefetch pass takes a side-buffer entry in PEND and reads a sector from backing. -/
  | prefetch (s : Fin 8)
  /-- PREFETCH_DATA (R118). Prefetch data arrives at a PEND side-buffer entry, which becomes READY or, if cancelled, FREE. -/
  | prefetchData (s : Fin 8) (i : BitVec 5) (d0 d1 : Gran) (p0 p1 : Bool)
  /-- SIDE_BUFFER_AGE_OUT (R118). A READY or USED side-buffer entry unused for AGE × 1,024 cycles becomes FREE. -/
  | sideBufferAgeOut (s : Fin 8) (i : BitVec 5)
  /-- VIRAL_INDICATION (R231). A viral indication from the expander fails the backing port. -/
  | viralIndication (b : Fin 4)
  /-- BACKING_LINK_LOST (R231). The CXL link of a backing port is lost and the port fails. -/
  | backingLinkLost (b : Fin 4)
  /-- DIRTY_MAP_EPOCH (R222). The dirty-map epoch expires, the oldest map merges into the next and becomes current. -/
  | dirtyMapEpoch
  /-- EARLY_CLEANING_STEP (R223). A priority-5 cleaning step creates CLN entries for the durable dirty sectors of the oldest dirty set. -/
  | earlyCleaningStep (s : Fin 8)
  /-- DUR_BUDGET (R221). A write of the dirty budget takes effect in the next cycle and may set OVER. -/
  | durBudget (v : Word)
  /-- POWER_FAIL_WARNING (R232). PFW_N is recognised low, BUD is set, the hallmark engine stops and the Recall phase starts. -/
  | powerFailWarning
  /-- RECALL_DEADLINE (R233). The Recall deadline passes and the Drain phase begins. -/
  | recallDeadline
  /-- DRAIN_STEP (R235). A slice walks its dirty maps during Drain creating CLN entries. -/
  | drainStep (s : Fin 8)
  /-- DRAIN_DEADLINE (R233). The Drain deadline passes, unacknowledged granules count as DRAIN losses and Persist begins. -/
  | drainDeadline
  /-- GPF_PHASE1_RESPONSE (R236). A backing port's GPF Phase 1 response arrives. -/
  | gpfPhase1Response (b : Fin 4) (err : Bool)
  /-- GPF_PHASE2_RESPONSE (R236). A backing port's GPF Phase 2 response arrives. -/
  | gpfPhase2Response (b : Fin 4) (err : Bool)
  /-- PERSIST_DEADLINE (R233). The Persist deadline passes, unanswered ports are marked and Journal begins. -/
  | persistDeadline
  /-- SET_SHUTDOWN_STATE_COMPLETE (R237). A Set Shutdown State clean command to an expander completes. -/
  | setShutdownStateComplete (b : Fin 4)
  /-- JOURNAL_DEADLINE (R237). The Journal deadline passes and PFD is asserted. -/
  | journalDeadline
  /-- DONE_RESTART (R238). After Done, PFW_N high for 10 ms with good supplies starts the device as from power good. -/
  | doneRestart (e : StartEnv)
  /-- JOURNAL_FLUSH_TIMEOUT (R242). A journal port has not answered GPF Phase 2 within 5 ms at start-up and its copy is dropped. -/
  | journalFlushTimeout (b : Fin 4)
  /-- SEAL_ITEM (R247). The hallmark engine takes a seal item from a command queue and checks it. -/
  | sealItem
  /-- SEAL_DURABILITY_STEP (R247). A priority-5 step brings a covered granule to a stable state with no owner. -/
  | sealDurabilityStep (s : Fin 8)
  /-- SEAL_HASH_COMPLETE (R247). A lane finishes hashing a seal preimage and the chain advances. -/
  | sealHashComplete (lane : Fin 8)
  /-- CLEAN (R277). A maintenance item with OP CLEAN is taken and queued at its slices. -/
  | clean
  /-- INV (R277). A maintenance item with OP INV is taken and queued at its slices. -/
  | inv
  /-- CLINV (R277). A maintenance item with OP CLINV is taken and queued at its slices. -/
  | clinv
  /-- RETIRE (R277). A set/way maintenance item with OP RETIRE is taken. -/
  | retire
  /-- UNRETIRE (R277). A set/way maintenance item with OP UNRETIRE is taken. -/
  | unretire
  /-- MAINTENANCE_STEP (R280). A priority-5 maintenance step acts on one way of its set. -/
  | maintenanceStep (s : Fin 8)
  /-- PLANISH_STEP (R268). The planish interval expires and a step recomputes the frame parity of one stale clean line. -/
  | planishStep (s : Fin 8)
  /-- SCRUB_READ (R270). Patrol scrub reads the next codeword of a pseudo-channel and corrects or recovers it. -/
  | scrubRead (pc : Fin 32) (upset : BitVec 544)
  /-- SCRUB_PERIOD_END (R270). A scrub period ends, an unfinished walk sets LATE and the row error table clears. -/
  | scrubPeriodEnd
  /-- ARM (R274). A write of 1 to STO_FLIP_HI.ARM arms the flip-mask. -/
  | arm (v : Word)
  /-- Q_PUSH (R296). An agent pushes one word into a queue it owns by MGQ and receives Q_ACK. -/
  | qPush (p : Fin 16) (tag : Byte) (q : BitVec 14) (eop poison : Bool) (d : PoolWord 64)
  /-- Q_POP (R298). An agent pops one word from a queue it owns by MGQ and receives Q_WORD. -/
  | qPop (p : Fin 16) (tag : Byte) (q : BitVec 14) (upset : BitVec 67)
  /-- QUE_PUSH_HI (R297). A management-cluster write of PUSH_HI pushes one word with the latched data and flags. -/
  | quePushHi (q : BitVec 14) (v : PoolWord 32)
  /-- QUE_POP_LO (R297). A management-cluster read of POP_LO of 32 bits or wider pops a word and latches its upper half and flags. -/
  | quePopLo (q : BitVec 14) (upset : BitVec 67)
  /-- FLUSH (R305). A write of 1 to QUE_Dq_CTL.FLUSH discards every word of the queue and may enter RESYNC. -/
  | flush (q : BitVec 14)
  /-- QUEUE_STALE_TIMEOUT (R307). A queue's stale timer expires, sets STALE and raises an event. -/
  | queueStaleTimeout (q : BitVec 14)
  /-- GAP_MARKER (R302). A GAP marker is written when the queue has room, no item is open and GAP_PEND is not 0. -/
  | gapMarker (q : BitVec 14)
  /-- REG_RD (R211). An agent's register read by MGQ is performed and answered with REG_RSP. -/
  | regRd (p : Fin 16) (tag : Byte) (a : Word) (w64 : Bool)
  /-- REG_WR (R211). An agent's register write by MGQ is performed or posted and answered with REG_RSP. -/
  | regWr (p : Fin 16) (tag : Byte) (a : Word) (w64 : Bool) (be : Byte) (d : Dword)
  /-- REGISTER_WRITE (R338). A write to a register with no behaviour of its own updates its fields by type and byte enables. -/
  | registerWrite (r : Requester) (a : Word) (width : AccWidth) (be : Byte) (d : Dword)
  /-- RC_FIELD_READ (R9). A read of 32 bits or wider of a register holding an RC field returns it and clears or resets it. -/
  | rcFieldRead (r : Requester) (a : Word) (w64 : Bool)
  /-- POSTED_WRITE_EFFECT (R341). A posted far write takes effect at its target and BUSY clears. -/
  | postedWriteEffect (r : Requester)
  /-- FAR_ACCESS_TIMEOUT (R343). A far access not completed in 2 µs is abandoned with ACC_ERR cause 4. -/
  | farAccessTimeout (r : FarLoss)
  /-- MBX_SEL (R348). A write of MBXm_SEL starts a mailbox fill of the selected object. -/
  | mbxSel (m : Fin 8) (r : Requester) (v : Word)
  /-- MBX_FILL_COMPLETE (R348). A mailbox fill completes, PEND clears and VALID sets. -/
  | mbxFillComplete (m : Fin 8)
  /-- MBX_ACK (R349). A write of MBXm_ACK clears VALID. -/
  | mbxAck (m : Fin 8) (r : Requester)
  /-- MBX_DATA_READ (R349). A read of a mailbox data word while PEND is 1 returns the previous fill and sets EARLY. -/
  | mbxDataRead (m : Fin 8) (r : Requester) (k : Fin 12)
  /-- GO (R61). A write of 1 to RIG_RELOAD.GO starts a runtime reload of the staged rig. -/
  | go
  /-- RELOAD_SWITCH (R61). Once affected transactions have completed, the three runtime sections switch in one cycle and held REQs are released. -/
  | reloadSwitch
  /-- RELOAD_TIMEOUT (R63). A reload whose steps 5 to 7 have not completed in 50 ms is abandoned with error 0x0F. -/
  | reloadTimeout
  /-- RLD (R65). The partner's reload readiness arrives over the shroud link. -/
  | rld (seq : Word)
  /-- RELOAD_PARTNER_TIMEOUT (R65). The partner has not reported readiness in 10 ms and the reload is abandoned with error 0x11. -/
  | reloadPartnerTimeout
  /-- SLC_DIS_GO (R123). A request to disable a slice's cache is granted or refused in cycle E. -/
  | slcDisGo (s : Fin 8)
  /-- SLC_EN_GO (R125). A request to re-enable a slice's cache is granted or refused in cycle E. -/
  | slcEnGo (s : Fin 8)
  /-- CBYP_DIS_GO (R123). A request to bypass a region's cache is granted or refused in cycle E. -/
  | cbypDisGo (rgn : BitVec 6)
  /-- CBYP_EN_GO (R125). A request to end a region's bypass is granted or refused in cycle E. -/
  | cbypEnGo (rgn : BitVec 6)
  /-- EVENT_TICK (R315). A tick samples every pending event latch and delivers the events in order of precedence. -/
  | eventTick
  /-- EVENT_QUEUE_PUSH (R319). The delivery list pushes event items into their queues, up to 32 per tick. -/
  | eventQueuePush
  /-- EVT_FORCE (R321). A write of EVT_FORCE.GO sets the pending latch of the named source. -/
  | evtForce (src : BitVec 10)
  /-- SNAP (R329). A write of 1 to PMC_CTL.SNAP requests a snapshot at the next tick edge. -/
  | snap
  /-- SNAPSHOT_PERIOD_EXPIRY (R329). SNAP_PER × 1,024 ticks elapse since the last snapshot and a snapshot is requested. -/
  | snapshotPeriodExpiry
  /-- SNAPSHOT (R329). All 512 counters are copied to their shadows at one tick edge and SEQ increments. -/
  | snapshot
  /-- CLR_ALL (R327). A write of 1 to PMC_CTL.CLR_ALL clears every counter and overflow bit at the next tick edge. -/
  | clrAll
  /-- PMC_WVAL_HI (R327). A write of PMC_WVAL_HI loads the selected counter with the latched value. -/
  | pmcWvalHi (v : Word)
  /-- PMC_SMP_SEED (R330). A write of the seed reloads every port's sampling LFSR. -/
  | pmcSmpSeed (v : Word)
  /-- APT_SWEV (R313). A write of APTn_SWEV raises software events of the port at the next tick. -/
  | aptSwev (p : Fin 16) (v : Byte)
  /-- DIS (R180). A write of 1 to APTn_LINK_CTL.DIS takes the link to DOWN and isolates the agent. -/
  | dis (p : Fin 16)
  /-- RETRAIN (R206). A write of APTn_LINK_CTL.RETRAIN returns a DOWN link to DETECT. -/
  | retrain (p : Fin 16)
  /-- DRAIN (R400). TOP_SLC_CTL with OP DRAIN takes a slice out of service. -/
  | drain (s : Fin 8)
  /-- RETURN (R400). TOP_SLC_CTL with OP RETURN returns an assayed slice to service. -/
  | returnSlc (s : Fin 8)
  /-- ARTS_GO (R401). A write of TOP_ARTS.GO removes an isolated agent from the directory and clears its isolation. -/
  | artsGo (p : Fin 16)
  /-- ASSAY (R400). A write of TST_ASSAY_CTL.GO starts the assay of an out-of-service slice. -/
  | assay (s : Fin 8)
  /-- ASSAY_COMPLETE (R400). An assay ends and reports PASS or FAIL. -/
  | assayComplete (struct : BitVec 3)
  /-- BKP_RETURN (R402). A write of BKPn_CTL.RETURN reruns the link step on a failed backing port. -/
  | bkpReturn (b : Fin 4)
  /-- BKP_RETURN_COMPLETE (R402). A returning backing port reaches READY or FAILED. -/
  | bkpReturnComplete (b : Fin 4) (e : PortEnv)
  /-- BKP_FAIL (R402). A write of BKPn_CTL.FAIL fails the backing port. -/
  | bkpFail (b : Fin 4)
  /-- HANDOVER (R394). A write of SHD_CTL.HANDOVER starts handing this device's half to its partner. -/
  | handover
  /-- HANDBACK (R394). A write of SHD_CTL.HANDBACK starts handing the partner's half back. -/
  | handback
  /-- HAL_CTL_ENUM (R365). A write of HAL_CTL.ENUM on the chain head sends ENUM downstream. -/
  | halCtlEnum
  /-- UNREEF (R409). PWR_DOM_CTL with OP UNREEF wakes the named domain. -/
  | unreef (dom : BitVec 5)
  /-- REEF (R407). PWR_DOM_CTL with OP REEF reefs the named domain when its conditions hold. -/
  | reef (dom : BitVec 5)
  /-- RESET (R416). PWR_DOM_CTL with OP RESET resets the named domain unless refused. -/
  | reset (dom : BitVec 5)
  /-- KICK (R420). A write of PWR_WDT.KICK restarts the D1 watchdog count. -/
  | kick
  /-- POWER_GOOD (R417). PWRGD passes its filter high and start-up runs its steps, loading firmware, rig and store. -/
  | powerGood (e : StartEnv)
  /-- STRAP_SAMPLE (R420). A strap sample is taken 100, 200 or 300 µs after PG and the majority stands. -/
  | strapSample (k : Fin 3) (mgtMode chainHead scanEn : Bool)
  /-- RDY (R417). Start-up completes, slices admit and port state machines leave DISABLED. -/
  | rdy
  /-- PWRGD_LOW (R414). PWRGD passes its filter low and causes a cold reset. -/
  | pwrgdLow
  /-- RESET_N (R415). RESET_N passes its filter low and a warm reset is recognised, flushing first after RDY. -/
  | resetN
  /-- WARM_RESET_EFFECT (R415). The warm reset takes effect 10 µs after Done and PFD is released. -/
  | warmResetEffect (e : StartEnv)
  /-- DOMAIN_IDLE_REEF (R407). A domain's conditions have held for its IDLE time and the power manager reefs it. -/
  | domainIdleReef (dom : BitVec 5)
  /-- DOMAIN_WAKE (R409). A wake source arrives and a reefed domain begins to unreef. -/
  | domainWake (dom : BitVec 5)
  /-- DOMAIN_WAKE_COMPLETE (R409). A waking domain and its dependencies are up and held items proceed. -/
  | domainWakeComplete (dom : BitVec 5)
  /-- DOMAIN_WAKE_TIMEOUT (R410). A domain not up 1 ms after its wake source stays reefed and its resource fails. -/
  | domainWakeTimeout (dom : BitVec 5)
  /-- PLL_LOCK_FAILURE (R412). A PLL has not locked after three tries and its domain's resource fails. -/
  | pllLockFailure (dom : BitVec 5)
  /-- REFCLK_FAILURE (R413). A reference clock is absent or out of range for 10 µs and every link on it goes DOWN. -/
  | refclkFailure (k : Fin 4)
  /-- CRYSTAL_FAILURE (R413). The crystal differs from the 32.768 kHz oscillator by over 2 % for 1 ms and all domains but D0 are held in reset. -/
  | crystalFailure
  /-- WATCHDOG_EXPIRY (R420). The D1 watchdog expires and D1 alone restarts. -/
  | watchdogExpiry
  /-- D1_WAKE_TIMER (R409). The PWR_WDT.WAKE timer expires while D1 is reefed and wakes D1. -/
  | d1WakeTimer
  /-- STACK_TEMPERATURE (R444). The stack temperature crosses 85 °C or 105 °C and the refresh rate changes. -/
  | stackTemperature (t : Byte)
  /-- THERMTRIP (R445). A die passes its trip temperature and THERMTRIP_N falls. -/
  | thermtrip
  /-- RECEIVER_DETECTED (R180). A receiver is detected on lane 0 and the port enters TRAIN. -/
  | receiverDetected (l : LinkId)
  /-- DETECT_TIMEOUT (R180). No receiver is detected in 12 ms and detection repeats. -/
  | detectTimeout (l : LinkId)
  /-- STS1 (R179). A training set STS1 is received on a lane. -/
  | sts1 (l : LinkId) (lane : Fin 16) (w : BitVec 256)
  /-- STS2 (R179). A training set STS2 carrying a lane number is received. -/
  | sts2 (l : LinkId) (lane : Fin 16) (w : BitVec 256)
  /-- SDM (R180). A start-of-flits block is received in INIT. -/
  | sdm (l : LinkId) (lane : Fin 16) (w : BitVec 256)
  /-- TRAIN_TIMEOUT (R180). TRAIN lasts 24 ms and the port returns to DETECT with a training-failure event. -/
  | trainTimeout (l : LinkId)
  /-- CFG_TIMEOUT (R180). CFG lasts 2 ms and the port returns to DETECT. -/
  | cfgTimeout (l : LinkId)
  /-- EQUALISATION_COMPLETE (R180). PCIe 6.0 equalisation at 32 or 64 GT/s completes and its settings are stored. -/
  | equalisationComplete (l : LinkId)
  /-- EQUALISATION_FAILURE (R180). Equalisation fails or lasts 32 ms and the agreed rate drops one step. -/
  | equalisationFailure (l : LinkId)
  /-- INIT_TIMEOUT (R180). INIT lasts 1 ms without sufficient credits and the port returns to DETECT. -/
  | initTimeout (l : LinkId)
  /-- PAYLOAD (R202). A good PAYLOAD flit is received and accepted, discarded, or answered with NAK by sequence. -/
  | payload (l : LinkId) (w : BitVec 2048)
  /-- NOP (R202). A good NOP flit is received and its LNK slots processed. -/
  | nop (l : LinkId) (w : BitVec 2048)
  /-- BAD_FLIT (R202). A flit with an uncorrectable interleave or failing CRC is discarded and a NAK sent. -/
  | badFlit (l : LinkId) (w : BitVec 2048)
  /-- NAK_RESEND_TIMEOUT (R202). The replayed flit has not arrived 2 µs after a NAK and the NAK is sent again. -/
  | nakResendTimeout (l : LinkId)
  /-- REPLAY_TIMEOUT (R203). ACKSEQ has not advanced for RPLT and the transmitter replays. -/
  | replayTimeout (l : LinkId)
  /-- LANE_LOCK_LOST (R204). The receiver loses lane lock and the link enters RECOVER. -/
  | laneLockLost (l : LinkId)
  /-- RECOVER_COMPLETE (R180). Retraining in RECOVER completes and the link returns to ACTIVE with replay. -/
  | recoverComplete (l : LinkId) (lanes : BitVec 16)
  /-- RECOVER_TIMEOUT (R180). RECOVER lasts 2 ms and the rate drops or, at 16 GT/s, the link goes DOWN. -/
  | recoverTimeout (l : LinkId)
  /-- L1_REQ (R207). A request for low-power entry is received and answered. -/
  | l1Req (p : Fin 16)
  /-- L1_ACK (R207). An acceptance of low-power entry is received and the link goes to L1. -/
  | l1Ack (p : Fin 16)
  /-- L1_NAK (R207). A refusal of low-power entry is received and the link stays ACTIVE. -/
  | l1Nak (p : Fin 16)
  /-- L1_ANSWER_TIMEOUT (R207). No answer to L1_REQ arrives in 2 µs and it counts as L1_NAK. -/
  | l1AnswerTimeout (p : Fin 16)
  /-- L1IDLE_EXPIRY (R207). The link has been idle for L1IDLE and the device sends L1_REQ. -/
  | l1idleExpiry (p : Fin 16)
  /-- ELECTRICAL_IDLE_EXIT (R180). An end leaves electrical idle, or an item waits, and the link enters WAKE. -/
  | electricalIdleExit (p : Fin 16)
  /-- WAKE_COMPLETE (R180). Lanes lock and flits flow within 10 µs and the link returns to ACTIVE. -/
  | wakeComplete (p : Fin 16)
  /-- WAKE_TIMEOUT (R180). WAKE lasts 10 µs and the link enters RECOVER. -/
  | wakeTimeout (p : Fin 16)
  /-- CREDIT_WAIT (R200). An item toward an agent waits CRDW without credit and the credit-wait event is raised. -/
  | creditWait (p : Fin 16) (c : MsgClass)
  /-- CREDIT_WAIT_ISOLATION (R200). An item waits CRDN with no credit arriving and the agent is isolated. -/
  | creditWaitIsolation (p : Fin 16) (c : MsgClass)
  /-- SHROUD_HELLO (R382). A HELLO from the partner is compared and moves the pair state. -/
  | shroudHello (member : Bool) (pstate : BitVec 3) (pairId sum : Word)
  /-- HB (R389). A heartbeat from the partner arrives and updates PSTATE, PFAIL, MSYNC and BUDGET. -/
  | hb (hbseq : Byte) (pstate : BitVec 3) (pfail msync : Bool) (budget : Word)
  /-- HEARTBEAT_MISSED (R389). No heartbeat arrives within 50 µs; the third miss declares the partner failed. -/
  | heartbeatMissed
  /-- CENSUS_LIMIT_EXPIRY (R396). The census limit expires, unanswered ports are isolated and the census closes. -/
  | censusLimitExpiry
  /-- CENSUS_CLOSE_WALK_STEP (R396). A priority-5 step clears CNS in a backstop set after census close. -/
  | censusCloseWalkStep (s : Fin 8)
  /-- FAILOVER_RESUME (R391). After census and shadow writes, the taken-over buckets are rewritten and held REQs released. -/
  | failoverResume
  /-- SALVAGE_STEP (R398). A salvage step writes a faulty slice's dirty data or write-buffer entries to backing. -/
  | salvageStep (s : Fin 8)
  /-- SLICE_FAULT_RESUME (R397). After census and salvage, FENCED clears on the remapped buckets and held REQs are released. -/
  | sliceFaultResume (s : Fin 8)
  /-- WITNESS_WRITE (R383). Every 50 µs the member writes its witness granule. -/
  | witnessWrite
  /-- WITNESS_WRITE_TIMEOUT (R382). A witness write unacknowledged in 100 µs while heartbeats are missed moves the member to YIELDED. -/
  | witnessWriteTimeout
  /-- WITNESS_READ_COMPLETE (R384). A read of the partner's witness completes and may decide dead, alive or unknown. -/
  | witnessReadComplete (ok : Bool) (wcnt : Dword) (pstate : Byte) (pairId : Word)
  /-- JOINW_EXPIRY (R382). WAIT lasts JOINW and the member takes over or detaches by the witness decision. -/
  | joinwExpiry
  /-- SHROUD_RETRY (R379). A DOWN shroud link returns to DETECT by itself after 1 ms. -/
  | shroudRetry
  /-- MWR (R386). A mirror write is stored in its mirror set or answered MFULL. -/
  | mwr (ga : BitVec 36) (poison : Bool) (d : Gran)
  /-- MCLR (R386). A mirror clear invalidates the matching mirror entry. -/
  | mclr (ga : BitVec 36)
  /-- SWR (R386). A shadow write replaces the shadow entry of a partner's write-buffer entry. -/
  | swr (ga : BitVec 36) (poison : Bool) (src : Fin 8) (entry : BitVec 6) (seq : BitVec 6) (be : ByteEn) (d : Gran)
  /-- SCLR (R386). A shadow clear invalidates the matching shadow entry. -/
  | sclr (src : Fin 8) (entry : BitVec 6)
  /-- MRD (R388). A mirror read request is answered with MDAT after every earlier MIR item. -/
  | mrd (ga : BitVec 36) (tag : Byte)
  /-- MDAT (R388). Mirror read data arrives and recovers an uncorrectable dirty granule. -/
  | mdat (ga : BitVec 36) (poison hit : Bool) (tag : Byte) (d : Gran)
  /-- MFULL (R386). The partner's full-set answer makes the sender admit a clean step for the sector. -/
  | mfull (ga : BitVec 36)
  /-- MIRROR_READ_TIMEOUT (R388). No MDAT arrives in 20 µs and the granule is poisoned. -/
  | mirrorReadTimeout (tag : Byte)
  /-- MIRROR_DRAIN_STEP (R392). A priority-5 step issues the valid mirror entries of one set as backing writes. -/
  | mirrorDrainStep (s : Fin 8)
  /-- MIRROR_RESYNC_STEP (R386). A priority-5 step mirrors the durable dirty sectors of a dirty-map set after re-pairing. -/
  | mirrorResyncStep (s : Fin 8)
  /-- DXF (R394). A transferred directory entry is installed and charged by the receiver. -/
  | dxf (e : Dword)
  /-- DXF_END (R394). The end of a directory transfer is checked against the count received. -/
  | dxfEnd (n : Word)
  /-- HELLO (R359). A TMP HELLO returns the boot ID, serial, versions, chain address and time flag. -/
  | hello (src : TmpSrc) (msg : List Byte)
  /-- TMP_REG_RD (R359). A TMP register read is performed as a management-cluster access. -/
  | tmpRegRd (src : TmpSrc) (msg : List Byte)
  /-- TMP_REG_WR (R359). A TMP register write is performed as a management-cluster access. -/
  | tmpRegWr (src : TmpSrc) (msg : List Byte)
  /-- MBX_RD (R359). A TMP mailbox read fills a mailbox and returns its data words. -/
  | mbxRd (src : TmpSrc) (msg : List Byte)
  /-- Q_SUB (R359). A TMP subscription to a management queue is set or cleared. -/
  | qSub (src : TmpSrc) (msg : List Byte)
  /-- TMP_Q_PUSH (R359). A TMP push lands words in a management queue. -/
  | tmpQPush (src : TmpSrc) (msg : List Byte)
  /-- EVT_SUB (R359). A TMP event subscription is set, renewed or cleared. -/
  | evtSub (src : TmpSrc) (msg : List Byte)
  /-- EVT_SUB_LAPSE (R359). An event subscription not renewed for 60 s lapses. -/
  | evtSubLapse (i : BitVec 6)
  /-- LOG_RD (R359). A TMP log read returns bytes of the log ring. -/
  | logRd (src : TmpSrc) (msg : List Byte)
  /-- TIME (R359). A TMP time request returns the IEEE 1588 time, flag and offset. -/
  | time (src : TmpSrc) (msg : List Byte)
  /-- TMP_SNAP (R359). A TMP request triggers a counter snapshot and returns its sequence number. -/
  | tmpSnap (src : TmpSrc) (msg : List Byte)
  /-- UPD_START (R370). An update start takes the crucible lock and erases the crucible. -/
  | updStart (src : TmpSrc) (msg : List Byte)
  /-- UPD_DATA (R370). An update chunk is written to the crucible at its offset. -/
  | updData (src : TmpSrc) (msg : List Byte)
  /-- UPD_END (R370). The crucible image is verified and the lock released. -/
  | updEnd (src : TmpSrc) (msg : List Byte)
  /-- UPD_ACTIVATE (R370). A verified image is recorded for activation at the next start of the management cluster. -/
  | updActivate (src : TmpSrc) (msg : List Byte)
  /-- UPD_CONFIRM (R373). A trial image is confirmed, the anti-rollback count raised and the older settings slot released. -/
  | updConfirm (src : TmpSrc) (msg : List Byte)
  /-- UPD_ABORT (R370). An update is aborted, the crucible emptied and the lock released. -/
  | updAbort (src : TmpSrc) (msg : List Byte)
  /-- UPD_STAT (R359). A TMP request returns the newest activation record. -/
  | updStat (src : TmpSrc) (msg : List Byte)
  /-- RIG_WRITE (R359). A TMP write stores bytes into a rig area not in use. -/
  | rigWrite (src : TmpSrc) (msg : List Byte)
  /-- RIG_ERASE (R359). A TMP request erases a rig area not in use. -/
  | rigErase (src : TmpSrc) (msg : List Byte)
  /-- SET_RD (R359). A TMP request reads a tagged value of the settings store. -/
  | setRd (src : TmpSrc) (msg : List Byte)
  /-- SET_WR (R374). A TMP request writes a tagged value to the settings store. -/
  | setWr (src : TmpSrc) (msg : List Byte)
  /-- RESTART_DEVICE (R415). A TMP RESTART of scope 0 is a warm reset of the device, flushing first after RDY. -/
  | restartDevice (src : TmpSrc) (msg : List Byte)
  /-- RESTART_MANAGEMENT_CLUSTER (R414). A TMP RESTART of scope 1 restarts D1 alone. -/
  | restartManagementCluster (src : TmpSrc) (msg : List Byte)
  /-- RELAY_EXPIRY (R366). A gateway relay unanswered for 100 ms expires and the host is answered UNREACH. -/
  | relayExpiry (i : BitVec 6)
  /-- CHAIN_PORT_UP (R363). A halyard chain port receives 64 valid characters and comes up. -/
  | chainPortUp (down : Bool)
  /-- CHAIN_PORT_DOWN (R363). A halyard chain port sees code violations or silence and goes down. -/
  | chainPortDown (down : Bool)
  /-- ENUM (R365). An ENUM frame assigns the receiving unit an address and is passed on. -/
  | enum (down : Bool) (f : List Byte)
  /-- ENUM_DONE (R365). An ENUM_DONE frame reports the last chain address to the head. -/
  | enumDone (down : Bool) (f : List Byte)
  /-- TMP_FRAME (R366). A TMP frame on the chain is served by its destination or forwarded. -/
  | tmpFrame (down : Bool) (f : List Byte)
  /-- IMG_OFFER (R371). A neighbour's image offer is accepted as an update start or refused BUSY. -/
  | imgOffer (down : Bool) (f : List Byte)
  /-- IMG_REQ (R371). A neighbour's request for image bytes is answered with IMG_DATA. -/
  | imgReq (down : Bool) (f : List Byte)
  /-- IMG_DATA (R371). Image bytes from a neighbour are written to the crucible. -/
  | imgData (down : Bool) (f : List Byte)
  /-- IMG_RSP (R371). A neighbour's result of a chain image transfer is received. -/
  | imgRsp (down : Bool) (f : List Byte)
  /-- IMG_REQ_RESEND_TIMEOUT (R371). An IMG_REQ unanswered for 10 ms is resent, and aborted after 8 tries. -/
  | imgReqResendTimeout (down : Bool)
  /-- CRUCIBLE_LOCK_TIMEOUT (R375). No update data for 60 s releases the crucible lock and empties the crucible. -/
  | crucibleLockTimeout
  /-- SYNC (R362). An IEEE 1588 Sync message is timestamped and may lock or unlock the clock. -/
  | sync (ofs : BitVec 64) (ival : Nat)
  /-- SYNC_TIMEOUT (R362). No Sync arrives within three announced intervals and the clock enters holdover. -/
  | syncTimeout
  /-- TRIAL_RECORD_TIMER (R373). Every 60 s of trial uptime TRIAL_SEC is recorded, and at 600 s the cluster restarts to roll back. -/
  | trialRecordTimer
  /-- AUTO_CONFIRM_EXPIRY (R373). After 60 s of uptime with AUTO_CONFIRM set and no FATAL event the trial image is confirmed. -/
  | autoConfirmExpiry
  /-- ETHERNET_LINK_UP (R377). The management port's Ethernet link comes up, MGT_STAT.ETH_UP sets and management event 3 is raised. -/
  | ethernetLinkUp
  /-- ETHERNET_LINK_DOWN (R377). The management port's Ethernet link goes down, MGT_STAT.ETH_UP clears and management event 4 is raised. -/
  | ethernetLinkDown
  /-- HEARTBEAT_SEND (R389). Every 50 µs each paired member sends HB with its next HBSEQ, PSTATE, PFAIL, MSYNC and BUDGET. -/
  | heartbeatSend
  /-- WAIT_WITNESS_READ (R384). 100 µs before JOINW in state WAIT the member issues the first read of its partner's witness. -/
  | waitWitnessRead
  /-- DOMAIN_REEF_COMPLETE (R410). A reef ends at most 5 µs after its decision, and any wake source that arrived meanwhile is then acted on. -/
  | domainReefComplete (dom : BitVec 5)
  /-- FLASH_BLOCK_ERASED (R370). An erase of a 64 KiB crucible block completes, releasing UPD_DATA or IMG_DATA chunks waiting on it and the UPD_START answer for the first block. -/
  | flashBlockErased
  /-- TCK (R403). A TCK edge advances the IEEE 1149.1 TAP controller, shifting TDI, TMS and TDO and applying the instruction. -/
  | tck (rise tms tdi : Bool)
  /-- TRST_N (R403). TRST_N held low for at least 100 ns resets the TAP controller. -/
  | trstN
  /-- FRAME_BUFFER_CREDIT (R363). A K28.6 received on a halyard chain port returns one frame-buffer credit to the sender. -/
  | frameBufferCredit (down : Bool)
deriving DecidableEq, Repr

end Sys2Proof
end

