-- ==== Sys2Proof/Decode.lean ====
section
/-!
DEFINITION. Words of commands: the opcode table gives no row any bits, so no word spells a command.
-/

namespace Sys2Proof

/-- The command that a word of `nbits` bits spells by the table: none, whatever the word. -/
def decodeTableWord (nbits w : Nat) : Option Instr :=
  match nbits, w with
  | _, _ => none

end Sys2Proof
end

