-- ==== Sys2Proof/Config.lean ====
section
/-!
DEFINITION. What the spec leaves open, as constants without a body: nothing can be proved of their values.
-/

namespace Sys2Proof.Config

/-- The n-th free value the model draws: a value the spec calls random or does not state (assumption 12). -/
opaque freeValue : Nat → BitVec 64

end Sys2Proof.Config
end

