-- ==== Sys2Proof/Machine/State.lean ====
section
/-!
DEFINITION. The state of the block as plain data: every register, table, buffer, queue, counter, mode and pin that
the spec gives it, beside the queue of waiting commands and the model's clock. A structure's default values are its
reset values. Registers with fields that software writes stand in `Data.regs` by address (Machine/RegMap.lean).
-/

namespace Sys2Proof.Machine

/-- What stops the machine: nothing does. Every command of the table has an effect the spec gives it. -/
inductive Fault where
deriving DecidableEq, Repr

/-- Why a command has no meaning. -/
inductive Refusal where
  /-- Raised by `exec` for a row that has no meaning yet; safe (the model stops where the block goes on). -/
  | notModelled (mnemonic : String)
deriving DecidableEq, Repr

abbrev Agent := Fin 16
abbrev SliceId := Fin 8
abbrev BkpId := Fin 4

/-! ## Slice -/

/-- Tag states (R74). -/
inductive TagSt where
  | inv | valid | fill | draining
deriving DecidableEq, Repr

/-- A tag entry (R71); the check bits are not visible. -/
structure TagEnt where
  tag : BitVec 16 := 0
  st : TagSt := .inv
  sv : BitVec 16 := 0
  sd : BitVec 16 := 0
deriving DecidableEq, Repr

/-- A set word (R72). -/
structure SetWord where
  repl : Word := 0
  ps : BitVec 16 := 0
  ret : BitVec 16 := 0
deriving DecidableEq, Repr

/-- BASE of a directory entry (R133). -/
inductive Base where
  | i | s | x | o
deriving DecidableEq, Repr

/-- A directory entry (R133, R134, R135) with its granule address; `cns` is the census mark (R396). -/
structure DirEnt where
  ga : Nat := 0
  base : Base := .i
  lch : Bool := false
  pin : Bool := false
  cns : Bool := false
  own : Option Agent := none
  shr : AgentSet := 0
deriving DecidableEq, Repr

/-- A REQ item with the data and byte enables it carries (R94, R190). -/
structure Req where
  agent : Agent
  op : BitVec 5
  ga : Nat
  wt : Bool := false
  be : ByteEn := 0
  data : Gran := 0
  poison : Bool := false
  ch : Fin 8 := 0
  t0 : Nat := 0
  tagged : Bool := false
  /-- It came in a flit, and its port holds its credits (R196). -/
  cred : Bool := false
  /-- What its port sampled when it accepted the REQ (R21): the slice that the interleave entry named, none where FENCED
  was set. -/
  dst : Option SliceId := none
deriving DecidableEq, Repr

/-- A message of a class other than REQ from an agent to a slice (R142). -/
structure Answer where
  agent : Agent
  dat : Bool
  op : BitVec 5
  ga : Nat
  poison : Bool := false
  data : Gran := 0
deriving DecidableEq, Repr

/-- A pass that waits: a request, an RSP or DAT that met a recovery or a census wait, the BKRD of an HTE (R148),
a back-invalidation (R138), a read pass of the hallmark engine (R247), or a step of a background engine, by its number in
the rotation of priority 5, with a granule of the line it works on (R95, R219, R223). -/
inductive WKind where
  | req (r : Req)
  | answer (m : Answer)
  | bkrd (ga : Nat)
  | binv (ga : Nat)
  | hash (lane : Fin 8) (ga : Nat)
  | engine (k : Nat) (ga : Option Nat)
deriving DecidableEq, Repr

/-- Why a REQ is in its set's retry queue (R153, R164, R224, R398). -/
inductive Retry where
  | pinned | fetch | spill | pins | noHte
  | hold (expiry : Nat)
  | holdFull
  | budget (since : Nat)
  | owed
  | salvage
  | mirror
deriving DecidableEq, Repr

/-- Where a waiting pass is: the REQ input buffer, the readmission queue, a wait list (R95), a miss-tracker entry
(R99), a side-buffer entry (R119), a mirror read (R388), or its set's retry queue (R153). -/
inductive Loc where
  | input | ready | mtFull
  | wbFull (need : Nat)
  | credit (c : MsgClass) (p : Agent)
  | onMt (i : Nat)
  | onSide (i : Nat)
  | onMirror (tag : Byte)
  | mirCredit
  | retry (why : Retry)
deriving DecidableEq, Repr

/-- A waiting pass; `seq` is its age, `since` when the present wait began, `cdis` the cache-disable state sampled
at its admission (R122), `enter` when it first entered a retry queue and `reported` whether its wait has been
reported (R172), `rel` whether it was released from the budget wait (R224), `trained` whether it has trained the stream
detector (R115), `due` since when nothing but admission keeps it waiting (R93). -/
structure Waiter where
  seq : Nat
  since : Nat
  kind : WKind
  loc : Loc
  cdis : Option Bool := none
  enter : Option Nat := none
  reported : Bool := false
  rel : Bool := false
  trained : Bool := false
  due : Option Nat := none
  /-- Accepted before the switch cycle of the last reload (R62). -/
  old : Bool := false
deriving DecidableEq, Repr

/-- A home transaction entry (R143, R146, R220); `rslot` and `wslot` are its store read slot and store write slot. -/
structure Hte where
  ga : Nat
  st : Nat
  req : Option Agent := none
  rq : Option Req := none
  pend : AgentSet := 0
  pendX : AgentSet := 0
  wbsrc : Option Agent := none
  buf : Gran := 0
  bufP : Bool := false
  rd : Bool := false
  rr : Bool := false
  ro : Bool := false
  wb : Nat := 0
  rslot : Bool := false
  wslot : Bool := false
  rsv : Nat := 0
  dur : Bool := false
  start : Nat := 0
  seq : Nat := 0
  old : Bool := false
deriving DecidableEq, Repr

/-- Kinds of write-buffer entry (R106). -/
inductive WbKind where
  | wt | na | vic | cln
deriving DecidableEq, Repr

/-- A write-buffer entry that is not FREE (R105, R267); `uid` orders creation, `sq` is SEQ, `sent` is when its backing port
took it, `tries` how often it was sent. -/
structure WbEnt where
  idx : Nat
  uid : Nat
  sq : Nat := 0
  ga : Nat
  be : ByteEn
  data : Gran
  kind : WbKind
  issued : Bool
  dur : Bool
  redirty : Bool := false
  poison : Bool := false
  made : Nat := 0
  sent : Option Nat := none
  tries : Nat := 0
deriving DecidableEq, Repr

/-- The two granules of a sector with their poison. -/
structure SecData where
  d0 : Gran := 0
  d1 : Gran := 0
  p0 : Bool := false
  p1 : Bool := false
deriving DecidableEq, Repr

/-- What a miss-tracker entry reads for. -/
inductive MtUse where
  | demand | recover (set way : Nat)
deriving DecidableEq, Repr

/-- A miss-tracker entry (R99, R100, R172); `sec` is a[41:7], `fills` whether its line was present when it missed (R69),
`made` when it was allocated. -/
structure MtEnt where
  idx : Nat
  uid : Nat
  sec : Nat
  first : Nat
  use : MtUse := .demand
  alloc : Option (Nat × Nat) := none
  vic : Bool := false
  keep : Bool := false
  fills : Bool := false
  made : Nat := 0
  issued : Option Nat := none
  zs : BitVec 2 := 0
  failed : Bool := false
  got : Option SecData := none
  htes : List Nat := []
deriving DecidableEq, Repr

/-- States of a side-buffer entry (R118). -/
inductive SideSt where
  | free | pend | ready | used
deriving DecidableEq, Repr

/-- A side-buffer entry (R118, R267); `since` is when it last changed or served a use, `uid` the age of the pass that took
it. -/
structure SideEnt where
  uid : Nat := 0
  st : SideSt := .free
  cancel : Bool := false
  sec : Nat := 0
  data : SecData := {}
  since : Nat := 0
  arrived : Nat := 0
  issued : Option Nat := none
  zs : BitVec 2 := 0
deriving DecidableEq, Repr

/-- A stream (R115). -/
structure Stream where
  line : Nat
  sec : Nat
  desc : Bool
  conf : Nat
deriving DecidableEq, Repr

/-- A live hold record (R154). -/
structure Hold where
  ga : Nat
  agent : Agent
  expiry : Nat
deriving DecidableEq, Repr

/-- An owed marker (R163, R164, R172). -/
structure Owed where
  ga : Nat
  agent : Agent
  timer : Option Nat := none
deriving DecidableEq, Repr

/-- An open directory fetch (R136): the on-die way pinned for it and when its backstop read was issued. -/
structure Fetch where
  ga : Nat
  key : Nat
  start : Nat
deriving DecidableEq, Repr

/-- A spill-buffer entry (R137, R138); pinned while `e.pin`; `start` is when its backstop write issued (R166, R172). -/
structure Spill where
  e : DirEnt
  start : Option Nat := none
deriving DecidableEq, Repr

/-- An item toward an agent (R188, R190, R192). -/
structure TxItem where
  cls : MsgClass
  op : BitVec 5
  gaddr : BitVec 40
  peer : BitVec 4 := 0
  home : Bool := false
  poison : Bool := false
  data : Option Gran := none
  since : Nat := 0
  warned : Bool := false
deriving DecidableEq, Repr

/-- A store read whose codeword has been decoded in issue order (R265) and whose data has not yet returned. -/
structure StoreRd where
  port : Agent
  item : TxItem
  smp : Option Nat := none
deriving DecidableEq, Repr

/-- Who asked for a maintenance operation: a queue requester, or a procedure of the device (R61, R394, R400). -/
inductive MntOwner where
  | queue (r : Requester) (tag : Word)
  | reload
  | spare
  | drain (s : SliceId)
  | ret (s : SliceId)
  | handover
  | handback
deriving DecidableEq, Repr

/-- A region (R49). -/
structure Region where
  base : Nat := 0
  size : Nat := 0
  attr : Word := 0
deriving DecidableEq, Repr

/-- A maintenance operation in a slice (R280, R281, R285, R287); `upto` ends the line range, `await` names the
write-buffer entries it waits for, `inv` the lines (with set and way) whose way goes to INV at their last
acknowledgement. A slice holds four accepted operations (R285): one of the device's own that stands further back in the
slice's list waits for room. -/
structure MntOp where
  id : Nat
  op : Nat
  scope : Nat
  line : Nat := 0
  upto : Nat := 0
  set : Nat := 0
  way : Nat := 0
  regs : List Region := []
  accepted : Nat := 0
  begun : Bool := false
  done : Bool := false
  filt : Option (List Nat) := none
  await : List Nat := []
  inv : List (Nat × Nat × Nat) := []
  /-- Sectors of those lines whose CLN entries had REDIRTY set (R278), with their set and way. -/
  kept : List (Nat × Nat × Nat) := []
  /-- Ways of the current set, with their lines, that are done though they stay VALID (R278). -/
  seen : List (Nat × Nat) := []
  disc : Nat := 0
  skip : Nat := 0
deriving DecidableEq, Repr

/-- The planish slot (R268). -/
structure PlSlot where
  set : Nat
  way : Nat
  sv : BitVec 16
  dirtied : Bool := false
  /-- The parity that the step computed, with its poison, and when. -/
  p32 : Gran := 0
  p33 : Gran := 0
  psn : Bool := false
  at_ : Nat := 0
deriving DecidableEq, Repr

/-- A followed sample (R331). -/
structure Sample where
  seq : Nat
  req : Req
  t1 : Nat := 0
  t2 : Nat := 0
  t3 : Option Nat := none
  src : Nat := 0
  retried : Bool := false
  fetched : Bool := false
  /-- When owner-forwarded data reached the requester's port, and whether the owner's RSP has come. -/
  datAt : Option Nat := none
  rspIn : Bool := false
deriving DecidableEq, Repr

/-- Salvage of a faulty slice (R398): write-buffer entries first, then sets in ascending order. -/
structure Salvage where
  next : Nat := 0
  /-- Sets salvaged ahead of their turn. -/
  extra : List Nat := []
  await : List (Nat × Nat) := []
  start : Nat := 0
deriving DecidableEq, Repr

/-- One slice. -/
structure Slice where
  tags : SMap TagEnt := []
  sets : SMap SetWord := []
  dir : SMap DirEnt := []
  rr : SMap Nat := []
  bocc : SMap Bool := []
  bstUsed : Nat := 0
  spill : List Spill := []
  fetches : List Fetch := []
  /-- Granules whose fetch found no entry in the backstop, until the pass that waits has re-entered (R136). -/
  absent : List Nat := []
  htes : List Hte := []
  waiters : List Waiter := []
  holds : List Hold := []
  owed : List Owed := []
  mt : List MtEnt := []
  wb : List WbEnt := []
  wbSeq : Nat := 0
  side : Vector SideEnt 32 := Vector.replicate 32 {}
  streams : List Stream := []
  /-- Dirty maps (R222), the oldest first; the last is current. -/
  maps : Vector (List Nat) 4 := Vector.replicate 4 []
  epoch : Nat := 0
  stRd : List StoreRd := []
  mnt : List MntOp := []
  hints : List (Nat × Nat) := []
  /-- Sectors that MFULL calls for cleaning (R386). -/
  mfull : List Nat := []
  plSlot : Option PlSlot := none
  plNext : Nat := 0
  plLast : Nat := 0
  /-- The priority-5 engine after the one served last (R92, R223), and since when a step waits, with its age (R93). -/
  p5 : Nat := 0
  p5Due : Option (Nat × Nat) := none
  /-- Prefetch passes (R116): sector, since when each waits, its age. -/
  pf : List (Nat × Nat × Nat) := []
  /-- A bit upset that the slice's next lookup meets (R73, R134). -/
  latent : Upset := .none
  /-- The port after the one whose REQ the crossbar granted last, and the cycle of that grant (R15). -/
  arb : Nat := 0
  arbAt : Option Nat := none
  /-- The cache is disabled (R121), and the age of the latest disable (R125). -/
  cdis : Bool := false
  cdisAt : Nat := 0
  cnsOpen : Option Nat := none
  cnsCnt : Nat := 0
  cnsWalk : Option Nat := none
  salv : Option Salvage := none
  arts : Option (Agent × Nat) := none
  resync : Option Nat := none
  redirty : List (BkpId × Nat) := []
  samples : List Sample := []
  perrGa : Nat := 0
  tmoGa : Nat := 0
deriving DecidableEq, Repr

/-! ## Links and agent ports -/

/-- Link states (R180). -/
inductive LinkSt where
  | disabled | detect | train | cfg | eq32 | eq64 | init | active | recover | l1 | wake | down
deriving DecidableEq, Repr

/-- A sent PAYLOAD flit in the replay buffer (R201). -/
structure TxFlit where
  fseq : BitVec 10
  slots : List (BitVec 128)
  replays : Nat := 0
deriving DecidableEq, Repr

/-- A message field or SHD slot whose data slots are still owed (R189); `slots` holds those received. -/
structure PendField where
  slot : BitVec 128
  field : BitVec 62
  need : Nat
  got : List (BitVec 128) := []
deriving DecidableEq, Repr

/-- The lane and flit layers of one link (R175 to R207). -/
structure Link where
  st : LinkSt := .disabled
  entered : Nat := 0
  rate : BitVec 2 := 0
  width : BitVec 2 := 0
  lpok : Bool := false
  lanes : BitVec 16 := 0
  /-- Consecutive valid training sets received on each lane. -/
  sts : Vector Nat 16 := Vector.replicate 16 0
  sts2 : Vector Nat 16 := Vector.replicate 16 0
  peerRates : Byte := 0
  peerWidths : Byte := 0
  peerLpwr : Bool := false
  peerRole : Option Bool := none
  sdm : Nat := 0
  eq32 : Bool := false
  eq64 : Bool := false
  /-- Receiver: next expected FSEQ, whether any flit was accepted, the NAK outstanding, the parsing state. -/
  rxSeq : BitVec 10 := 0
  rxAny : Bool := false
  nak : Option Nat := none
  owed : List PendField := []
  /-- Transmitter. -/
  txSeq : BitVec 10 := 0
  replay : List TxFlit := []
  ackAt : Nat := 0
  lastAck : BitVec 10 := 0x3FF
  errs : List Nat := []
  /-- Credits granted to and used by the peer, and received from it and used, for REQ, SNP, RSP, DAT, MGQ (R194). -/
  grant : Vector Nat 5 := Vector.replicate 5 0
  peerUsed : Vector Nat 5 := Vector.replicate 5 0
  recv : Vector (BitVec 12) 5 := Vector.replicate 5 0
  used : Vector Nat 5 := Vector.replicate 5 0
  grantWb : Vector Nat 8 := Vector.replicate 8 0
  peerWb : Vector Nat 8 := Vector.replicate 8 0
  credAt : Vector Nat 5 := Vector.replicate 5 0
  /-- The LNK slot last sent (R198), and the low-power handshake (R207): PM as last sent, when the device sent L1_REQ, whether
  an end has left electrical idle while the port's domain was reefed, and when a flit other than NOP last crossed. -/
  lnkSent : Option (BitVec 128) := none
  pm : BitVec 2 := 0
  l1Req : Option Nat := none
  exit : Bool := false
  traffic : Nat := 0
  /-- Lanes received inverted (R176). -/
  pol : BitVec 16 := 0
  /-- The scrambler of each lane and the flits since its last load, sending and receiving (R178). -/
  scr : Vector (BitVec 23) 16 := Vector.replicate 16 0
  skp : Nat := 0
  scrRx : Vector (BitVec 23) 16 := Vector.replicate 16 0
  skpRx : Nat := 0
  /-- The pins: the blocks driven on the lanes at the clock `wireAt`, the first first, each as the bytes of every lane. -/
  wire : List (List (List Byte)) := []
  wireAt : Nat := 0
  /-- Flits sent since the last LNK slot (R198), INIT has brought the peer's credits (R180), and an MGQ slot is sent next (R33). -/
  lnkGap : Nat := 0
  initOk : Bool := false
  mgqTurn : Bool := false
deriving DecidableEq, Repr

/-- A snoop delivered to the agent whose answer has not passed the port (R173). -/
structure SnpRec where
  op : BitVec 5
  ga : Nat
  peer : Agent
  home : Bool
deriving DecidableEq, Repr

/-- MGQ items accepted from an agent (R209), with whether a register access is permitted (R211, R350), or the PERMS entry,
at acceptance (R62). -/
inductive MgqItem where
  | regRd (tag : Byte) (a : Word) (w64 : Bool) (ok : Bool)
  | regWr (tag : Byte) (a : Word) (w64 : Bool) (be : Byte) (d : Dword) (ok : Bool)
  | push (tag : Byte) (q : BitVec 14) (eop poison : Bool) (d : Dword) (perm : Word) (upset : BitVec 67)
  | pop (tag : Byte) (q : BitVec 14) (upset : BitVec 67) (perm : Word)
  /-- A register access that a command gives without its MGQ slot, and that waits for D1 (R344). -/
  | acc (a : Word) (w64 write : Bool) (be : Byte) (d : Dword) (ok : Bool)
deriving DecidableEq, Repr

/-- Answers and notes of the MGQ class toward an agent (R209). -/
inductive MgqAns where
  | regRsp (tag : Byte) (status : BitVec 4) (d : Dword)
  | qWord (tag : Byte) (q : BitVec 14) (eop poison empty underrun : Bool) (status : BitVec 4) (d : Dword)
  | qAck (tag : Byte) (q : BitVec 14) (status : BitVec 4)
  | qNote (q : BitVec 14)
deriving DecidableEq, Repr

/-- One agent port above its link (R158, R173, R190, R211, R330). -/
structure Port where
  iso : Bool := false
  /-- REQs that the port has accepted and the crossbar has not granted, with their credit (R15, R21, R61, R409). -/
  held : List Req := []
  tx : List TxItem := []
  snps : List SnpRec := []
  wbs : List Nat := []
  /-- MGQ items not yet begun, with whether they hold a credit. -/
  mgqIn : List (MgqItem × Bool) := []
  mgqOut : List MgqAns := []
  /-- The queue cycle in which the push at the head of `mgqIn` found its queue full: it is settled with the cycle (R304). -/
  pushWait : Option Nat := none
  recalling : Bool := false
  census : Option (BitVec 40) := none
  lfsr : Word := 1
  errGaddr : BitVec 46 := 0
deriving DecidableEq, Repr

/-! ## Store, backing ports, durability, hallmarks -/

/-- The cache store (R83 to R88, R258, R270 to R272): codewords of 68 bytes by codeword number
(pseudo-channel × 7,864,320 + offset / 68), byte `j` of a codeword in bits `8 * j + 7 : 8 * j`. -/
structure Store where
  cw : SMap (BitVec 544) := []
  /-- Spare rows used: the pseudo-channel with the row that the spare stands for, or with 524,288 where the spare failed its
  read-back (R87, R272). -/
  remap : List (Nat × Nat) := []
  /-- Rows called for sparing that the controller has not replaced yet (R272). -/
  calls : List (Nat × Nat) := []
  /-- Correctable-error counts of rows: (pseudo-channel, row, count), the most recently incremented first. -/
  rowCe : List (Nat × Nat × Nat) := []
  exhausted : Bool := false
  scrub : Vector Nat 32 := Vector.replicate 32 0
  /-- When the period of each pseudo-channel began, moved on by the time its slice has been reefed, and the pseudo-channels
  whose last period ended with their walk complete (R270). -/
  periodAt : Vector Nat 32 := Vector.replicate 32 0
  walked : Word := 0
  capAddr : Nat := 0
  /-- Firmware has not yet put the remap list and the RET bits into the settings store (R87, R88). -/
  unsaved : Bool := false
  /-- Refresh rate factor (R444). -/
  refresh : Nat := 1
deriving DecidableEq, Repr

/-- BKPn_STAT.STATE (R255). -/
inductive BkpSt where
  | down | training | config | ready | failed | unused
deriving DecidableEq, Repr

/-- GPF and shutdown progress of a port (R236, R237). -/
inductive Gpf where
  | idle | phase1 | gotPhase1 | phase2 | done
deriving DecidableEq, Repr

/-- One backing port (R226 to R231, R239). -/
structure Bkp where
  st : BkpSt := .down
  rate : BitVec 2 := 0
  capshort : Bool := false
  mhderr : Bool := false
  capGib : Nat := 0
  /-- Upper end of the backing map on this port, in GiB (R43, R227). -/
  mapGib : Nat := 0
  capMib : Nat := 0
  p2dur : BitVec 16 := 0
  /-- Set Shutdown State dirty has completed (R227, step 7). -/
  dirtySet : Bool := false
  gpf : Gpf := .idle
  cleanWait : Bool := false
  returning : Option Nat := none
  /-- Granules acknowledged since TR, each once (R236). -/
  acked : List Nat := []
  /-- BKPn_WRATE (R255): since when 32 entries have waited to issue; the granules acknowledged since then in the last 100 µs, by
  cycle, the oldest first, and their number; and whether such a window has passed since the register was read. -/
  wndAt : Option Nat := none
  wndAck : List (Nat × Nat) := []
  wndCnt : Nat := 0
  wndSeen : Bool := false
deriving DecidableEq, Repr

/-- Phases of a power failure (R233, DUR_STAT.PHASE). -/
inductive DurPhase where
  | run | recalling | drain | persist | journal | done
deriving DecidableEq, Repr

/-- Losses of a region (R240). -/
structure Loss where
  agent : Nat := 0
  drain : Nat := 0
  persist : Nat := 0
deriving DecidableEq, Repr

/-- The durability unit (R216 to R242). -/
structure Dur where
  /-- A write of DUR_BUDGET takes effect in the next cycle (R221, R352): the value before it, and when it was written. -/
  bPrev : Option (Nat × Nat) := none
  e : Nat := 0
  rv : Nat := 0
  peak : Nat := 0
  past : Bool := false
  cleaning : Bool := false
  bud : Bool := false
  phase : DurPhase := .run
  tr : Option Nat := none
  trSec : Nat := 0
  trNs : Nat := 0
  trFlag : Nat := 0
  eTR : Nat := 0
  rvTR : Nat := 0
  bTR : Nat := 0
  phEnd : List Nat := []
  agUnans : AgentSet := 0
  loss : SMap Loss := []
  sealAbort : Nat := 0
  lateDisc : Nat := 0
  poisoned : Nat := 0
  gpfFail : BitVec 4 := 0
  portFailed : BitVec 4 := 0
  limits : BitVec 3 := 0
  jseq : Nat := 0
  jA : Option BkpId := none
  jB : Option BkpId := none
  pA : BkpId := 0
  pB : BkpId := 0
  nojrnl : Bool := false
  lastLoss : Bool := false
  unrec : Bool := false
  /-- The record last written to the journal areas (R240, R242). -/
  record : List Byte := []
  /-- Journal flushes awaited at start-up or in Journal: (port, since). -/
  flush : List (BkpId × Nat) := []
  doneAt : Option Nat := none
deriving DecidableEq, Repr

/-- A chain head (R241, R252). -/
structure Head where
  hash : BitVec 256 := 0
  seq : Nat := 0
  sec : Nat := 0
  valid : Bool := false
  restart : Bool := false
deriving DecidableEq, Repr

/-- A seal item in a lane (R246, R247): its ranges, how many granules they cover, how many of these are past the
durability step and how many are read; `waiting`: a read pass is on its way; `bad`: a read returned poison. -/
structure SealItem where
  agent : Agent
  hdr : Dword
  ranges : List Dword
  total : Nat
  dn : Nat := 0
  rn : Nat := 0
  got : List Gran := []
  waiting : Bool := false
  sampled : Bool := false
  bad : Bool := false
  sec : Nat := 0
  ns : Nat := 0
  tflag : Nat := 0
  old : Bool := false
deriving DecidableEq, Repr

/-- The hallmark engine (R243 to R253). -/
structure Hlm where
  run : Bool := false
  heads : SMap Head := []
  lanes : Vector (Option SealItem) 8 := Vector.replicate 8 none
  turn : Nat := 0
deriving DecidableEq, Repr

/-- A maintenance operation as the dispatcher follows it (R125, R284 to R288): `upto` ends its line range. -/
structure MntTrack where
  id : Nat
  owner : MntOwner
  slices : List SliceId
  left : List SliceId
  op : Nat := 0
  scope : Nat := 0
  line : Nat := 0
  upto : Nat := 0
  since : Nat := 0
  disc : Nat := 0
  skip : Nat := 0
  abort : Bool := false
deriving DecidableEq, Repr

/-! ## Queues, events, counters -/

/-- A pool word (R291); `par` is the stored parity bit. `perm` is the PERMS entry under which a port accepted the word (R62,
R284); a word that no agent pushed is under none. -/
structure QWord where
  data : Dword
  eop : Bool
  poison : Bool
  par : Bool
  perm : Word := BitVec.allOnes 32
deriving DecidableEq, Repr

/-- The item a queue's producer has open (R302, R303, R305). -/
inductive QOpen where
  | none | held (n : Nat) | dropping
deriving DecidableEq, Repr

/-- The changing part of a queue (R295 to R308, R310). -/
structure Que where
  words : List QWord := []
  head : Nat := 0
  tail : Nat := 0
  opn : QOpen := .none
  opener : Option Agent := none
  resync : Bool := false
  gapPend : Nat := 0
  /-- Part of the head item has been popped. -/
  part : Bool := false
  lastVal : Dword := 0
  popLo : Word := 0
  popHi : Word := 0
  lEop : Bool := false
  lPsn : Bool := false
  underrun : Bool := false
  stale : Bool := false
  trunc : Bool := false
  timer : Option Nat := none
  /-- The stale timer has expired and waits for the next pop (R307). -/
  expired : Bool := false
  noted : Bool := false
  /-- The queue cycles of the last push, of the last word landed, of the last pop and of the last flush; the agent that made the
  last push; and the head that a pop in the flush's cycle returns (R304, R305). -/
  pushAt : Option Nat := none
  landAt : Option Nat := none
  popAt : Option Nat := none
  flushAt : Option Nat := none
  pusher : Option Agent := none
  flushHead : Option QWord := none
deriving DecidableEq, Repr

/-- The event engine (R315 to R321). -/
structure Evt where
  latch : BitVec 1024 := 0
  pend : BitVec 1024 := 0
  list : List (Nat × Dword) := []
  tick : BitVec 64 := 0
  goUntil : Bool := false
  fatalSeen : Bool := false
deriving DecidableEq, Repr

/-- The counters (R322 to R329); `edge` holds their values at the latest tick edge, which
came at `edgeAt`. -/
structure Pmc where
  cnt : SMap Nat := []
  edge : SMap Nat := []
  edgeAt : Option Nat := none
  shadow : SMap Nat := []
  ovf : BitVec 512 := 0
  chain : BitVec 256 := 0
  chainNew : BitVec 256 := 0
  snap : Bool := false
  clr : Bool := false
  seq : BitVec 16 := 0
  snapTick : BitVec 64 := 0
  snapSec : Nat := 0
  snapNs : Nat := 0
  snapChain : BitVec 256 := 0
  lastSnap : BitVec 64 := 0
  rloss : Bool := false
deriving DecidableEq, Repr

/-! ## Register access -/

/-- A posted far write (R341). -/
structure Posted where
  a : Word
  width : AccWidth
  be : Byte
  d : Dword
  start : Nat
deriving DecidableEq, Repr

/-- One requester's bank of REG_STAT and REG_ERRADDR (R345) with its posted writes and an open far read. -/
structure Bank where
  accErr : Bool := false
  reefed : Bool := false
  pwait : Bool := false
  cause : BitVec 3 := 0
  errAddr : Word := 0
  posted : List Posted := []
  /-- What the requester's latest read returned (the model's own record, assumption 35). -/
  read : Dword := 0
deriving DecidableEq, Repr

/-- A mailbox (R346 to R349, R353). -/
structure Mbx where
  sel : Word := 0
  owner : Requester := 0
  valid : Bool := false
  pend : Bool := false
  early : Bool := false
  err : BitVec 2 := 0
  start : Nat := 0
  /-- When the last fill completed (R349). -/
  doneAt : Option Nat := none
  data : Vector Word 12 := Vector.replicate 12 0
deriving DecidableEq, Repr

/-! ## The rig -/

/-- A QUEUES record (R46). -/
structure QRec where
  first : Nat
  num : Nat
  owner : Nat
  policy : Bool
  depth : Nat
deriving DecidableEq, Repr

/-- A loaded rig (R35 to R51), migrated to the native layout (R54); words stand as the sections hold them. -/
structure Rig where
  slot : Bool := false
  fmt : BitVec 16 := 3
  seq : Nat := 0
  active : Byte := 0
  repl : Byte := 0
  ilv : List Byte := []
  ports : List Word := []
  ways : Nat := 4
  back : List Word := []
  fpm : Bool := false
  hold : Nat := 0
  budgetAct : Bool := false
  table : List (BitVec 128) := []
  tstates : Nat := 0
  queues : List QRec := []
  power : List Word := []
  paired : Bool := false
  member : Bool := false
  shroudSpd : BitVec 2 := 0
  pairId : Word := 0
  regions : List Region := []
  events : List Word := []
  perms : List Word := []
  /-- (TYPE, SVER, BODY_LEN, CRC) of each section as stored. -/
  secs : List (Nat × Nat × Nat × Nat) := []
deriving DecidableEq, Repr

/-- A runtime reload in progress (R61 to R65): the staged rig, its start, the granule ranges held and those to be
cleaned, whether step 6 is done and since when. -/
structure Reload where
  rig : Rig
  start : Nat
  hold : List (Nat × Nat)
  clean : List (Nat × Nat)
  ready : Bool := false
  readyAt : Nat := 0
  /-- A failover or the fencing of a slice has begun (R63). -/
  cut : Bool := false
deriving DecidableEq, Repr

/-- The region table before the last switch cycle, while transactions accepted before it are open (R62, R81): the table, the
windows that the switch cleared with their codewords as these transactions see them, and the regions that INIT demotes. -/
structure OldRegions where
  regions : List Region
  diff : List Nat
  touch : SMap (BitVec 544) := []
  dem : BitVec 64 := 0
deriving DecidableEq, Repr

/-! ## Power, pins, time -/

/-- A domain: reefed, coming up since a cycle, up, going down since a cycle. -/
inductive DomSt where
  | reefed
  | waking (since : Nat)
  | up
  | reefing (since : Nat) (wake : Bool)
deriving DecidableEq, Repr

/-- Where start-up is (R417, R419); `stopped`: by a power failure before RDY (R238). -/
inductive Boot where
  | off | starting | flushing | rdy | rigless | halted | stopped
deriving DecidableEq, Repr

/-- The power manager and the pins it drives or samples (R406 to R422, R427). -/
structure Pwr where
  dom : Vector DomSt 30 := (Vector.replicate 30 .reefed).set 0 .up
  idle : Vector (Option Nat) 30 := Vector.replicate 30 none
  boot : Boot := .off
  pg : Option Nat := none
  strap : List (Bool × Bool × Bool) := []
  mgtMode : Bool := false
  chainHead : Bool := false
  scanEn : Bool := false
  disagree : Bool := false
  cause : BitVec 3 := 0
  flushed : Bool := false
  step : BitVec 4 := 0
  bootUs : Nat := 0
  wdtAt : Nat := 0
  d1At : Nat := 0
  warm : Option (Nat × BitVec 3) := none
  /-- The domain that PWR_DOM_CTL.GO last acted on (R422). -/
  ctl : Option Nat := none
  /-- Waking domains that are up but for the domain that they need (R409). -/
  woken : BitVec 30 := 0
  /-- When a wake source last came to a domain that was up (R410). -/
  wokeAt : Vector (Option Nat) 30 := Vector.replicate 30 none
  xfail : Bool := false
  refbad : BitVec 4 := 0
  pllBad : BitVec 30 := 0
  pwrgd : Bool := false
  pfd : Bool := false
  thermtrip : Bool := false
deriving DecidableEq, Repr

/-- The IEEE 1588 time counter in D0 and the state of its lock (R361, R362). -/
structure Ptp where
  baseNs : Nat := 0
  baseAt : Nat := 0
  locked : Bool := false
  ever : Bool := false
  good : Nat := 0
  lastSync : Nat := 0
  ival : Nat := 0
  ofs : Word := 0
  /-- Corrections made before the first lock, not yet in the time (assumption 19). -/
  adj : Int := 0
deriving DecidableEq, Repr

/-! ## Pair, census, faults -/

/-- Pair states (R382, SHD_STAT.STATE). -/
inductive PairSt where
  | unpaired | wait | paired | detached | taken | yielded | join | mismatch
deriving DecidableEq, Repr

/-- A shadow entry (R386); `born` orders the first SWR of each. -/
structure Shadow where
  ga : Nat := 0
  be : ByteEn := 0
  data : Gran := 0
  poison : Bool := false
  seq : BitVec 6 := 0
  born : Nat := 0
  valid : Bool := false
deriving DecidableEq, Repr

/-- A completed or failed witness read (R384). -/
structure WitRead where
  ok : Bool
  wcnt : Dword
  pstate : Byte
  pairId : Word
deriving DecidableEq, Repr

/-- An open census (R395, R396). -/
structure Census where
  num : Nat
  kind : Bool
  desc : BitVec 40
  start : Nat
  left : AgentSet
  /-- The buckets of the share (R395). -/
  buckets : List Nat
deriving DecidableEq, Repr

/-- An item toward the partner on the shroud link (R380). -/
inductive ShdItem where
  | hello (member : Bool) (pstate : BitVec 3) (pairId sum : Word)
  | hb (hbseq : Byte) (pstate : BitVec 3) (pfail msync : Bool) (budget : Word)
  | rld (seq : Word)
  | mwr (ga : BitVec 36) (poison : Bool) (d : Gran)
  | mclr (ga : BitVec 36)
  | swr (ga : BitVec 36) (poison : Bool) (src : SliceId) (entry seq : BitVec 6) (be : ByteEn) (d : Gran)
  | sclr (src : SliceId) (entry : BitVec 6)
  | mrd (ga : BitVec 36) (tag : Byte)
  | mdat (ga : BitVec 36) (poison hit : Bool) (tag : Byte) (d : Gran)
  | mfull (ga : BitVec 36)
  | dxf (e : Dword)
  | dxfEnd (n : Word)
deriving DecidableEq, Repr

/-- A handover or handback (R394): whether this device gives, its directory entries, those received. -/
structure Hand where
  giver : Bool
  back : Bool
  sent : List (SliceId × DirEnt) := []
  installed : List (SliceId × Nat) := []
  count : Nat := 0
  ended : Bool := false
deriving DecidableEq, Repr

/-- The shroud unit and the pair (R379 to R394). -/
structure Pair where
  st : PairSt := .unpaired
  waitAt : Nat := 0
  miss : Nat := 0
  hbAt : Nat := 0
  hbSeq : Byte := 0
  hbSent : Nat := 0
  pst : BitVec 3 := 0
  pMsync : Bool := false
  pFail : Bool := false
  pBudget : Word := 0
  /-- RIG_SEQ of the readiness that the partner last reported and no switch has used (R65). -/
  rld : Option Word := none
  rldAt : Nat := 0
  msync : Bool := false
  pfailRx : Bool := false
  wit : Bool := false
  wcnt : Dword := 0
  witAt : Nat := 0
  witSent : Option Nat := none
  /-- The write of the witness granule last issued: its port, its address and the granule (R383). -/
  witLast : Option (BkpId × Nat × Gran) := none
  /-- Witness reads issued and not completed (R384). -/
  witOpen : Nat := 0
  /-- A witness decision is due once the open read has completed (R384). -/
  deciding : Bool := false
  reads : List WitRead := []
  detSame : Nat := 0
  detLast : Option WitRead := none
  entries : Nat := 0
  shadow : SMap Shadow := []
  census : Option Census := none
  cnum : Nat := 0
  /-- A takeover before its Resume: instant H, whether its census is still to open, whether it has closed. -/
  failover : Option Nat := none
  foNeed : Bool := false
  foDone : Bool := false
  mirrorUse : Bool := false
  mirrorIgn : Bool := false
  drainNext : Nat := 0
  /-- Mirror drain writes not yet acknowledged, with whether the entry is as issued (R392). -/
  drainOut : List (Nat × Bool) := []
  shadowOut : List Nat := []
  reads3 : List (Byte × Nat × SliceId × Nat) := []
  out : List ShdItem := []
  hand : Option Hand := none
  /-- A power failure fell before the failover's Resume (R399). -/
  foLate : Bool := false
  foUs : Nat := 0
  foKind : Bool := false
  takenOver : Bool := false
deriving DecidableEq, Repr

/-- Slices out of service, faulted and their procedures (R397 to R400). -/
structure Service where
  out : Byte := 0
  fault : Byte := 0
  /-- Faulty slices whose census has not begun. -/
  need : Byte := 0
  /-- The buckets fenced by each slice fault. -/
  share : Vector (List Nat) 8 := Vector.replicate 8 []
  /-- Faulty slices whose census has closed, and those whose share has resumed. -/
  cnsDone : Byte := 0
  resumed : Byte := 0
  salv : Byte := 0
  faultAt : Nat := 0
  proc : Option (Bool × SliceId) := none
  passed : Byte := 0
  assay : Option SliceId := none
  assayPass : Bool := false
  assayFail : Bool := false
  struct : BitVec 3 := 0
  arts : Option Agent := none
  /-- Buckets of slice faults that resumed because of a power failure (R399). -/
  late : List Nat := []
deriving DecidableEq, Repr

/-- Fuses (R39, R240, R355, R368, R403). -/
structure Fuses where
  devSer : BitVec 64 := 0
  mac : BitVec 48 := 0
  keyHash : Vector (BitVec 384) 4 := Vector.replicate 4 0
  revoked : BitVec 4 := 0
  arb : Nat := 0
  maker : BitVec 11 := 0
deriving DecidableEq, Repr

/-- A capture that met VALID 1 (R351): what the register would hold, its VALID bit, its MORE bit if there is one, the wide part that
goes with it, whether MORE was 1 before, bits of the register that the capture leaves, and whether another capture came after it in
the cycle. -/
structure LateCap where
  v : Word
  vb : Nat
  mb : Option Nat := none
  wide : Nat := 0
  was : Bool := false
  keep : Word := 0
  again : Bool := false
deriving DecidableEq, Repr

/-- What the hardware has done to registers in the slice cycle `at_`, for a software access of the same cycle (R351, R352): the W1C
bits it set and the stale bits that a completed invalidation cleared, by register address; the values before the cycle and the
increments of counter fields and peaks, by 32 × address + lowest bit; captures that met VALID 1; and of the counters the values,
overflow bits and latch of event 100 before the cycle, the additions, and the counters loaded. -/
structure Cyc where
  at_ : Nat := 0
  set : SMap Word := []
  gone : SMap Word := []
  was : SMap (Option Nat) := []
  inc : SMap Nat := []
  late : SMap (Option LateCap) := []
  base : Option (SMap Nat × BitVec 512 × Bool) := none
  adds : SMap Nat := []
  loads : List Nat := []
deriving DecidableEq, Repr

/-- Everything but the management cluster, the TAP and the queue of commands. `now` counts slice cycles of
0.625 ns (assumption 1), `seq` numbers what the model creates, `free` counts the free values drawn. -/
structure Data where
  fuses : Fuses := {}
  now : Nat := 0
  cyc : Cyc := {}
  seq : Nat := 0
  free : Nat := 0
  regs : SMap Word := []
  banks : Vector Bank 17 := Vector.replicate 17 {}
  mbx : Vector Mbx 8 := Vector.replicate 8 {}
  links : Vector Link 17 := Vector.replicate 17 {}
  ports : Vector Port 16 := Vector.replicate 16 {}
  ilv : Vector Byte 256 := Vector.replicate 256 0
  slices : Vector Slice 8 := Vector.replicate 8 {}
  store : Store := {}
  bkps : Vector Bkp 4 := Vector.replicate 4 {}
  dur : Dur := {}
  hlm : Hlm := {}
  mnts : List MntTrack := []
  mntTurn : Nat := 0
  que : SMap Que := []
  queOnce : List Nat := []
  evt : Evt := {}
  pmc : Pmc := {}
  rig : Option Rig := none
  reload : Option Reload := none
  prev : Option OldRegions := none
  rigFallback : Bool := false
  rigErr : Nat := 0
  rigErrSec : Nat := 0
  rigBusyGo : Bool := false
  /-- Region bypass and stale maps (R121, R124, R126). -/
  byp : BitVec 64 := 0
  bypAt : SMap Nat := []
  bypStale : BitVec 64 := 0
  touchDem : BitVec 64 := 0
  pwr : Pwr := {}
  ptp : Ptp := {}
  pair : Pair := {}
  svc : Service := {}
deriving DecidableEq, Repr

/-! ## Management cluster -/

/-- A TMP request that waits for its answer: where it came from, its key slot, UNIT, TYPE and SEQ. -/
structure TmpReq where
  src : TmpSrc
  key : Fin 4
  unit : Byte
  ty : Byte
  seq : Nat
deriving DecidableEq, Repr

/-- SEQ numbers and stored responses of a key slot (R358). -/
structure TmpSlot where
  high : Nat := 0
  seen : List Nat := []
  resp : List (Nat × List Byte) := []
  txSeq : Nat := 0
deriving DecidableEq, Repr

/-- A subscription to events or to a queue (R359). -/
structure EvtSub where
  src : TmpSrc
  key : Fin 4
  since : Nat
deriving DecidableEq, Repr

/-- A relayed TMP message (R366). -/
structure Relay where
  idx : Nat
  req : TmpReq
  start : Nat
deriving DecidableEq, Repr

/-- One halyard chain port (R363, R406): up, credits toward the neighbour, frames that wait to be sent, and received frames
held in its buffers in D0. -/
structure ChainPort where
  up : Bool := false
  credits : Nat := 0
  out : List (List Byte) := []
  held : List (List Byte) := []
deriving DecidableEq, Repr

/-- Who holds the crucible lock (R375). -/
inductive LockBy where
  | free
  | host (src : TmpSrc)
  | chain (down : Bool)
deriving DecidableEq, Repr

/-- An activation record (R369). -/
structure ActRec where
  seq : Nat := 0
  cru : Nat := 0
  copy : Nat := 0
  blk : Nat := 0
  cruVer : Word := 0
  actVer : Word := 0
  bakVer : Word := 0
  trial : Bool := false
  starts : Nat := 0
  trialSec : Nat := 0
  golden : Bool := false
  rolled : Bool := false
deriving DecidableEq, Repr

/-- The management cluster, its ports and the flash (R354 to R378). `flash` lists the bytes that are not 0xFF. -/
structure Mgmt where
  flash : List Host.Cell := []
  /-- Blocks of the flash, of 64 KiB, whose erase, program or read-back fails (R372, R377): a fault of the part, which no command
  sets (assumption 79); and whether a failure has yet to raise its event. -/
  flashBad : List Nat := []
  flashErr : Bool := false
  up : Bool := false
  golden : Bool := false
  /-- FW_VER and SET_VER of the running image (R368). -/
  runVer : Word := 0
  setVer : Nat := 0
  bootId : Word := 0
  startAt : Nat := 0
  /-- When the last TMP message or chain frame came (R407). -/
  msgAt : Nat := 0
  imgArb : Nat := 0
  act : ActRec := {}
  lock : LockBy := .free
  lockAt : Nat := 0
  total : Nat := 0
  erased : Nat := 0
  /-- Chunks waiting for their block (R370): offset, bytes, and the request to answer. -/
  chunks : List (Nat × List Byte × Option TmpReq) := []
  startReq : Option TmpReq := none
  slots : Vector TmpSlot 4 := Vector.replicate 4 {}
  /-- Datagrams and chain frames that the latest command has sent (assumption 32). -/
  out : List (TmpSrc × List Byte) := []
  qsubs : SMap (Option EvtSub) := []
  esubs : List (Option EvtSub) := []
  relays : List Relay := []
  logPos : Nat := 0
  logLen : Nat := 0
  ethUp : Bool := false
  chUp : ChainPort := {}
  chDn : ChainPort := {}
  addr : Option (BitVec 6) := none
  lastAddr : BitVec 6 := 0
  overlong : Bool := false
  /-- An image being pulled from a neighbour (R371): whether that is the downstream one, next offset, total, digest, tries, when
  asked; and the neighbour that the image in the crucible came from. -/
  img : Option (Bool × Nat × Nat × BitVec 384 × Nat × Nat) := none
  imgFrom : Option Bool := none
  /-- A verification at a start has left an image to offer (R371, R376). -/
  offerDue : Bool := false
  setSlot : Option Bool := none
  setMigrated : Bool := false
  trialAt : Nat := 0
deriving DecidableEq, Repr

/-! ## Test access port -/

/-- The states of the IEEE 1149.1 controller (R403). -/
inductive TapSt where
  | reset | idle | selDr | capDr | shDr | ex1Dr | paDr | ex2Dr | upDr
  | selIr | capIr | shIr | ex1Ir | paIr | ex2Ir | upIr
deriving DecidableEq, Repr

/-- The TAP controller (R403, R442). -/
structure Tap where
  st : TapSt := .reset
  ir : Byte := 1
  irSh : Byte := 0
  drSh : Word := 0
  bypass : Bool := false
  tdo : Option Bool := none
  tms : Bool := true
  tdi : Bool := true
  tck : Bool := false
deriving DecidableEq, Repr

/-- The device and its management cluster together: what commands that concern both work on. -/
structure DM where
  d : Data := {}
  m : Mgmt := {}
deriving DecidableEq, Repr

/-- The whole machine. -/
structure State where
  /-- The commands that are waiting, first in, first out. -/
  pending : List Instr := []
  d : Data := {}
  m : Mgmt := {}
  tap : Tap := {}
deriving DecidableEq, Repr

/-- The machine after a cold reset, before power good (R414, R417): every domain but D0 down, every register at its
reset value, every table and queue empty. Values the spec does not state are named in the assumption log (14). -/
def State.reset : State := {}

end Sys2Proof.Machine
end

