-- ==== Sys2Proof/Machine/Bits.lean ====
section
/-!
DEFINITION. Sparse maps, bit fields, byte strings and units of time: the small operations every other file uses.
-/

namespace Sys2Proof.Machine

/-! ## Sparse maps in canonical form -/

/-- What key `k` reads as; `d` is what an unlisted key reads as. -/
def SMap.get {β : Type} (d : β) : SMap β → Nat → β
  | [], _ => d
  | (k', v) :: m, k => if k' = k then v else SMap.get d m k

/-- Removes key `k`. -/
def SMap.del {β : Type} : SMap β → Nat → SMap β
  | [], _ => []
  | (k', v) :: m, k => if k' = k then SMap.del m k else (k', v) :: SMap.del m k

/-- Lists `v` at key `k`, in order. -/
def SMap.ins {β : Type} : SMap β → Nat → β → SMap β
  | [], k, v => [(k, v)]
  | (k', v') :: m, k, v =>
    if k < k' then (k, v) :: (k', v') :: m
    else if k = k' then (k, v) :: m
    else (k', v') :: SMap.ins m k v

/-- Writes `v` at key `k`, keeping the canonical form: the default value is not listed. -/
def SMap.set {β : Type} [DecidableEq β] (d : β) (m : SMap β) (k : Nat) (v : β) : SMap β :=
  if v = d then SMap.del m k else SMap.ins m k v

/-- Applies `f` to what key `k` reads as. -/
def SMap.upd {β : Type} [DecidableEq β] (d : β) (m : SMap β) (k : Nat) (f : β → β) : SMap β :=
  SMap.set d m k (f (SMap.get d m k))

/-- The canonical form: keys strictly rising and no entry with the default value. -/
abbrev SMap.wf {β : Type} (d : β) (m : SMap β) : Prop :=
  m.Pairwise (fun a b => a.1 < b.1) ∧ ∀ a ∈ m, a.2 ≠ d

/-! ## Vectors and lists -/

/-- Applies `f` to element `i`. -/
def vmod {α : Type} {n : Nat} (v : Vector α n) (i : Fin n) (f : α → α) : Vector α n :=
  v.set i (f v[i])

/-- Applies `f` to every element of a list that satisfies `p`. -/
def lmod {α : Type} (p : α → Bool) (f : α → α) (l : List α) : List α :=
  l.map fun x => if p x then f x else x

/-- Applies `f` to element number `i`. -/
def lmodAt {α : Type} (l : List α) (i : Nat) (f : α → α) : List α := l.modify i f

/-- All slices, ports, backing ports, domains. -/
def allSlices : List SliceId := List.finRange 8
def allAgents : List Agent := List.finRange 16
def allBkps : List BkpId := List.finRange 4
def allDoms : List (Fin 30) := List.finRange 30

/-- The smallest element by a key. -/
def minBy {α : Type} (key : α → Nat) : List α → Option α
  | [] => none
  | x :: xs =>
    match minBy key xs with
    | none => some x
    | some y => if key y < key x then some y else some x

/-- Inserts into a rising list of numbers without repeats. -/
def insNat (k : Nat) : List Nat → List Nat
  | [] => [k]
  | x :: xs => if k < x then k :: x :: xs else if k = x then x :: xs else x :: insNat k xs

/-- The lowest number below `n` that is not in `l`. -/
def freeIdx (n : Nat) (l : List Nat) : Option Nat := (List.range n).find? fun i => !l.contains i

/-! ## Bits -/

/-- Bits `lo` to `lo + n - 1` of a number. -/
def bits (x lo n : Nat) : Nat := (x >>> lo) % 2 ^ n

/-- Bit `i` of a number. -/
def nbit (x i : Nat) : Bool := (x >>> i) % 2 = 1

/-- Writes bit `i`. -/
def setBit {w : Nat} (x : BitVec w) (i : Nat) (b : Bool) : BitVec w :=
  if b then x ||| BitVec.twoPow w i else x &&& ~~~(BitVec.twoPow w i)

/-- The bit of agent `a`. -/
def abit (a : Agent) : AgentSet := BitVec.twoPow 16 a.val

/-- The number of bits set. -/
def popcount {w : Nat} (x : BitVec w) : Nat := ((List.range w).filter fun i => x.getLsbD i).length

/-- The members of an agent set. -/
def agents (x : AgentSet) : List Agent := allAgents.filter fun a => x.getLsbD a.val

def b2n (b : Bool) : Nat := if b then 1 else 0

/-- A field placed at bit `lo` of a register or queue word. -/
def at_ (v lo : Nat) : Nat := v <<< lo

/-- Saturating addition of counter fields (stops at `top`). -/
def satAdd (top x n : Nat) : Nat := if x + n > top then top else x + n

/-! ## Byte strings (R8) -/

/-- The `n` low bytes of a number, least significant first. -/
def leBytes : Nat → Nat → List Byte
  | 0, _ => []
  | n + 1, x => BitVec.ofNat 8 x :: leBytes n (x / 256)

/-- The number that little-endian bytes spell. -/
def leNat : List Byte → Nat
  | [] => 0
  | b :: bs => b.toNat + 256 * leNat bs

/-- The number that big-endian bytes spell. -/
def beNat (l : List Byte) : Nat := l.foldl (fun a b => a * 256 + b.toNat) 0

/-- `n` bytes from offset `o`; bytes past the end read as 0. -/
def sub (l : List Byte) (o n : Nat) : List Byte :=
  let s := (l.drop o).take n
  s ++ List.replicate (n - s.length) 0

/-- The little-endian number of `n` bytes at offset `o`. -/
def leAt (l : List Byte) (o n : Nat) : Nat := leNat (sub l o n)

/-- The bytes of a granule (R68). -/
def granBytes (g : Gran) : List Byte := (List.range 64).map fun i => g.extractLsb' (8 * i) 8
/-- The granule that 64 bytes make. -/
def granOf (l : List Byte) : Gran := BitVec.ofNat 512 (leNat (l.take 64))

/-- The bit mask of the bytes that byte enables name. -/
def beMask (be : ByteEn) : Gran :=
  (List.range 64).foldl (fun m i => if be.getLsbD i then m ||| ((0xFF : Gran) <<< (8 * i)) else m) 0

/-- Overwrites the enabled bytes of `old` with those of `new` (R106, R266). -/
def mergeBytes (old new : Gran) (be : ByteEn) : Gran :=
  let m := beMask be
  (old &&& ~~~m) ||| (new &&& m)

def beAll : ByteEn := BitVec.allOnes 64

/-! ## Time (R5) -/

/-- Slice cycles in a microsecond and a millisecond. -/
def us (n : Nat) : Nat := n * 1600
def ms (n : Nat) : Nat := n * 1600000

/-- A field of which 0 acts as 1. -/
def act1 (n : Nat) : Nat := if n = 0 then 1 else n

/-! ## Addresses (R16, R17, R70, R134, R135): `ga` is a granule address a[41:6], a line address is a[41:11] -/

def lineOf (ga : Nat) : Nat := ga / 32
def secOf (ga : Nat) : Nat := ga / 2
/-- Sector within line. -/
def secIn (ga : Nat) : Nat := ga / 2 % 16
/-- Granule within line. -/
def granIn (ga : Nat) : Nat := ga % 32
/-- SET of a line (R70): a[28:14]. -/
def setOf (line : Nat) : Nat := line / 8 % 32768
/-- TAG of a line (R70): a[41:29] above a[13:11]. -/
def tagOf (line : Nat) : BitVec 16 := BitVec.ofNat 16 (line / 262144 * 8 + line % 8)
/-- The line that a tag and a set name (R70). -/
def lineAt (tag : BitVec 16) (set : Nat) : Nat := tag.toNat / 8 * 262144 + set * 8 + tag.toNat % 8

/-- The hash bucket of a line (R17). -/
def bucketOf (line : Nat) : Nat :=
  (bits line 0 8 ^^^ bits line 8 8 ^^^ bits line 16 8 ^^^ bits line 24 7)

/-- On-die directory set of a granule (R134). -/
def dsetOf (ga : Nat) : Nat := ga % 16384
/-- Backstop set of a granule (R135). -/
def bsetOf (ga : Nat) : Nat := bits ga 0 21 ^^^ bits ga 21 15

end Sys2Proof.Machine
end

