-- ==== Sys2Proof/Machine/Codes.lean ====
section
/-!
DEFINITION. The check codes: CRC-32 (R38), CRC-64 (R184), the flit FEC (R185), the light code (R258 to R260) and
the frame parity (R261, R263), over GF(2^8) with x^8 + x^4 + x^3 + x^2 + 1.
-/

namespace Sys2Proof.Machine

/-! ## Cyclic redundancy checks -/

/-- One bit of a reflected CRC register. -/
def crcStep {w : Nat} (poly : BitVec w) : Nat → BitVec w → BitVec w
  | 0, r => r
  | n + 1, r => crcStep poly n (if r.getLsbD 0 then (r >>> 1) ^^^ poly else r >>> 1)

/-- CRC-32 of R38: 0x04C1_1DB7 reflected. -/
def crc32 (l : List Byte) : Word :=
  ~~~(l.foldl (fun r b => crcStep (0xEDB88320 : Word) 8 (r ^^^ b.zeroExtend 32)) 0xFFFFFFFF)

/-- CRC-64 of R184: 0x42F0_E1EB_A9EA_3693 reflected. -/
def crc64 (l : List Byte) : Dword :=
  ~~~(l.foldl (fun r b => crcStep (0xC96C5795D7870F42 : Dword) 8 (r ^^^ b.zeroExtend 64)) 0xFFFFFFFFFFFFFFFF)

/-! ## GF(2^8) -/

/-- Multiplication by α = 0x02. -/
def gx (a : Byte) : Byte := if a.getLsbD 7 then (a <<< 1) ^^^ 0x1D else a <<< 1

/-- Product: `n` further bits of `b`, from bit 0 up. -/
def gmulAux : Nat → Byte → Byte → Byte → Byte
  | 0, _, _, acc => acc
  | n + 1, a, b, acc => gmulAux n (gx a) (b >>> 1) (if b.getLsbD 0 then acc ^^^ a else acc)

def gmul (a b : Byte) : Byte := gmulAux 8 a b 0

/-- α to a power. -/
def gpow : Nat → Byte
  | 0 => 1
  | n + 1 => gx (gpow n)

/-- The inverse, as the 254th power. -/
def ginv (a : Byte) : Byte :=
  let a2 := gmul a a
  let a4 := gmul a2 a2
  let a8 := gmul a4 a4
  let a16 := gmul a8 a8
  let a32 := gmul a16 a16
  let a64 := gmul a32 a32
  let a128 := gmul a64 a64
  gmul a128 (gmul a64 (gmul a32 (gmul a16 (gmul a8 (gmul a4 a2)))))

/-- The value of a polynomial at `x`, coefficients from the highest degree down. -/
def geval (x : Byte) (l : List Byte) : Byte := l.foldl (fun a b => gmul a x ^^^ b) 0

/-- The remainder of d(x) · x^2 by (x + 1)(x + α): the two check bytes (R185). -/
def rs2 (l : List Byte) : Byte × Byte :=
  l.foldl (fun (r : Byte × Byte) b =>
    let f := b ^^^ r.1
    (r.2 ^^^ gmul f 0x03, gmul f 0x02)) (0, 0)

/-- The remainder of d(x) · x^4 by the light code's generator (R258). -/
def rs4 (l : List Byte) : List Byte :=
  let r := l.foldl (fun (r : Byte × Byte × Byte × Byte) b =>
    let f := b ^^^ r.1
    (r.2.1 ^^^ gmul f 0x0F, r.2.2.1 ^^^ gmul f 0x36, r.2.2.2 ^^^ gmul f 0x78, gmul f 0x40)) (0, 0, 0, 0)
  [r.1, r.2.1, r.2.2.1, r.2.2.2]

/-! ## Flit FEC (R185) -/

/-- The bytes of interleave `k` of the 250 bytes before the check bytes. -/
def ileave (l : List Byte) (k : Nat) : List Byte :=
  (List.range 84).filterMap fun i => if 3 * i + k < 250 then l[3 * i + k]? else none

/-- The six check bytes of a flit's first 250 bytes. -/
def fecCheck (l : List Byte) : List Byte :=
  (List.range 3).flatMap fun k => let r := rs2 (ileave l k); [r.1, r.2]

/-- Decodes one interleave, check bytes included: the corrected codeword and whether a correction was made, or
nothing where it is uncorrectable. -/
def fecDecode (c : List Byte) : Option (List Byte × Bool) :=
  let s0 := geval 1 c
  let s1 := geval 2 c
  if s0 = 0 ∧ s1 = 0 then some (c, false)
  else if s0 = 0 ∨ s1 = 0 then none
  else
    match (List.range c.length).find? fun j => gmul s0 (gpow j) = s1 with
    | some j => some (c.modify (c.length - 1 - j) (· ^^^ s0), true)
    | none => none

/-- Interleave `k` of a received flit, decoded. -/
def flitPart (l : List Byte) (k : Nat) : Option (List Byte × Bool) := fecDecode (ileave l k ++ sub l (250 + 2 * k) 2)

/-- A flit of 256 bytes as received: its first 250 bytes corrected, or nothing where it is a bad flit (R185): an uncorrectable
interleave or a wrong CRC after correction. -/
def flitDecode (l : List Byte) : Option (List Byte) :=
  match flitPart l 0, flitPart l 1, flitPart l 2 with
  | some (a, _), some (b, _), some (c, _) =>
    let out := (List.range 250).map fun i =>
      (if i % 3 = 0 then a else if i % 3 = 1 then b else c).getD (i / 3) 0
    if leNat (sub out 242 8) = (crc64 (out.take 242)).toNat then some out else none
  | _, _, _ => none

/-- Corrections made in a flit, good or bad (R185). -/
def flitFixes (l : List Byte) : Nat :=
  ((List.range 3).map fun k => match flitPart l k with | some (_, c) => b2n c | none => 0).sum

/-- A flit from its 242 header and slot bytes (R182): CRC, then FEC. -/
def flitEncode (l : List Byte) : List Byte :=
  let b := l ++ leBytes 8 (crc64 l).toNat
  b ++ fecCheck b

/-! ## Light code (R256 to R260) -/

/-- What a codeword reads as (R259). -/
inductive CwRead where
  | good (d : Gran)
  | poison (d : Gran)
  | fixed (d : Gran) (byte : Nat)
  | bad (d : Gran)
deriving DecidableEq, Repr

/-- The payload of a codeword. -/
def cwData (c : BitVec 544) : Gran := c.truncate 512

/-- The bytes of a codeword; byte `j` is the coefficient of degree 67 − j (R256). -/
def cwBytes (c : BitVec 544) : List Byte := (List.range 68).map fun i => c.extractLsb' (8 * i) 8

/-- The codeword of a granule (R258), with the poison mask of R260 where it is poisoned. -/
def cwMake (d : Gran) (poison : Bool) : BitVec 544 :=
  let r := (rs4 (granBytes d)).map fun b => if poison then b ^^^ 0xFF else b
  (BitVec.ofNat 32 (leNat r)) ++ d

/-- Decodes a codeword by the first matching row of R259. -/
def cwDecode (c : BitVec 544) : CwRead :=
  let l := cwBytes c
  let s0 := geval 1 l
  let s1 := geval 2 l
  let s2 := geval 4 l
  let s3 := geval 8 l
  if s0 = 0 ∧ s1 = 0 ∧ s2 = 0 ∧ s3 = 0 then .good (cwData c)
  else if s0 = 0 ∧ s1 = 0x6C ∧ s2 = 0x5E ∧ s3 = 0xF0 then .poison (cwData c)
  else if s0 = 0 then .bad (cwData c)
  else
    match (List.range 68).find? fun d =>
        let a := gpow d
        gmul s0 a = s1 ∧ gmul s1 a = s2 ∧ gmul s2 a = s3 with
    | some d => .fixed (cwData (c ^^^ ((s0.zeroExtend 544) <<< (8 * (67 - d))))) (67 - d)
    | none => .bad (cwData c)

/-! ## Frame parity (R261) -/

/-- Multiplies each byte of a granule by a constant. -/
def gscale (k : Byte) (g : Gran) : Gran := granOf ((granBytes g).map (gmul k))

/-- P32 and P33 of the 32 data granules, absent sectors taken as zero. -/
def parity (ds : List Gran) : Gran × Gran :=
  let t0 := ds.foldl (· ^^^ ·) 0
  let t1 := (ds.mapIdx fun g d => gscale (gpow (33 - g)) d).foldl (· ^^^ ·) 0
  let p32 := gscale (ginv 0x03) (t0 ^^^ t1)
  (p32, t0 ^^^ p32)

/-- The contribution of granule `g` with data `d` to P32 and P33 (R262). -/
def parityAdd (g : Nat) (d : Gran) : Gran × Gran :=
  let p32 := gscale (ginv 0x03) (d ^^^ gscale (gpow (33 - g)) d)
  (p32, d ^^^ p32)

/-- Solves for at most two erased symbols of each RS(34,32) codeword of a frame (R263, row 1): `cs` holds the 34
granules with the erased ones zero, `er` their numbers. -/
def paritySolve (cs : List Gran) (er : List Nat) : List (Nat × Gran) :=
  let s0 := cs.foldl (· ^^^ ·) 0
  let s1 := (cs.mapIdx fun g d => gscale (gpow (33 - g)) d).foldl (· ^^^ ·) 0
  match er with
  | [a] => [(a, s0)]
  | [a, b] =>
    let ai := gpow (33 - a)
    let bj := gpow (33 - b)
    let eb := gscale (ginv (ai ^^^ bj)) (s1 ^^^ gscale ai s0)
    [(a, s0 ^^^ eb), (b, eb)]
  | _ => []

end Sys2Proof.Machine
end

