-- ==== Sys2Proof/Machine/Crypto.lean ====
section
/-!
DEFINITION. The algorithms the spec takes from the named standards: SHA-256 and SHA-384 (FIPS 180-4), HMAC-SHA-256
(FIPS 198-1) and the verification of ECDSA P-384 signatures (FIPS 186-5). PRESUMED: the spec names the standards and
does not repeat them (assumption 11).
-/

namespace Sys2Proof.Machine

/-! ## The SHA-2 family (FIPS 180-4) -/

/-- The round constants of SHA-256. -/
def sha256K0 : List (BitVec 32) :=
  [0x428A2F98, 0x71374491, 0xB5C0FBCF, 0xE9B5DBA5,
   0x3956C25B, 0x59F111F1, 0x923F82A4, 0xAB1C5ED5,
   0xD807AA98, 0x12835B01, 0x243185BE, 0x550C7DC3,
   0x72BE5D74, 0x80DEB1FE, 0x9BDC06A7, 0xC19BF174]
/-- Round constants. -/
def sha256K1 : List (BitVec 32) :=
  [0xE49B69C1, 0xEFBE4786, 0xFC19DC6, 0x240CA1CC,
   0x2DE92C6F, 0x4A7484AA, 0x5CB0A9DC, 0x76F988DA,
   0x983E5152, 0xA831C66D, 0xB00327C8, 0xBF597FC7,
   0xC6E00BF3, 0xD5A79147, 0x6CA6351, 0x14292967]
def sha256K2 : List (BitVec 32) :=
  [0x27B70A85, 0x2E1B2138, 0x4D2C6DFC, 0x53380D13,
   0x650A7354, 0x766A0ABB, 0x81C2C92E, 0x92722C85,
   0xA2BFE8A1, 0xA81A664B, 0xC24B8B70, 0xC76C51A3,
   0xD192E819, 0xD6990624, 0xF40E3585, 0x106AA070]
def sha256K3 : List (BitVec 32) :=
  [0x19A4C116, 0x1E376C08, 0x2748774C, 0x34B0BCB5,
   0x391C0CB3, 0x4ED8AA4A, 0x5B9CCA4F, 0x682E6FF3,
   0x748F82EE, 0x78A5636F, 0x84C87814, 0x8CC70208,
   0x90BEFFFA, 0xA4506CEB, 0xBEF9A3F7, 0xC67178F2]
def sha256K : List (BitVec 32) := sha256K0 ++ sha256K1 ++ sha256K2 ++ sha256K3

def sha256H : List (BitVec 32) :=
  [0x6A09E667, 0xBB67AE85, 0x3C6EF372, 0xA54FF53A,
   0x510E527F, 0x9B05688C, 0x1F83D9AB, 0x5BE0CD19]

/-- The round constants of SHA-384. -/
def sha384K0 : List (BitVec 64) :=
  [0x428A2F98D728AE22, 0x7137449123EF65CD, 0xB5C0FBCFEC4D3B2F, 0xE9B5DBA58189DBBC,
   0x3956C25BF348B538, 0x59F111F1B605D019, 0x923F82A4AF194F9B, 0xAB1C5ED5DA6D8118,
   0xD807AA98A3030242, 0x12835B0145706FBE, 0x243185BE4EE4B28C, 0x550C7DC3D5FFB4E2,
   0x72BE5D74F27B896F, 0x80DEB1FE3B1696B1, 0x9BDC06A725C71235, 0xC19BF174CF692694,
   0xE49B69C19EF14AD2, 0xEFBE4786384F25E3, 0xFC19DC68B8CD5B5, 0x240CA1CC77AC9C65]
def sha384K1 : List (BitVec 64) :=
  [0x2DE92C6F592B0275, 0x4A7484AA6EA6E483, 0x5CB0A9DCBD41FBD4, 0x76F988DA831153B5,
   0x983E5152EE66DFAB, 0xA831C66D2DB43210, 0xB00327C898FB213F, 0xBF597FC7BEEF0EE4,
   0xC6E00BF33DA88FC2, 0xD5A79147930AA725, 0x6CA6351E003826F, 0x142929670A0E6E70,
   0x27B70A8546D22FFC, 0x2E1B21385C26C926, 0x4D2C6DFC5AC42AED, 0x53380D139D95B3DF,
   0x650A73548BAF63DE, 0x766A0ABB3C77B2A8, 0x81C2C92E47EDAEE6, 0x92722C851482353B]
def sha384K2 : List (BitVec 64) :=
  [0xA2BFE8A14CF10364, 0xA81A664BBC423001, 0xC24B8B70D0F89791, 0xC76C51A30654BE30,
   0xD192E819D6EF5218, 0xD69906245565A910, 0xF40E35855771202A, 0x106AA07032BBD1B8,
   0x19A4C116B8D2D0C8, 0x1E376C085141AB53, 0x2748774CDF8EEB99, 0x34B0BCB5E19B48A8,
   0x391C0CB3C5C95A63, 0x4ED8AA4AE3418ACB, 0x5B9CCA4F7763E373, 0x682E6FF3D6B2B8A3,
   0x748F82EE5DEFB2FC, 0x78A5636F43172F60, 0x84C87814A1F0AB72, 0x8CC702081A6439EC]
def sha384K3 : List (BitVec 64) :=
  [0x90BEFFFA23631E28, 0xA4506CEBDE82BDE9, 0xBEF9A3F7B2C67915, 0xC67178F2E372532B,
   0xCA273ECEEA26619C, 0xD186B8C721C0C207, 0xEADA7DD6CDE0EB1E, 0xF57D4F7FEE6ED178,
   0x6F067AA72176FBA, 0xA637DC5A2C898A6, 0x113F9804BEF90DAE, 0x1B710B35131C471B,
   0x28DB77F523047D84, 0x32CAAB7B40C72493, 0x3C9EBE0A15C9BEBC, 0x431D67C49C100D4C,
   0x4CC5D4BECB3E42B6, 0x597F299CFC657E2A, 0x5FCB6FAB3AD6FAEC, 0x6C44198C4A475817]
def sha384K : List (BitVec 64) := sha384K0 ++ sha384K1 ++ sha384K2 ++ sha384K3

def sha384H : List (BitVec 64) :=
  [0xCBBB9D5DC1059ED8, 0x629A292A367CD507, 0x9159015A3070DD17, 0x152FECD8F70E5939,
   0x67332667FFC00B31, 0x8EB44A8768581511, 0xDB0C2E0D64F98FA7, 0x47B5481DBEFA4FA4]

/-- The rotation and shift amounts of a SHA-2 variant: Σ0, Σ1, σ0, σ1. -/
structure ShaRot where
  e0 : Nat × Nat × Nat
  e1 : Nat × Nat × Nat
  s0 : Nat × Nat × Nat
  s1 : Nat × Nat × Nat

def rot256 : ShaRot := ⟨(2, 13, 22), (6, 11, 25), (7, 18, 3), (17, 19, 10)⟩
def rot384 : ShaRot := ⟨(28, 34, 39), (14, 18, 41), (1, 8, 7), (19, 61, 6)⟩

def shaBig {w : Nat} (r : Nat × Nat × Nat) (x : BitVec w) : BitVec w :=
  x.rotateRight r.1 ^^^ x.rotateRight r.2.1 ^^^ x.rotateRight r.2.2
def shaSmall {w : Nat} (r : Nat × Nat × Nat) (x : BitVec w) : BitVec w :=
  x.rotateRight r.1 ^^^ x.rotateRight r.2.1 ^^^ (x >>> r.2.2)

/-- Extends the message schedule by `n` words; the list holds the newest word first. -/
def shaSched {w : Nat} (r : ShaRot) : Nat → List (BitVec w) → List (BitVec w)
  | 0, l => l
  | n + 1, l =>
    shaSched r n
      ((shaSmall r.s1 (l.getD 1 0) + l.getD 6 0 + shaSmall r.s0 (l.getD 14 0) + l.getD 15 0) :: l)

/-- One round on the working variables a to h. -/
def shaRound {w : Nat} (r : ShaRot) (v : List (BitVec w)) (kw : BitVec w × BitVec w) : List (BitVec w) :=
  match v with
  | [a, b, c, d, e, f, g, h] =>
    let t1 := h + shaBig r.e1 e + ((e &&& f) ^^^ (~~~e &&& g)) + kw.1 + kw.2
    let t2 := shaBig r.e0 a + ((a &&& b) ^^^ (a &&& c) ^^^ (b &&& c))
    [t1 + t2, a, b, c, d + t1, e, f, g]
  | v => v

/-- Compresses one block, given as 16 words in order. -/
def shaBlock {w : Nat} (r : ShaRot) (ks : List (BitVec w)) (h blk : List (BitVec w)) : List (BitVec w) :=
  let ws := (shaSched r (ks.length - 16) blk.reverse).reverse
  List.zipWith (· + ·) h ((ks.zip ws).foldl (shaRound r) h)

/-- Splits a list into pieces of `n`, at most `fuel` of them. -/
def pieces {α : Type} (n : Nat) : Nat → List α → List (List α)
  | 0, _ => []
  | fuel + 1, l => if l.isEmpty then [] else l.take n :: pieces n fuel (l.drop n)

/-- The padded message: 0x80, zeros, and the bit length in `lb` bytes. -/
def shaPad (block lb : Nat) (l : List Byte) : List Byte :=
  let n := l.length + 1 + lb
  l ++ [0x80] ++ List.replicate ((block - n % block) % block) 0 ++ (leBytes lb (8 * l.length)).reverse

/-- A SHA-2 digest as bytes. -/
def sha2 {w : Nat} (r : ShaRot) (ks h : List (BitVec w)) (l : List Byte) : List Byte :=
  let p := shaPad (2 * w) (w / 4) l
  let blks := pieces (2 * w) (p.length / (2 * w) + 1) p
  let out := blks.foldl (fun h b => shaBlock r ks h ((pieces (w / 8) 16 b).map fun x => BitVec.ofNat w (beNat x))) h
  out.flatMap fun x => (leBytes (w / 8) x.toNat).reverse

def sha256 (l : List Byte) : List Byte := sha2 rot256 sha256K sha256H l
def sha384 (l : List Byte) : List Byte := (sha2 rot384 sha384K sha384H l).take 48

/-- HMAC-SHA-256 (FIPS 198-1); keys here are 32 bytes long (R357). -/
def hmac256 (key l : List Byte) : List Byte :=
  let k := key ++ List.replicate (64 - key.length) 0
  sha256 (k.map (· ^^^ 0x5C) ++ sha256 (k.map (· ^^^ 0x36) ++ l))

/-! ## ECDSA P-384 (FIPS 186-5) -/

def p384P : Nat := 2 ^ 384 - 2 ^ 128 - 2 ^ 96 + 2 ^ 32 - 1
def p384N : Nat := 0xFFFFFFFFFFFFFFFFFFFFFFFFFFFFFFFFFFFFFFFFFFFFFFFFC7634D81F4372DDF581A0DB248B0A77AECEC196ACCC52973
def p384B : Nat := 0xB3312FA7E23EE7E4988E056BE3F82D19181D9C6EFE8141120314088F5013875AC656398D8A2ED19D2A85C8EDD3EC2AEF
def p384Gx : Nat := 0xAA87CA22BE8B05378EB1C71EF320AD746E1D3B628BA79B9859F741E082542A385502F25DBF55296C3A545E3872760AB7
def p384Gy : Nat := 0x3617DE4A96262C6F5D9E98BF9292DC29F8F41DBD289A147CE9DA3113B5F0B8C00A60B1CE1D7E819D7A431D7C90EA0E5F

/-- `b` to the power whose low `n` bits are those of `e`, modulo `m`. -/
def powMod (m : Nat) : Nat → Nat → Nat → Nat → Nat
  | 0, _, _, acc => acc
  | n + 1, b, e, acc => powMod m n (b * b % m) (e / 2) (if e % 2 = 1 then acc * b % m else acc)

/-- The inverse modulo a 384-bit prime. -/
def invMod (m a : Nat) : Nat := powMod m 384 (a % m) (m - 2) 1

/-- Jacobian points; Z = 0 is the point at infinity. -/
structure JPoint where
  x : Nat
  y : Nat
  z : Nat

def msub (a b : Nat) : Nat := (a + p384P - b % p384P) % p384P

def jdbl (p : JPoint) : JPoint :=
  let d := p.z * p.z % p384P
  let g := p.y * p.y % p384P
  let b := p.x * g % p384P
  let a := 3 * (msub p.x d * ((p.x + d) % p384P)) % p384P
  let x := msub (a * a % p384P) (8 * b)
  ⟨x, msub (a * msub (4 * b) x % p384P) (8 * (g * g % p384P)), 2 * (p.y * p.z) % p384P⟩

def jadd (p q : JPoint) : JPoint :=
  if p.z = 0 then q else if q.z = 0 then p
  else
    let z1 := p.z * p.z % p384P
    let z2 := q.z * q.z % p384P
    let u1 := p.x * z2 % p384P
    let u2 := q.x * z1 % p384P
    let s1 := p.y * (q.z * z2 % p384P) % p384P
    let s2 := q.y * (p.z * z1 % p384P) % p384P
    if u1 = u2 then (if s1 = s2 then jdbl p else ⟨1, 1, 0⟩)
    else
      let h := msub u2 u1
      let r := msub s2 s1
      let hh := h * h % p384P
      let v := u1 * hh % p384P
      let hhh := h * hh % p384P
      let x := msub (msub (r * r % p384P) hhh) (2 * v)
      ⟨x, msub (r * msub v x % p384P) (s1 * hhh), p.z * q.z % p384P * h % p384P⟩

/-- Adds the multiples of `p` that the low `n` bits of `k` name. -/
def jmul : Nat → Nat → JPoint → JPoint → JPoint
  | 0, _, _, acc => acc
  | n + 1, k, p, acc => jmul n (k / 2) (jdbl p) (if k % 2 = 1 then jadd acc p else acc)

/-- Verifies signature (r, s) over a SHA-384 digest with public key (qx, qy). -/
def ecdsaVerify (qx qy r s : Nat) (digest : List Byte) : Bool :=
  if qx < p384P ∧ qy < p384P ∧ qy * qy % p384P = (qx * qx % p384P * qx + msub p384B (3 * qx)) % p384P
      ∧ 0 < r ∧ r < p384N ∧ 0 < s ∧ s < p384N then
    let w := invMod p384N s
    let u1 := beNat digest * w % p384N
    let u2 := r * w % p384N
    let pt := jadd (jmul 384 u1 ⟨p384Gx, p384Gy, 1⟩ ⟨1, 1, 0⟩) (jmul 384 u2 ⟨qx, qy, 1⟩ ⟨1, 1, 0⟩)
    if pt.z = 0 then false
    else
      let zi := invMod p384P pt.z
      (pt.x * (zi * zi % p384P) % p384P) % p384N = r
  else false

end Sys2Proof.Machine
end

