-- ==== Sys2Proof/Machine/RegMap.lean ====
section
/-!
DEFINITION. The register map (R448 to R461): addresses, fields with their access types (R9), and reset values.
-/

namespace Sys2Proof.Machine

/-- Access types (R9). -/
inductive Acc where
  | rw | ro | w1c | w1s | rc | wo | rws | trg
deriving DecidableEq, Repr

/-- A field: low bit, width, access type. -/
structure Fld where
  lo : Nat
  n : Nat
  acc : Acc
deriving DecidableEq, Repr

/-- A register or an array of registers: `n1` copies `s1` apart, each `n2` registers `s2` apart. -/
structure RegRow where
  base : Nat
  n1 : Nat
  s1 : Nat
  n2 : Nat
  s2 : Nat
  flds : List Fld
  reset : Word
deriving DecidableEq, Repr

/-! ## Addresses -/

namespace Reg
/-- TOP_ID (R452). -/
def topId : Nat := 0x00000000
/-- REG_STAT (R353). -/
def regStat : Nat := 0x00000010
/-- REG_ERRADDR (R353). -/
def regErraddr : Nat := 0x00000014
/-- TOP_CBYP_CTL (R128). -/
def topCbypCtl : Nat := 0x00000100
/-- TOP_CBYP_LO (R128). -/
def topCbypLo : Nat := 0x00000104
/-- TOP_CBYP_HI (R128). -/
def topCbypHi : Nat := 0x00000108
/-- TOP_CBYP_STALE_LO (R128). -/
def topCbypStaleLo : Nat := 0x0000010C
/-- TOP_CBYP_STALE_HI (R128). -/
def topCbypStaleHi : Nat := 0x00000110
/-- TOP_AISO (R174). -/
def topAiso : Nat := 0x00000120
/-- TOP_MAGQn (R290). -/
def topMagq (k : Nat) : Nat := 0x00000200 + 4 * k
/-- TOP_MNT_STAT (R290). -/
def topMntStat : Nat := 0x00000250
/-- TOP_SLC_CTL (R405). -/
def topSlcCtl : Nat := 0x00000300
/-- TOP_SLC_STAT (R405). -/
def topSlcStat : Nat := 0x00000304
/-- TOP_SLC_LOST (R405). -/
def topSlcLost : Nat := 0x00000308
/-- TOP_ARTS (R405). -/
def topArts : Nat := 0x00000310
/-- PWR_DOM_STAT (R422). -/
def pwrDomStat : Nat := 0x00010000
/-- PWR_DOM_CTL (R422). -/
def pwrDomCtl : Nat := 0x00010004
/-- PWR_KEEP (R422). -/
def pwrKeep : Nat := 0x00010008
/-- PWR_RST_CAUSE (R422). -/
def pwrRstCause : Nat := 0x0001000C
/-- PWR_STRAP (R422). -/
def pwrStrap : Nat := 0x00010010
/-- PWR_BOOT_TIME (R422). -/
def pwrBootTime : Nat := 0x00010014
/-- PWR_WDT (R422). -/
def pwrWdt : Nat := 0x00010018
/-- CLK_STAT (R422). -/
def clkStat : Nat := 0x00020000
/-- EVT_STAT (R334). -/
def evtStat : Nat := 0x00030000
/-- EVT_CFG (R334). -/
def evtCfg : Nat := 0x00030004
/-- EVT_FORCE (R334). -/
def evtForce : Nat := 0x00030008
/-- EVT_DLOSS_CNT (R334). -/
def evtDlossCnt : Nat := 0x0003000C
/-- EVT_PENDk (R334). -/
def evtPend (k : Nat) : Nat := 0x00030100 + 4 * k
/-- PMC_CTL (R334). -/
def pmcCtl : Nat := 0x00040000
/-- PMC_STAT (R334). -/
def pmcStat : Nat := 0x00040004
/-- PMC_WSEL (R334). -/
def pmcWsel : Nat := 0x00040008
/-- PMC_OVFk (R334). -/
def pmcOvf (k : Nat) : Nat := 0x00040010 + 4 * k
/-- PMC_CHAINr (R334). -/
def pmcChain (k : Nat) : Nat := 0x00040050 + 4 * k
/-- PMC_WVAL_LO (R334). -/
def pmcWvalLo : Nat := 0x00040070
/-- PMC_WVAL_HI (R334). -/
def pmcWvalHi : Nat := 0x00040074
/-- PMC_SMP_CFG (R334). -/
def pmcSmpCfg : Nat := 0x00040080
/-- PMC_SMP_SEED (R334). -/
def pmcSmpSeed : Nat := 0x00040084
/-- PMC_SMP_STAT (R334). -/
def pmcSmpStat : Nat := 0x00040088
/-- QUE_STAT (R310). -/
def queStat : Nat := 0x00050000
/-- QUE_ALLOC (R310). -/
def queAlloc : Nat := 0x00050004
/-- QUE_PAR_CNT (R310). -/
def queParCnt : Nat := 0x00050008
/-- QUE_EVCAP (R310). -/
def queEvcap : Nat := 0x0005000C
/-- MBXm_SEL (R353). -/
def mbxSel (i : Nat) : Nat := 0x00060000 + 0x40 * i
/-- MBXm_STAT (R353). -/
def mbxStat (i : Nat) : Nat := 0x00060004 + 0x40 * i
/-- MBXm_ACK (R353). -/
def mbxAck (i : Nat) : Nat := 0x00060008 + 0x40 * i
/-- MBXm_Dk (R353). -/
def mbxD (i : Nat) (k : Nat) : Nat := 0x00060010 + 0x40 * i + 4 * k
/-- FWU_STAT (R378). -/
def fwuStat : Nat := 0x00070000
/-- FWU_ACT_VER (R378). -/
def fwuActVer : Nat := 0x00070004
/-- FWU_CRU_VER (R378). -/
def fwuCruVer : Nat := 0x00070008
/-- FWU_BAK_VER (R378). -/
def fwuBakVer : Nat := 0x0007000C
/-- FWU_ARB (R378). -/
def fwuArb : Nat := 0x00070010
/-- FWU_TRIAL (R378). -/
def fwuTrial : Nat := 0x00070014
/-- HAL_STAT (R378). -/
def halStat : Nat := 0x00080000
/-- HAL_CTL (R378). -/
def halCtl : Nat := 0x00080004
/-- HAL_ERR_CNT (R378). -/
def halErrCnt : Nat := 0x00080008
/-- SHD_STAT (R405). -/
def shdStat : Nat := 0x00090000
/-- SHD_CFG (R405). -/
def shdCfg : Nat := 0x00090004
/-- SHD_CTL (R405). -/
def shdCtl : Nat := 0x00090008
/-- SHD_MIR_STAT (R405). -/
def shdMirStat : Nat := 0x0009000C
/-- SHD_SHADOW (R405). -/
def shdShadow : Nat := 0x00090010
/-- SHD_MFULL_CNT (R405). -/
def shdMfullCnt : Nat := 0x00090014
/-- SHD_FO_LAST (R405). -/
def shdFoLast : Nat := 0x00090018
/-- MGT_STAT (R378). -/
def mgtStat : Nat := 0x000A0000
/-- MGT_PTP_OFS (R378). -/
def mgtPtpOfs : Nat := 0x000A0004
/-- MGT_BOOT (R378). -/
def mgtBoot : Nat := 0x000A0008
/-- HLM_STAT (R255). -/
def hlmStat : Nat := 0x000B0000
/-- HLM_AGQn (R255). -/
def hlmAgq (k : Nat) : Nat := 0x000B0100 + 4 * k
/-- DUR_STAT (R255). -/
def durStat : Nat := 0x000C0000
/-- DUR_BUDGET (R255). -/
def durBudget : Nat := 0x000C0004
/-- DUR_EXPO (R255). -/
def durExpo : Nat := 0x000C0008
/-- DUR_RSV (R255). -/
def durRsv : Nat := 0x000C000C
/-- DUR_PEAK (R255). -/
def durPeak : Nat := 0x000C0010
/-- DUR_GUARD (R255). -/
def durGuard : Nat := 0x000C0014
/-- DUR_CFG (R255). -/
def durCfg : Nat := 0x000C0018
/-- DUR_LIM (R255). -/
def durLim : Nat := 0x000C001C
/-- DUR_JSEQ (R255). -/
def durJseq : Nat := 0x000C0020
/-- DUR_JLOC (R255). -/
def durJloc : Nat := 0x000C0024
/-- DUR_STALL_CNT (R255). -/
def durStallCnt : Nat := 0x000C0028
/-- RIG_STAT (R67). -/
def rigStat : Nat := 0x000D0000
/-- RIG_SEQ (R67). -/
def rigSeq : Nat := 0x000D0004
/-- RIG_FMT (R67). -/
def rigFmt : Nat := 0x000D0008
/-- RIG_RELOAD (R67). -/
def rigReload : Nat := 0x000D0010
/-- SLCn_CDIS (R128). -/
def slcCdis (i : Nat) : Nat := 0x00100008 + 0x10000 * i
/-- SLCn_WB_CFG (R128). -/
def slcWbCfg (i : Nat) : Nat := 0x00100010 + 0x10000 * i
/-- SLCn_WB_STAT (R128). -/
def slcWbStat (i : Nat) : Nat := 0x00100014 + 0x10000 * i
/-- SLCn_MT_STAT (R128). -/
def slcMtStat (i : Nat) : Nat := 0x00100018 + 0x10000 * i
/-- SLCn_PF_CFG (R128). -/
def slcPfCfg (i : Nat) : Nat := 0x00100020 + 0x10000 * i
/-- SLCn_PF_STAT (R128). -/
def slcPfStat (i : Nat) : Nat := 0x00100024 + 0x10000 * i
/-- SLCn_TAG_ERR (R89). -/
def slcTagErr (i : Nat) : Nat := 0x00100040 + 0x10000 * i
/-- SLCn_TAG_CE (R89). -/
def slcTagCe (i : Nat) : Nat := 0x00100044 + 0x10000 * i
/-- SLCn_DIR_STAT (R156). -/
def slcDirStat (i : Nat) : Nat := 0x00100060 + 0x10000 * i
/-- SLCn_BST_STAT (R156). -/
def slcBstStat (i : Nat) : Nat := 0x00100064 + 0x10000 * i
/-- SLCn_BINV_CNT (R156). -/
def slcBinvCnt (i : Nat) : Nat := 0x00100068 + 0x10000 * i
/-- SLCn_PERR (R156). -/
def slcPerr (i : Nat) : Nat := 0x0010006C + 0x10000 * i
/-- SLCn_TMO_CFG (R174). -/
def slcTmoCfg (i : Nat) : Nat := 0x00100080 + 0x10000 * i
/-- SLCn_TMO_CAP (R174). -/
def slcTmoCap (i : Nat) : Nat := 0x00100084 + 0x10000 * i
/-- SLCn_OWED_STAT (R174). -/
def slcOwedStat (i : Nat) : Nat := 0x00100088 + 0x10000 * i
/-- SLCn_WBSTALE_CNT (R174). -/
def slcWbstaleCnt (i : Nat) : Nat := 0x0010008C + 0x10000 * i
/-- SLCn_PLN_CFG (R276). -/
def slcPlnCfg (i : Nat) : Nat := 0x001000A0 + 0x10000 * i
/-- SLCn_PLN_STAT (R276). -/
def slcPlnStat (i : Nat) : Nat := 0x001000A4 + 0x10000 * i
/-- SLCn_MNT_STAT (R290). -/
def slcMntStat (i : Nat) : Nat := 0x001000C0 + 0x10000 * i
/-- SLCn_MNT_DISC (R290). -/
def slcMntDisc (i : Nat) : Nat := 0x001000C4 + 0x10000 * i
/-- APTn_LINK_STAT (R215). -/
def aptLinkStat (i : Nat) : Nat := 0x00200000 + 0x10000 * i
/-- APTn_LINK_CTL (R215). -/
def aptLinkCtl (i : Nat) : Nat := 0x00200004 + 0x10000 * i
/-- APTn_ERR_CNT (R215). -/
def aptErrCnt (i : Nat) : Nat := 0x00200008 + 0x10000 * i
/-- APTn_FEC_CNT (R215). -/
def aptFecCnt (i : Nat) : Nat := 0x0020000C + 0x10000 * i
/-- APTn_TMO_CFG (R215). -/
def aptTmoCfg (i : Nat) : Nat := 0x00200010 + 0x10000 * i
/-- APTn_CRED_STAT (R215). -/
def aptCredStat (i : Nat) : Nat := 0x00200014 + 0x10000 * i
/-- APTn_MSG_ERR (R215). -/
def aptMsgErr (i : Nat) : Nat := 0x00200018 + 0x10000 * i
/-- APTn_SWEV (R334). -/
def aptSwev (i : Nat) : Nat := 0x00200020 + 0x10000 * i
/-- APTn_REG_STAT (R353). -/
def aptRegStat (i : Nat) : Nat := 0x00200030 + 0x10000 * i
/-- APTn_ILVk (R215). -/
def aptIlv (i : Nat) (k : Nat) : Nat := 0x00200400 + 0x10000 * i + 4 * k
/-- BKPn_STAT (R255). -/
def bkpStat (i : Nat) : Nat := 0x00300000 + 0x10000 * i
/-- BKPn_CAP (R255). -/
def bkpCap (i : Nat) : Nat := 0x00300004 + 0x10000 * i
/-- BKPn_GPF (R255). -/
def bkpGpf (i : Nat) : Nat := 0x00300008 + 0x10000 * i
/-- BKPn_WRATE (R255). -/
def bkpWrate (i : Nat) : Nat := 0x0030000C + 0x10000 * i
/-- BKPn_ERR_CNT (R255). -/
def bkpErrCnt (i : Nat) : Nat := 0x00300010 + 0x10000 * i
/-- BKPn_CTL (R405). -/
def bkpCtl (i : Nat) : Nat := 0x00300020 + 0x10000 * i
/-- STO_ECC_CFG (R276). -/
def stoEccCfg : Nat := 0x00400000
/-- STO_CE_CNT (R276). -/
def stoCeCnt : Nat := 0x00400004
/-- STO_UE_CNT (R276). -/
def stoUeCnt : Nat := 0x00400008
/-- STO_ERR_CAP (R276). -/
def stoErrCap : Nat := 0x0040000C
/-- STO_SCRUB_STAT (R276). -/
def stoScrubStat : Nat := 0x00400010
/-- STO_FLIP_LO (R276). -/
def stoFlipLo : Nat := 0x00400020
/-- STO_FLIP_MID (R276). -/
def stoFlipMid : Nat := 0x00400024
/-- STO_FLIP_HI (R276). -/
def stoFlipHi : Nat := 0x00400028
/-- STO_SPARE_STAT (R89). -/
def stoSpareStat : Nat := 0x00400040
/-- STO_TOUCH_DEM_LO (R89). -/
def stoTouchDemLo : Nat := 0x00400050
/-- STO_TOUCH_DEM_HI (R89). -/
def stoTouchDemHi : Nat := 0x00400054
/-- TST_ASSAY_CTL (R405). -/
def tstAssayCtl : Nat := 0x00500000
/-- TST_ASSAY_STAT (R405). -/
def tstAssayStat : Nat := 0x00500004
/-- QUE_Dq_CFG (R310). -/
def quedCfg (i : Nat) : Nat := 0x01000000 + 0x40 * i
/-- QUE_Dq_BASE (R310). -/
def quedBase (i : Nat) : Nat := 0x01000004 + 0x40 * i
/-- QUE_Dq_DEPTH (R310). -/
def quedDepth (i : Nat) : Nat := 0x01000008 + 0x40 * i
/-- QUE_Dq_STAT (R310). -/
def quedStat (i : Nat) : Nat := 0x0100000C + 0x40 * i
/-- QUE_Dq_PKT (R310). -/
def quedPkt (i : Nat) : Nat := 0x01000010 + 0x40 * i
/-- QUE_Dq_PTR (R310). -/
def quedPtr (i : Nat) : Nat := 0x01000014 + 0x40 * i
/-- QUE_Dq_LOST (R310). -/
def quedLost (i : Nat) : Nat := 0x01000018 + 0x40 * i
/-- QUE_Dq_DROP (R310). -/
def quedDrop (i : Nat) : Nat := 0x0100001C + 0x40 * i
/-- QUE_Dq_RSYNC (R310). -/
def quedRsync (i : Nat) : Nat := 0x01000020 + 0x40 * i
/-- QUE_Dq_GAPP (R310). -/
def quedGapp (i : Nat) : Nat := 0x01000024 + 0x40 * i
/-- QUE_Dq_STALE (R310). -/
def quedStale (i : Nat) : Nat := 0x01000028 + 0x40 * i
/-- QUE_Dq_CTL (R310). -/
def quedCtl (i : Nat) : Nat := 0x0100002C + 0x40 * i
/-- QUE_Dq_PUSH_LO (R310). -/
def quedPushLo (i : Nat) : Nat := 0x01000030 + 0x40 * i
/-- QUE_Dq_PUSH_HI (R310). -/
def quedPushHi (i : Nat) : Nat := 0x01000034 + 0x40 * i
/-- QUE_Dq_POP_LO (R310). -/
def quedPopLo (i : Nat) : Nat := 0x01000038 + 0x40 * i
/-- QUE_Dq_POP_HI (R310). -/
def quedPopHi (i : Nat) : Nat := 0x0100003C + 0x40 * i
end Reg

/-! ## Rows -/

/-- Rows of R452 to R461, part 0. -/
def regRows0 : List RegRow :=
  [⟨0x00000000, 1, 0x0, 1, 0, [⟨0, 16, .ro⟩, ⟨16, 4, .ro⟩], 0x00016416⟩,
   ⟨0x00000010, 1, 0x0, 1, 0, [⟨0, 1, .w1c⟩, ⟨1, 1, .w1c⟩, ⟨2, 1, .ro⟩, ⟨3, 1, .w1c⟩, ⟨4, 1, .ro⟩, ⟨8, 3, .ro⟩], 0x00000000⟩,
   ⟨0x00000014, 1, 0x0, 1, 0, [⟨0, 32, .ro⟩], 0x00000000⟩,
   ⟨0x00000100, 1, 0x0, 1, 0, [⟨0, 6, .rw⟩, ⟨6, 1, .trg⟩, ⟨7, 1, .trg⟩, ⟨8, 1, .w1c⟩], 0x00000000⟩,
   ⟨0x00000104, 1, 0x0, 1, 0, [⟨0, 32, .ro⟩], 0x00000000⟩,
   ⟨0x00000108, 1, 0x0, 1, 0, [⟨0, 32, .ro⟩], 0x00000000⟩,
   ⟨0x0000010C, 1, 0x0, 1, 0, [⟨0, 32, .w1c⟩], 0x00000000⟩,
   ⟨0x00000110, 1, 0x0, 1, 0, [⟨0, 32, .w1c⟩], 0x00000000⟩,
   ⟨0x00000120, 1, 0x0, 1, 0, [⟨0, 16, .ro⟩], 0x00000000⟩,
   ⟨0x00000200, 1, 0x0, 17, 4, [⟨0, 14, .rw⟩, ⟨14, 1, .rw⟩, ⟨16, 14, .rw⟩], 0x00000000⟩,
   ⟨0x00000250, 1, 0x0, 1, 0, [⟨0, 8, .ro⟩], 0x00000000⟩,
   ⟨0x00000300, 1, 0x0, 1, 0, [⟨0, 3, .rw⟩, ⟨3, 1, .rw⟩, ⟨4, 1, .trg⟩, ⟨5, 1, .w1c⟩], 0x00000000⟩,
   ⟨0x00000304, 1, 0x0, 1, 0, [⟨0, 8, .ro⟩, ⟨8, 8, .ro⟩, ⟨16, 8, .ro⟩], 0x00000000⟩,
   ⟨0x00000308, 1, 0x0, 1, 0, [⟨0, 32, .rw⟩], 0x00000000⟩,
   ⟨0x00000310, 1, 0x0, 1, 0, [⟨0, 4, .rw⟩, ⟨4, 1, .trg⟩, ⟨5, 1, .w1c⟩], 0x00000000⟩,
   ⟨0x00010000, 1, 0x0, 1, 0, [⟨0, 30, .ro⟩, ⟨30, 1, .ro⟩], 0x00000001⟩,
   ⟨0x00010004, 1, 0x0, 1, 0, [⟨0, 5, .rw⟩, ⟨5, 2, .rw⟩, ⟨7, 1, .trg⟩, ⟨8, 1, .w1c⟩], 0x00000000⟩,
   ⟨0x00010008, 1, 0x0, 1, 0, [⟨0, 30, .rws⟩, ⟨30, 1, .rws⟩], 0x00000000⟩,
   ⟨0x0001000C, 1, 0x0, 1, 0, [⟨0, 3, .ro⟩, ⟨3, 1, .ro⟩, ⟨4, 4, .ro⟩], 0x00000000⟩,
   ⟨0x00010010, 1, 0x0, 1, 0, [⟨0, 1, .ro⟩, ⟨1, 1, .ro⟩, ⟨2, 1, .ro⟩, ⟨3, 1, .ro⟩], 0x00000000⟩,
   ⟨0x00010014, 1, 0x0, 1, 0, [⟨0, 24, .ro⟩], 0x00000000⟩,
   ⟨0x00010018, 1, 0x0, 1, 0, [⟨0, 16, .rw⟩, ⟨16, 1, .trg⟩, ⟨17, 15, .rw⟩], 0x000003E8⟩]

/-- Rows of R452 to R461, part 1. -/
def regRows1 : List RegRow :=
  [⟨0x00020000, 1, 0x0, 1, 0, [⟨0, 1, .ro⟩, ⟨1, 4, .w1c⟩, ⟨5, 1, .ro⟩, ⟨6, 1, .ro⟩, ⟨7, 8, .ro⟩], 0x00000000⟩,
   ⟨0x00030000, 1, 0x0, 1, 0, [⟨0, 1, .ro⟩, ⟨1, 1, .w1c⟩, ⟨2, 12, .ro⟩], 0x00000000⟩,
   ⟨0x00030004, 1, 0x0, 1, 0, [⟨0, 14, .rw⟩], 0x00003E00⟩,
   ⟨0x00030008, 1, 0x0, 1, 0, [⟨0, 10, .rw⟩, ⟨10, 1, .trg⟩], 0x00000000⟩,
   ⟨0x0003000C, 1, 0x0, 1, 0, [⟨0, 32, .rw⟩], 0x00000000⟩,
   ⟨0x00030100, 1, 0x0, 32, 4, [⟨0, 32, .w1c⟩], 0x00000000⟩,
   ⟨0x00040000, 1, 0x0, 1, 0, [⟨0, 1, .trg⟩, ⟨1, 1, .trg⟩, ⟨16, 16, .rw⟩], 0x00000000⟩,
   ⟨0x00040004, 1, 0x0, 1, 0, [⟨0, 16, .ro⟩, ⟨16, 1, .w1c⟩, ⟨17, 1, .ro⟩], 0x00000000⟩,
   ⟨0x00040008, 1, 0x0, 1, 0, [⟨0, 9, .rw⟩], 0x00000000⟩,
   ⟨0x00040010, 1, 0x0, 16, 4, [⟨0, 32, .w1c⟩], 0x00000000⟩,
   ⟨0x00040050, 1, 0x0, 8, 4, [⟨0, 32, .rw⟩], 0x00000000⟩,
   ⟨0x00040070, 1, 0x0, 1, 0, [⟨0, 32, .wo⟩], 0x00000000⟩,
   ⟨0x00040074, 1, 0x0, 1, 0, [⟨0, 16, .wo⟩], 0x00000000⟩,
   ⟨0x00040080, 1, 0x0, 1, 0, [⟨0, 1, .rw⟩, ⟨1, 5, .rw⟩, ⟨8, 14, .rw⟩], 0x003E0118⟩,
   ⟨0x00040084, 1, 0x0, 1, 0, [⟨0, 32, .rw⟩], 0x00000001⟩,
   ⟨0x00040088, 1, 0x0, 1, 0, [⟨0, 8, .ro⟩], 0x00000000⟩,
   ⟨0x00050000, 1, 0x0, 1, 0, [⟨0, 20, .ro⟩], 0x00000000⟩,
   ⟨0x00050004, 1, 0x0, 1, 0, [⟨0, 20, .ro⟩], 0x00000000⟩,
   ⟨0x00050008, 1, 0x0, 1, 0, [⟨0, 32, .rw⟩], 0x00000000⟩,
   ⟨0x0005000C, 1, 0x0, 1, 0, [⟨0, 14, .ro⟩, ⟨14, 3, .ro⟩, ⟨17, 1, .w1c⟩, ⟨18, 1, .w1c⟩], 0x00000000⟩,
   ⟨0x00060000, 8, 0x40, 1, 0, [⟨0, 24, .rw⟩, ⟨24, 8, .rw⟩], 0x00000000⟩,
   ⟨0x00060004, 8, 0x40, 1, 0, [⟨0, 1, .ro⟩, ⟨1, 1, .ro⟩, ⟨2, 1, .w1c⟩, ⟨3, 2, .ro⟩, ⟨8, 5, .ro⟩], 0x00000000⟩]

/-- Rows of R452 to R461, part 2. -/
def regRows2 : List RegRow :=
  [⟨0x00060008, 8, 0x40, 1, 0, [⟨0, 32, .wo⟩], 0x00000000⟩,
   ⟨0x00060010, 8, 0x40, 12, 4, [⟨0, 32, .ro⟩], 0x00000000⟩,
   ⟨0x00070000, 1, 0x0, 1, 0, [⟨0, 3, .ro⟩, ⟨3, 2, .ro⟩, ⟨5, 1, .ro⟩, ⟨6, 2, .ro⟩, ⟨8, 1, .ro⟩, ⟨9, 1, .w1c⟩, ⟨10, 2, .ro⟩], 0x00000000⟩,
   ⟨0x00070004, 1, 0x0, 1, 0, [⟨0, 32, .ro⟩], 0x00000000⟩,
   ⟨0x00070008, 1, 0x0, 1, 0, [⟨0, 32, .ro⟩], 0x00000000⟩,
   ⟨0x0007000C, 1, 0x0, 1, 0, [⟨0, 32, .ro⟩], 0x00000000⟩,
   ⟨0x00070010, 1, 0x0, 1, 0, [⟨0, 7, .ro⟩, ⟨8, 7, .ro⟩], 0x00000000⟩,
   ⟨0x00070014, 1, 0x0, 1, 0, [⟨0, 16, .ro⟩], 0x00000000⟩,
   ⟨0x00080000, 1, 0x0, 1, 0, [⟨0, 6, .ro⟩, ⟨6, 1, .ro⟩, ⟨7, 1, .ro⟩, ⟨8, 1, .ro⟩, ⟨9, 1, .ro⟩, ⟨10, 6, .ro⟩, ⟨16, 1, .w1c⟩], 0x0000003F⟩,
   ⟨0x00080004, 1, 0x0, 1, 0, [⟨0, 1, .trg⟩, ⟨1, 1, .rw⟩], 0x00000002⟩,
   ⟨0x00080008, 1, 0x0, 1, 0, [⟨0, 16, .rw⟩, ⟨16, 16, .rw⟩], 0x00000000⟩,
   ⟨0x00090000, 1, 0x0, 1, 0, [⟨0, 3, .ro⟩, ⟨3, 1, .ro⟩, ⟨4, 1, .ro⟩, ⟨5, 2, .ro⟩, ⟨7, 1, .ro⟩, ⟨8, 1, .ro⟩, ⟨9, 1, .ro⟩], 0x00000000⟩,
   ⟨0x00090004, 1, 0x0, 1, 0, [⟨0, 8, .rw⟩, ⟨8, 8, .rw⟩, ⟨16, 1, .rw⟩], 0x00001E32⟩,
   ⟨0x00090008, 1, 0x0, 1, 0, [⟨0, 1, .trg⟩, ⟨1, 1, .trg⟩], 0x00000000⟩,
   ⟨0x0009000C, 1, 0x0, 1, 0, [⟨0, 26, .ro⟩], 0x00000000⟩,
   ⟨0x00090010, 1, 0x0, 1, 0, [⟨0, 9, .ro⟩], 0x00000000⟩,
   ⟨0x00090014, 1, 0x0, 1, 0, [⟨0, 32, .rw⟩], 0x00000000⟩,
   ⟨0x00090018, 1, 0x0, 1, 0, [⟨0, 16, .ro⟩, ⟨16, 1, .ro⟩], 0x00000000⟩,
   ⟨0x000A0000, 1, 0x0, 1, 0, [⟨0, 1, .ro⟩, ⟨1, 1, .ro⟩, ⟨2, 2, .ro⟩, ⟨4, 1, .ro⟩, ⟨5, 3, .ro⟩], 0x00000008⟩,
   ⟨0x000A0004, 1, 0x0, 1, 0, [⟨0, 32, .ro⟩], 0x00000000⟩,
   ⟨0x000A0008, 1, 0x0, 1, 0, [⟨0, 32, .ro⟩], 0x00000000⟩,
   ⟨0x000B0000, 1, 0x0, 1, 0, [⟨0, 1, .ro⟩, ⟨1, 8, .ro⟩, ⟨9, 2, .ro⟩], 0x00000400⟩]

/-- Rows of R452 to R461, part 3. -/
def regRows3 : List RegRow :=
  [⟨0x000B0100, 1, 0x0, 16, 4, [⟨0, 14, .rw⟩, ⟨14, 1, .rw⟩, ⟨16, 14, .rw⟩], 0x00000000⟩,
   ⟨0x000C0000, 1, 0x0, 1, 0, [⟨0, 1, .ro⟩, ⟨1, 1, .ro⟩, ⟨2, 1, .ro⟩, ⟨3, 3, .ro⟩, ⟨6, 1, .ro⟩, ⟨7, 1, .ro⟩, ⟨8, 1, .ro⟩], 0x00000000⟩,
   ⟨0x000C0004, 1, 0x0, 1, 0, [⟨0, 32, .rw⟩], 0x01000000⟩,
   ⟨0x000C0008, 1, 0x0, 1, 0, [⟨0, 32, .ro⟩], 0x00000000⟩,
   ⟨0x000C000C, 1, 0x0, 1, 0, [⟨0, 32, .ro⟩], 0x00000000⟩,
   ⟨0x000C0010, 1, 0x0, 1, 0, [⟨0, 32, .rc⟩], 0x00000000⟩,
   ⟨0x000C0014, 1, 0x0, 1, 0, [⟨0, 32, .rw⟩], 0x00010000⟩,
   ⟨0x000C0018, 1, 0x0, 1, 0, [⟨0, 4, .rw⟩, ⟨4, 4, .rw⟩, ⟨8, 8, .rw⟩], 0x000040AC⟩,
   ⟨0x000C001C, 1, 0x0, 1, 0, [⟨0, 8, .rw⟩, ⟨8, 8, .rw⟩, ⟨16, 8, .rw⟩, ⟨24, 8, .rw⟩], 0x0A323C14⟩,
   ⟨0x000C0020, 1, 0x0, 1, 0, [⟨0, 32, .ro⟩], 0x00000000⟩,
   ⟨0x000C0024, 1, 0x0, 1, 0, [⟨0, 2, .ro⟩, ⟨2, 1, .ro⟩, ⟨3, 2, .ro⟩, ⟨5, 1, .ro⟩], 0x00000000⟩,
   ⟨0x000C0028, 1, 0x0, 1, 0, [⟨0, 32, .rw⟩], 0x00000000⟩,
   ⟨0x000D0000, 1, 0x0, 1, 0, [⟨0, 1, .ro⟩, ⟨1, 1, .ro⟩, ⟨2, 1, .ro⟩, ⟨3, 1, .ro⟩, ⟨4, 1, .w1c⟩, ⟨8, 8, .ro⟩, ⟨16, 16, .ro⟩], 0x00000000⟩,
   ⟨0x000D0004, 1, 0x0, 1, 0, [⟨0, 32, .ro⟩], 0x00000000⟩,
   ⟨0x000D0008, 1, 0x0, 1, 0, [⟨0, 16, .ro⟩, ⟨16, 16, .ro⟩], 0x00030000⟩,
   ⟨0x000D0010, 1, 0x0, 1, 0, [⟨0, 1, .trg⟩], 0x00000000⟩,
   ⟨0x00100008, 8, 0x10000, 1, 0, [⟨0, 1, .trg⟩, ⟨1, 1, .trg⟩, ⟨2, 1, .ro⟩, ⟨3, 1, .w1c⟩, ⟨4, 1, .w1c⟩], 0x00000000⟩,
   ⟨0x00100010, 8, 0x10000, 1, 0, [⟨0, 8, .rw⟩, ⟨8, 6, .rw⟩], 0x00000840⟩,
   ⟨0x00100014, 8, 0x10000, 1, 0, [⟨0, 6, .ro⟩, ⟨6, 6, .rc⟩], 0x00000000⟩,
   ⟨0x00100018, 8, 0x10000, 1, 0, [⟨0, 7, .ro⟩, ⟨7, 7, .rc⟩], 0x00000000⟩,
   ⟨0x00100020, 8, 0x10000, 1, 0, [⟨0, 1, .rw⟩, ⟨1, 1, .rw⟩, ⟨2, 2, .rw⟩, ⟨4, 4, .rw⟩], 0x00000087⟩,
   ⟨0x00100024, 8, 0x10000, 1, 0, [⟨0, 16, .rc⟩, ⟨16, 6, .ro⟩], 0x00000000⟩]

/-- Rows of R452 to R461, part 4. -/
def regRows4 : List RegRow :=
  [⟨0x00100040, 8, 0x10000, 1, 0, [⟨0, 15, .ro⟩, ⟨15, 4, .ro⟩, ⟨19, 1, .ro⟩, ⟨20, 1, .w1c⟩, ⟨21, 1, .w1c⟩], 0x00000000⟩,
   ⟨0x00100044, 8, 0x10000, 1, 0, [⟨0, 16, .rw⟩], 0x00000000⟩,
   ⟨0x00100060, 8, 0x10000, 1, 0, [⟨0, 19, .ro⟩, ⟨19, 8, .ro⟩, ⟨27, 5, .ro⟩], 0x00000000⟩,
   ⟨0x00100064, 8, 0x10000, 1, 0, [⟨0, 25, .ro⟩], 0x00000000⟩,
   ⟨0x00100068, 8, 0x10000, 1, 0, [⟨0, 32, .rw⟩], 0x00000000⟩,
   ⟨0x0010006C, 8, 0x10000, 1, 0, [⟨0, 4, .ro⟩, ⟨4, 3, .ro⟩, ⟨7, 5, .ro⟩, ⟨12, 6, .ro⟩, ⟨18, 1, .w1c⟩, ⟨19, 1, .w1c⟩], 0x00000000⟩,
   ⟨0x00100080, 8, 0x10000, 1, 0, [⟨0, 8, .rw⟩, ⟨8, 8, .rw⟩, ⟨16, 8, .rw⟩, ⟨24, 8, .rw⟩], 0x14646414⟩,
   ⟨0x00100084, 8, 0x10000, 1, 0, [⟨0, 4, .ro⟩, ⟨4, 3, .ro⟩, ⟨7, 1, .w1c⟩, ⟨8, 1, .w1c⟩], 0x00000000⟩,
   ⟨0x00100088, 8, 0x10000, 1, 0, [⟨0, 9, .ro⟩, ⟨9, 9, .rc⟩], 0x00000000⟩,
   ⟨0x0010008C, 8, 0x10000, 1, 0, [⟨0, 32, .rw⟩], 0x00000000⟩,
   ⟨0x001000A0, 8, 0x10000, 1, 0, [⟨0, 1, .rw⟩, ⟨1, 11, .rw⟩], 0x00000021⟩,
   ⟨0x001000A4, 8, 0x10000, 1, 0, [⟨0, 16, .rc⟩, ⟨16, 5, .ro⟩], 0x00000000⟩,
   ⟨0x001000C0, 8, 0x10000, 1, 0, [⟨0, 1, .ro⟩, ⟨1, 3, .ro⟩, ⟨4, 2, .ro⟩, ⟨6, 3, .ro⟩, ⟨9, 15, .ro⟩], 0x00000000⟩,
   ⟨0x001000C4, 8, 0x10000, 1, 0, [⟨0, 32, .rw⟩], 0x00000000⟩,
   ⟨0x00200000, 16, 0x10000, 1, 0, [⟨0, 4, .ro⟩, ⟨4, 2, .ro⟩, ⟨6, 2, .ro⟩, ⟨8, 1, .ro⟩, ⟨9, 1, .w1c⟩], 0x00000000⟩,
   ⟨0x00200004, 16, 0x10000, 1, 0, [⟨0, 1, .rw⟩, ⟨1, 1, .trg⟩], 0x00000000⟩,
   ⟨0x00200008, 16, 0x10000, 1, 0, [⟨0, 12, .rw⟩, ⟨12, 12, .rw⟩, ⟨24, 8, .rw⟩], 0x00000000⟩,
   ⟨0x0020000C, 16, 0x10000, 1, 0, [⟨0, 32, .rw⟩], 0x00000000⟩,
   ⟨0x00200010, 16, 0x10000, 1, 0, [⟨0, 8, .rw⟩, ⟨8, 8, .rw⟩, ⟨16, 8, .rw⟩, ⟨24, 8, .rw⟩], 0x320A0A04⟩,
   ⟨0x00200014, 16, 0x10000, 1, 0, [⟨0, 10, .ro⟩, ⟨10, 10, .ro⟩, ⟨20, 10, .ro⟩], 0x00000000⟩,
   ⟨0x00200018, 16, 0x10000, 1, 0, [⟨0, 3, .ro⟩, ⟨3, 5, .ro⟩, ⟨8, 3, .ro⟩, ⟨11, 1, .w1c⟩, ⟨12, 1, .w1c⟩], 0x00000000⟩,
   ⟨0x00200020, 16, 0x10000, 1, 0, [⟨0, 8, .wo⟩], 0x00000000⟩]

/-- Rows of R452 to R461, part 5. -/
def regRows5 : List RegRow :=
  [⟨0x00200030, 16, 0x10000, 1, 0, [⟨0, 1, .w1c⟩, ⟨1, 1, .w1c⟩, ⟨2, 1, .ro⟩, ⟨3, 1, .w1c⟩, ⟨4, 1, .ro⟩, ⟨8, 3, .ro⟩], 0x00000000⟩,
   ⟨0x00200400, 16, 0x10000, 64, 4, [⟨0, 8, .ro⟩, ⟨8, 8, .ro⟩, ⟨16, 8, .ro⟩, ⟨24, 8, .ro⟩], 0x00000000⟩,
   ⟨0x00300000, 4, 0x10000, 1, 0, [⟨0, 3, .ro⟩, ⟨3, 2, .ro⟩, ⟨5, 1, .ro⟩, ⟨6, 1, .ro⟩, ⟨7, 1, .w1c⟩], 0x00000000⟩,
   ⟨0x00300004, 4, 0x10000, 1, 0, [⟨0, 16, .ro⟩], 0x00000000⟩,
   ⟨0x00300008, 4, 0x10000, 1, 0, [⟨0, 16, .ro⟩], 0x00000000⟩,
   ⟨0x0030000C, 4, 0x10000, 1, 0, [⟨0, 16, .rc⟩], 0x00000000⟩,
   ⟨0x00300010, 4, 0x10000, 1, 0, [⟨0, 16, .rw⟩, ⟨16, 16, .rw⟩], 0x00000000⟩,
   ⟨0x00300020, 4, 0x10000, 1, 0, [⟨0, 1, .trg⟩, ⟨1, 1, .trg⟩, ⟨2, 1, .w1c⟩], 0x00000000⟩,
   ⟨0x00400000, 1, 0x0, 1, 0, [⟨0, 1, .rw⟩, ⟨1, 8, .rw⟩, ⟨9, 4, .rw⟩], 0x00000831⟩,
   ⟨0x00400004, 1, 0x0, 1, 0, [⟨0, 32, .rw⟩], 0x00000000⟩,
   ⟨0x00400008, 1, 0x0, 1, 0, [⟨0, 16, .rw⟩, ⟨16, 16, .rw⟩], 0x00000000⟩,
   ⟨0x0040000C, 1, 0x0, 1, 0, [⟨0, 5, .ro⟩, ⟨5, 7, .ro⟩, ⟨12, 2, .ro⟩, ⟨14, 3, .ro⟩, ⟨17, 1, .w1c⟩, ⟨18, 1, .w1c⟩], 0x00000000⟩,
   ⟨0x00400010, 1, 0x0, 1, 0, [⟨0, 16, .ro⟩, ⟨16, 7, .ro⟩, ⟨23, 1, .w1c⟩], 0x00000000⟩,
   ⟨0x00400020, 1, 0x0, 1, 0, [⟨0, 32, .rw⟩], 0x00000000⟩,
   ⟨0x00400024, 1, 0x0, 1, 0, [⟨0, 32, .rw⟩], 0x00000000⟩,
   ⟨0x00400028, 1, 0x0, 1, 0, [⟨0, 8, .rw⟩, ⟨8, 3, .rw⟩, ⟨11, 2, .rw⟩, ⟨13, 5, .rw⟩, ⟨18, 1, .trg⟩], 0x00000000⟩,
   ⟨0x00400040, 1, 0x0, 1, 0, [⟨0, 12, .ro⟩, ⟨12, 5, .ro⟩, ⟨17, 1, .ro⟩], 0x00000000⟩,
   ⟨0x00400050, 1, 0x0, 1, 0, [⟨0, 32, .ro⟩], 0x00000000⟩,
   ⟨0x00400054, 1, 0x0, 1, 0, [⟨0, 32, .ro⟩], 0x00000000⟩,
   ⟨0x00500000, 1, 0x0, 1, 0, [⟨0, 3, .rw⟩, ⟨3, 1, .trg⟩], 0x00000000⟩,
   ⟨0x00500004, 1, 0x0, 1, 0, [⟨0, 1, .ro⟩, ⟨1, 1, .ro⟩, ⟨2, 1, .w1c⟩, ⟨3, 3, .ro⟩], 0x00000000⟩,
   ⟨0x01000000, 16384, 0x40, 1, 0, [⟨0, 5, .ro⟩, ⟨5, 1, .ro⟩, ⟨6, 1, .ro⟩], 0x00000000⟩]

/-- Rows of R452 to R461, part 6. -/
def regRows6 : List RegRow :=
  [⟨0x01000004, 16384, 0x40, 1, 0, [⟨0, 19, .ro⟩], 0x00000000⟩,
   ⟨0x01000008, 16384, 0x40, 1, 0, [⟨0, 16, .ro⟩], 0x00000000⟩,
   ⟨0x0100000C, 16384, 0x40, 1, 0, [⟨0, 16, .ro⟩, ⟨16, 1, .ro⟩, ⟨17, 1, .ro⟩, ⟨18, 1, .w1c⟩, ⟨19, 1, .ro⟩, ⟨20, 1, .ro⟩, ⟨21, 1, .w1c⟩, ⟨22, 1, .w1c⟩, ⟨23, 1, .ro⟩, ⟨24, 1, .ro⟩], 0x00010000⟩,
   ⟨0x01000010, 16384, 0x40, 1, 0, [⟨0, 16, .ro⟩], 0x00000000⟩,
   ⟨0x01000014, 16384, 0x40, 1, 0, [⟨0, 16, .ro⟩, ⟨16, 16, .ro⟩], 0x00000000⟩,
   ⟨0x01000018, 16384, 0x40, 1, 0, [⟨0, 32, .rw⟩], 0x00000000⟩,
   ⟨0x0100001C, 16384, 0x40, 1, 0, [⟨0, 32, .rw⟩], 0x00000000⟩,
   ⟨0x01000020, 16384, 0x40, 1, 0, [⟨0, 32, .rw⟩], 0x00000000⟩,
   ⟨0x01000024, 16384, 0x40, 1, 0, [⟨0, 32, .ro⟩], 0x00000000⟩,
   ⟨0x01000028, 16384, 0x40, 1, 0, [⟨0, 16, .rw⟩], 0x00000000⟩,
   ⟨0x0100002C, 16384, 0x40, 1, 0, [⟨0, 1, .trg⟩, ⟨1, 1, .rw⟩, ⟨2, 1, .rw⟩, ⟨3, 1, .rw⟩], 0x00000000⟩,
   ⟨0x01000030, 16384, 0x40, 1, 0, [⟨0, 32, .wo⟩], 0x00000000⟩,
   ⟨0x01000034, 16384, 0x40, 1, 0, [⟨0, 32, .wo⟩], 0x00000000⟩,
   ⟨0x01000038, 16384, 0x40, 1, 0, [⟨0, 32, .ro⟩], 0x00000000⟩,
   ⟨0x0100003C, 16384, 0x40, 1, 0, [⟨0, 32, .ro⟩], 0x00000000⟩]

/-- Every register of the map, in address order within each table. -/
def regRows : List RegRow := regRows0 ++ regRows1 ++ regRows2 ++ regRows3 ++ regRows4 ++ regRows5 ++ regRows6

/-- Address `a` is one of the registers of a row. -/
def RegRow.has (r : RegRow) (a : Nat) : Bool :=
  if a < r.base then false
  else
    let o := a - r.base
    let i := if r.n1 ≤ 1 then 0 else o / r.s1
    let o2 := if r.n1 ≤ 1 then o else o % r.s1
    i < (if r.n1 = 0 then 1 else r.n1) &&
      (if r.n2 ≤ 1 then o2 == 0 else o2 % r.s2 == 0 && decide (o2 / r.s2 < r.n2))

/-- The row of a register address, if the map lists it. -/
def regRow (a : Nat) : Option RegRow := regRows.find? (·.has a)

/-- The reset value of a register (R11); 0 for an address the map does not list (R10). -/
def regReset (a : Nat) : Word :=
  match regRow a with
  | some r => r.reset
  | none => 0

/-- The power domain whose reef and reset govern an address (R448), or nothing where no block has it. -/
def regDom (a : Nat) : Option (Fin 30) :=
  if a < 0x10000 then (if 0x100 ≤ a ∧ a < 0x114 then some 2 else some 1)
  else if a < 0x30000 then some 0
  else if a < 0x40000 then (if 0x30100 ≤ a ∧ a < 0x30180 then some 0 else some 2)
  else if a < 0x60000 then some 2
  else if a < 0x90000 then some 1
  else if a < 0xA0000 then some 29
  else if a < 0xB0000 then some 1
  else if a < 0xD0000 then some 2
  else if a < 0xE0000 then some 1
  else if a < 0x100000 then none
  else if a < 0x180000 then some (Fin.ofNat 30 (3 + (a - 0x100000) / 0x10000))
  else if a < 0x200000 then none
  else if a < 0x300000 then some (Fin.ofNat 30 (11 + (a - 0x200000) / 0x10000))
  else if a < 0x340000 then some (Fin.ofNat 30 (27 + (a - 0x300000) / 0x20000))
  else if a < 0x400000 then none
  else if a < 0x410000 then some 2
  else if a < 0x500000 then none
  else if a < 0x510000 then some 1
  else if a < 0x1000000 then none
  else if a < 0x1100000 then some 2
  else none

/-- The block is near (R340). -/
def regNear (a : Nat) : Bool :=
  decide (a < 0x30000) || decide (0x30100 ≤ a ∧ a < 0x30180) || decide (0x60000 ≤ a ∧ a < 0x90000)
    || decide (0xA0000 ≤ a ∧ a < 0xB0000) || decide (0xD0000 ≤ a ∧ a < 0xE0000)

end Sys2Proof.Machine
end

