-- ==== Sys2Proof/Machine/Ops.lean ====
section
/-!
DEFINITION. The named operations on the state that every unit shares: registers and counters (R9, R322 to R327),
raising an event (R315), regions and attributes (R78), the backing map (R22, R43), the interleave copy (R21), the
ledger (R216 to R219), domains (R406) and time (R361).
-/

namespace Sys2Proof.Machine

/-! ## Sector reads: the granules that read as zeros without the backing (R79), bit 0 the even one -/

/-- No granule of the sector is read from backing. -/
def MtEnt.zero (e : MtEnt) : Bool := e.zs == 3
def SideEnt.zero (e : SideEnt) : Bool := e.zs == 3
/-- Backing reads of a sector read: one for each granule that is not zero (R228). -/
def zsReads (zs : BitVec 2) : Nat := b2n (!zs.getLsbD 0) + b2n (!zs.getLsbD 1)
/-- A sector's data with zeros for the granules that the backing does not give. -/
def SecData.zeroed (x : SecData) (zs : BitVec 2) : SecData :=
  { d0 := if zs.getLsbD 0 then 0 else x.d0, p0 := !zs.getLsbD 0 && x.p0
    d1 := if zs.getLsbD 1 then 0 else x.d1, p1 := !zs.getLsbD 1 && x.p1 }

namespace Data

def modSlice (d : Data) (n : SliceId) (f : Slice → Slice) : Data := { d with slices := vmod d.slices n f }
def modPort (d : Data) (p : Agent) (f : Port → Port) : Data := { d with ports := vmod d.ports p f }
def modLink (d : Data) (l : LinkId) (f : Link → Link) : Data := { d with links := vmod d.links l f }
def modBkp (d : Data) (b : BkpId) (f : Bkp → Bkp) : Data := { d with bkps := vmod d.bkps b f }
def modBank (d : Data) (r : Requester) (f : Bank → Bank) : Data := { d with banks := vmod d.banks r f }
def modMbx (d : Data) (m : Fin 8) (f : Mbx → Mbx) : Data := { d with mbx := vmod d.mbx m f }
def modDur (d : Data) (f : Dur → Dur) : Data := { d with dur := f d.dur }
def modHlm (d : Data) (f : Hlm → Hlm) : Data := { d with hlm := f d.hlm }
def modEvt (d : Data) (f : Evt → Evt) : Data := { d with evt := f d.evt }
def modPmc (d : Data) (f : Pmc → Pmc) : Data := { d with pmc := f d.pmc }
def modPwr (d : Data) (f : Pwr → Pwr) : Data := { d with pwr := f d.pwr }
def modPtp (d : Data) (f : Ptp → Ptp) : Data := { d with ptp := f d.ptp }
def modPair (d : Data) (f : Pair → Pair) : Data := { d with pair := f d.pair }
def modSvc (d : Data) (f : Service → Service) : Data := { d with svc := f d.svc }
def modStore (d : Data) (f : Store → Store) : Data := { d with store := f d.store }

/-! ## Registers held by address -/

/-- The stored bits of a register. -/
def reg (d : Data) (a : Nat) : Word := SMap.get (regReset a) d.regs a
/-- A field of a stored register. -/
def fld (d : Data) (a lo n : Nat) : Nat := bits (d.reg a).toNat lo n
/-- One bit of a stored register. -/
def flag (d : Data) (a i : Nat) : Bool := (d.reg a).getLsbD i
/-- Stores a whole register. -/
def regSet (d : Data) (a : Nat) (v : Word) : Data := { d with regs := SMap.set (regReset a) d.regs a v }
/-- Stores a field. -/
def fldSet (d : Data) (a lo n v : Nat) : Data :=
  let old := (d.reg a).toNat
  d.regSet a (BitVec.ofNat 32 (old - bits old lo n * 2 ^ lo + (v % 2 ^ n) * 2 ^ lo))
/-- Stores one bit. -/
def flagSet (d : Data) (a i : Nat) (b : Bool) : Data := d.regSet a (setBit (d.reg a) i b)

/-! ## What the hardware does to registers in a cycle (R351, R352) -/

/-- The record of the current cycle. -/
def cycNow (d : Data) : Cyc := if d.cyc.at_ = d.now then d.cyc else { at_ := d.now }
def modCyc (d : Data) (f : Cyc → Cyc) : Data := { d with cyc := f d.cycNow }

/-- The hardware sets W1C bits of a register. -/
def stamp (d : Data) (a : Nat) (m : Word) : Data := d.modCyc fun c => { c with set := SMap.upd 0 c.set a (· ||| m) }
/-- One W1C bit that the register file holds. -/
def raise (d : Data) (a i : Nat) : Data := (d.flagSet a i true).stamp a (BitVec.twoPow 32 i)
/-- A bit of QUE_Dq_STAT. -/
def stampQue (d : Data) (q i : Nat) : Data := d.stamp (Reg.quedStat q) (BitVec.twoPow 32 i)
/-- The address under which a requester's bank of REG_STAT is recorded. -/
def bankReg (r : Requester) : Nat := if r.val < 16 then Reg.aptRegStat r.val else Reg.regStat
/-- A bit of a requester's bank of REG_STAT. -/
def stampBank (d : Data) (r : Requester) (i : Nat) : Data := d.stamp (bankReg r) (BitVec.twoPow 32 i)

/-- The value of a field before the cycle, kept at its first update. -/
def keepWas (d : Data) (a lo v : Nat) : Data :=
  d.modCyc fun c => { c with was := SMap.upd none c.was (32 * a + lo) fun o => some (o.getD v) }

/-- Adds to a counter field that stops at its maximum. -/
def fldCnt (d : Data) (a lo n k : Nat) : Data :=
  (((d.keepWas a lo (d.fld a lo n)).modCyc fun c => { c with inc := SMap.upd 0 c.inc (32 * a + lo) (· + k) }).fldSet a lo n
    (satAdd (2 ^ n - 1) (d.fld a lo n) k))
/-- Raises a peak field to the current value (R9, RC). -/
def fldPeak (d : Data) (a lo n v : Nat) : Data := if d.fld a lo n < v then (d.keepWas a lo (d.fld a lo n)).fldSet a lo n v else d

/-- A capture meets VALID 1: it is held if VALID is cleared in this cycle. -/
def lateCap (d : Data) (a : Nat) (x : LateCap) : Data :=
  d.modCyc fun c => { c with late := SMap.upd none c.late a fun o => some (match o with | some y => { y with again := true } | none => x) }

/-- A capture register with VALID at bit `vb` and MORE at `mb` (if any): held until VALID is cleared (R351). `wide` is the part that
stands outside the register. -/
def capture (d : Data) (a : Nat) (vb : Nat) (mb : Option Nat) (v : Nat) (wide : Nat := 0) : Data :=
  if d.flag a vb then
    let d := d.lateCap a { v := BitVec.ofNat 32 v ||| BitVec.twoPow 32 vb, vb := vb, mb := mb, wide := wide, was := match mb with | some m => d.flag a m | none => false }
    match mb with
    | some m => d.raise a m
    | none => d
  else (d.regSet a ((d.reg a &&& (match mb with | some m => BitVec.twoPow 32 m | none => 0))
    ||| BitVec.ofNat 32 v ||| BitVec.twoPow 32 vb)).stamp a (BitVec.twoPow 32 vb)

/-- A fresh number for what the model creates. -/
def fresh (d : Data) : Nat × Data := (d.seq, { d with seq := d.seq + 1 })

/-- The link of an agent port, and the shroud link. -/
def aptLink (p : Agent) : LinkId := Fin.castLE (by decide : 16 ≤ 17) p
def shdLink : LinkId := 16

/-! ## Domains -/

def domUp (d : Data) (i : Fin 30) : Bool := d.pwr.dom[i] == .up
def slcDom (n : SliceId) : Fin 30 := Fin.ofNat 30 (3 + n.val)
def aptDom (p : Agent) : Fin 30 := Fin.ofNat 30 (11 + p.val)
def bkpDom (b : BkpId) : Fin 30 := Fin.ofNat 30 (27 + b.val / 2)

/-! ## Counters (R322 to R326) -/

/-- Adds to a counter without the guards of D2; one loaded in the cycle emits no carry and sets no overflow bit (R327). -/
def tallyRaw (p : Pmc) (c n : Nat) (loaded : Bool := false) : Pmc × Bool × Bool :=
  let v := SMap.get 0 p.cnt c + n
  let even := decide (c % 2 = 0)
  let chained := p.chain.getLsbD (c / 2)
  if v < 2 ^ 48 ∨ loaded then ({ p with cnt := SMap.set 0 p.cnt c (v % 2 ^ 48) }, false, false)
  else
    let p := { p with cnt := SMap.set 0 p.cnt c (v % 2 ^ 48) }
    if even && chained then (p, true, false)
    else ({ p with ovf := setBit p.ovf c true }, false, !p.ovf.getLsbD c)

/-- Raises event source `src`: sets its pending latch (R315). -/
def ev (d : Data) (src : Nat) : Data := d.modEvt fun e => { e with latch := setBit e.latch src true }

/-- An overflow bit is set: EV0100 is raised where it was 0 (R326). -/
def ovfSet (d : Data) (c : Nat) (new : Bool) : Data :=
  if new then (d.stamp (Reg.pmcOvf (c / 32)) (BitVec.twoPow 32 (c % 32))).ev 100 else d

/-- An addition to a counter, with the carry into the odd counter of a chained pair (R325, R326). -/
def cntAdd (d : Data) (c n : Nat) : Data :=
  let (p, carry, ovf) := tallyRaw d.pmc c n (d.cycNow.loads.contains c)
  let d := { d with pmc := p }.ovfSet c ovf
  if carry then
    let (p, _, ovf) := tallyRaw d.pmc (c + 1) 1 (d.cycNow.loads.contains (c + 1))
    { d with pmc := p }.ovfSet (c + 1) ovf
  else d

/-- An addition of the cycle, recorded for a load of the same cycle (R327). -/
def cntKeep (d : Data) (c n : Nat) : Data :=
  d.modCyc fun y => { y with base := some (y.base.getD (d.pmc.cnt, d.pmc.ovf, d.evt.latch.getLsbD 100)), adds := SMap.upd 0 y.adds c (· + n) }

/-- Counter `c` adds `n`. The odd counter of a chained pair counts only the wraps of its even one (R325); an overflow sets its bit and
raises EV0100 (R326). While D2 is reefed nothing is counted, and what would be counted sets RLOSS (R324). -/
def tallySum (d : Data) (c n : Nat) : Data :=
  if n = 0 ∨ (c % 2 = 1 ∧ d.pmc.chain.getLsbD (c / 2)) then d
  else if !d.domUp 2 then (d.modPmc fun p => { p with rloss := true }).stamp Reg.pmcStat (BitVec.twoPow 32 16)
  else (d.cntKeep c n).cntAdd c n

/-- A happening of counter `c`, `n` times in the cycle (R322): a counter adds up to 64 (R323). -/
def tally (d : Data) (c : Nat) (n : Nat := 1) : Data := d.tallySum c (min n 64)

def pmcSlc (d : Data) (n : SliceId) (j : Nat) (k : Nat := 1) : Data := d.tally (64 + 40 * n.val + j) k
def pmcApt (d : Data) (p : Agent) (j : Nat) (k : Nat := 1) : Data := d.tally (384 + 6 * p.val + j) k
def pmcBkp (d : Data) (b : BkpId) (j : Nat) (k : Nat := 1) : Data := d.tally (480 + 6 * b.val + j) k

/-! ## Event sources by block (R311) -/

def evDur (d : Data) (i : Nat) : Data := d.ev (32 + i)
def evSto (d : Data) (i : Nat) : Data := d.ev (48 + i)
def evMgt (d : Data) (i : Nat) : Data := d.ev (64 + i)
def evQue (d : Data) (i : Nat) : Data := d.ev (128 + i)
def evSlc (d : Data) (n : SliceId) (i : Nat) : Data := d.ev (192 + 48 * n.val + i)
def evApt (d : Data) (p : Agent) (i : Nat) : Data := d.ev (576 + 24 * p.val + i)
def evBkp (d : Data) (b : BkpId) (i : Nat) : Data := d.ev (960 + 8 * b.val + i)
def evShd (d : Data) (i : Nat) : Data := d.ev (992 + i)
def evHlm (d : Data) (i : Nat) : Data := d.ev (1008 + i)

/-! ## The rig -/

def active (d : Data) (n : SliceId) : Bool := match d.rig with | some r => r.active.getLsbD n.val | none => false
/-- PORTS entry of an agent port (R42); 0 where no rig is loaded. -/
def portCfg (d : Data) (p : Agent) : Word := match d.rig with | some r => r.ports.getD p.val 0 | none => 0
def portEn (d : Data) (p : Agent) : Bool := (d.portCfg p).getLsbD 0
/-- PERMS entry of an agent (R51). -/
def perm (d : Data) (p : Agent) : Word := match d.rig with | some r => r.perms.getD p.val 0 | none => 0
def regions (d : Data) : List Region := match d.rig with | some r => r.regions | none => []
def paired (d : Data) : Bool := match d.rig with | some r => r.paired | none => false
def member (d : Data) : Bool := match d.rig with | some r => r.member | none => false
def ways (d : Data) : Nat := match d.rig with | some r => r.ways | none => 4
/-- A backing port is used (R22). -/
def bkpUsed (d : Data) (b : BkpId) : Bool := d.rig.isSome && decide (b.val < d.ways)
def usedBkps (d : Data) : List BkpId := allBkps.filter d.bkpUsed
def activeSlices (d : Data) : List SliceId := allSlices.filter d.active
/-- The rig is compact (R341). -/
def compact (d : Data) : Bool :=
  match d.rig with
  | some r => decide ((allAgents.filter fun p => (r.ports.getD p.val 0).getLsbD 0).length ≤ 8) &&
      decide (popcount r.active ≤ 4)
  | none => false

/-! ## Regions (R78, R79, R80) -/

end Data

/-- The number and entry of the region that holds granule `ga` (R78). -/
def regionIn (rs : List Region) (ga : Nat) : Option (Nat × Region) :=
  (rs.zipIdx.find? fun x =>
    decide (x.1.base ≤ ga * 64 ∧ ga * 64 < x.1.base + x.1.size * 2097152)).map fun x => (x.2, x.1)

/-- ATTR of a granule's region; 0 in no region (R78). -/
def attrIn (rs : List Region) (ga : Nat) : Word :=
  match regionIn rs ga with
  | some (_, r) => r.attr
  | none => 0

def durIn (rs : List Region) (ga : Nat) : Bool := (attrIn rs ga).getLsbD 2
/-- A write-back region: CACHEABLE and WB (R78). -/
def wbIn (rs : List Region) (ga : Nat) : Bool := (attrIn rs ga).getLsbD 0 && (attrIn rs ga).getLsbD 1
def cacheIn (rs : List Region) (ga : Nat) : Bool := (attrIn rs ga).getLsbD 0
def allocIn (rs : List Region) (ga : Nat) : Bool := (attrIn rs ga).getLsbD 0 && (attrIn rs ga).getLsbD 3
def streamIn (rs : List Region) (ga : Nat) : Bool := (attrIn rs ga).getLsbD 0 && (attrIn rs ga).getLsbD 4
def mirrorIn (rs : List Region) (ga : Nat) : Bool := (attrIn rs ga).getLsbD 6

namespace Data

/-- The region number of a granule, 64 for none. -/
def rgnNo (d : Data) (ga : Nat) : Nat := match regionIn d.regions ga with | some (n, _) => n | none => 64
def durable (d : Data) (ga : Nat) : Bool := durIn d.regions ga

/-! ## Backing interleave and map (R22, R43, R227, R231) -/

/-- The port of a granule. -/
def bkpOf (d : Data) (ga : Nat) : BkpId :=
  if d.ways = 4 then Fin.ofNat 4 (bits ga 6 2) else if d.ways = 2 then Fin.ofNat 4 (bits ga 6 1) else 0
/-- The port-local byte address of a granule. -/
def bkpLocal (d : Data) (ga : Nat) : Nat :=
  if d.ways = 4 then (ga / 256 * 64 + ga % 64) * 64
  else if d.ways = 2 then (ga / 128 * 64 + ga % 64) * 64
  else ga * 64
/-- The granule lies in the backing map; a failed port's capacity counts as 0 (R231). -/
def inMap (d : Data) (ga : Nat) : Bool :=
  let b := d.bkpOf ga
  decide (ga < 2 ^ 36) && d.bkpUsed b && d.bkps[b].st != .failed && d.bkps[b].st != .unused &&
    decide (d.bkpLocal ga < d.bkps[b].mapGib * 2 ^ 30)
def bkpFailed (d : Data) (ga : Nat) : Bool := d.bkps[d.bkpOf ga].st == .failed

/-! ## The interleave copy (R17, R18, R21) -/

def ilvAt (d : Data) (bucket : Nat) : Byte := d.ilv[Fin.ofNat 256 bucket]
def ilvOf (d : Data) (ga : Nat) : Byte := d.ilvAt (bucketOf (lineOf ga))
def homeOf (d : Data) (ga : Nat) : SliceId := Fin.ofNat 8 (d.ilvOf ga).toNat
def memberOf (d : Data) (ga : Nat) : Bool := (d.ilvOf ga).getLsbD 3
def fencedAt (d : Data) (ga : Nat) : Bool := (d.ilvOf ga).getLsbD 4
/-- Applies `f` to the entries of the buckets that satisfy `p`. -/
def ilvMod (d : Data) (p : Nat → Byte → Bool) (f : Nat → Byte → Byte) : Data :=
  { d with ilv := d.ilv.mapIdx fun i e => if p i e then f i e else e }
/-- This device homes the granule: unpaired, or MEMBER of its bucket is its own (R24, R140). -/
def homed (d : Data) (ga : Nat) : Bool := !d.paired || d.memberOf ga == d.member

/-- The granule lies in the half taken over from the partner (R82, R392). -/
def takenHalf (d : Data) (ga : Nat) : Bool :=
  match d.rig with
  | some r => r.paired && d.pair.takenOver && ((r.ilv.getD (bucketOf (lineOf ga)) 0).getLsbD 3 != r.member)
  | none => false

/-- Zero-on-first-touch governs the granule: INIT 0b01, SIZE at most 2,048, not in a taken-over half (R79, R80, R82). -/
def zeroInit (d : Data) (ga : Nat) : Bool :=
  match regionIn d.regions ga with
  | some (n, r) => bits r.attr.toNat 7 2 == 1 && !d.touchDem.getLsbD n && !d.takenHalf ga
  | none => false
/-- The touch bit of a granule (R80). -/
def touchBit (d : Data) (ga : Nat) : Nat :=
  match regionIn d.regions ga with
  | some (n, r) => n * 2 ^ 26 + (ga - r.base / 64)
  | none => 0

/-- The cache is disabled for a granule at slice `n` (R121). -/
def disabled (d : Data) (n : SliceId) (ga : Nat) : Bool :=
  d.slices[n].cdis || (d.rgnNo ga < 64 && d.byp.getLsbD (d.rgnNo ga))

/-! ## The ledger (R216 to R221) -/

def budget (d : Data) : Nat :=
  match d.dur.bPrev with
  | some (b, t) => if d.now ≤ t then b else (d.reg Reg.durBudget).toNat
  | none => (d.reg Reg.durBudget).toNat
/-- The BUD threshold; values below 1,024 act as 1,024 (DUR_GUARD). -/
def guard (d : Data) : Nat := max 1024 (d.reg Reg.durGuard).toNat
/-- E + Rv. -/
def load (d : Data) : Nat := d.dur.e + d.dur.rv
/-- The room A (R219), 0 where the exposure exceeds B. -/
def room (d : Data) : Nat := d.budget - d.load
/-- BUD (R219, R171): A below the guard, or a power failure recognised. -/
def bud (d : Data) : Bool := d.dur.tr.isSome || decide (d.load + d.guard > d.budget)

/-- BUD has become 0: every request that waits for it is released (R224). -/
def budRelease (d : Data) : Data :=
  let f : Waiter → Waiter := fun w => match w.loc with | .retry (.budget _) => { w with rel := true } | _ => w
  { d with slices := d.slices.map fun s => { s with waiters := s.waiters.map f } }

/-- Follows a change of the ledger: the peak, OVER (R221), early cleaning (R223), the event of BUD (R254) and its end (R224). -/
def ledgerSettle (d : Data) : Data :=
  let l := d.load
  let b := d.budget
  let past := decide (l > b)
  let d := if past && !d.dur.past then d.evDur 11 else d
  let bud := d.bud
  let d := if bud && !d.dur.bud && d.dur.tr.isNone then d.evDur 1 else d
  let d := if d.dur.bud && !bud then d.budRelease else d
  let d := if d.dur.peak < l then d.keepWas Reg.durPeak 0 d.dur.peak else d
  let hi := d.fld Reg.durCfg 0 4
  let lo := d.fld Reg.durCfg 4 4
  let start := decide (l * 16 ≥ b * hi) || bud
  let stop := decide (l * 16 < b * lo) && !bud
  let cl := if d.dur.cleaning then !stop else start
  let d := if cl && !d.dur.cleaning then d.evDur 2 else d
  d.modDur fun u => { u with peak := max u.peak l, past := past, bud := bud, cleaning := cl }

/-- Charges `n` units. -/
def charge (d : Data) (n : Nat) : Data := (d.modDur fun u => { u with e := u.e + n }).tally 10 n
/-- Credits `n` units. -/
def credit (d : Data) (n : Nat) : Data := (d.modDur fun u => { u with e := u.e - n }).tally 11 n

/-- Adds to the losses of a region (R240); a granule of no region has none. -/
def lossAdd (d : Data) (rgn : Nat) (l : Loss) : Data :=
  if rgn < 64 then
    d.modDur fun u => { u with loss := SMap.upd {} u.loss rgn fun x => { agent := x.agent + l.agent, drain := x.drain + l.drain, persist := x.persist + l.persist } }
  else d

/-! ## Reload (R63) -/

/-- A failover or the fencing of a slice begins: a reload that has not switched is abandoned. -/
def reloadCut (d : Data) : Data := { d with reload := d.reload.map fun r => { r with cut := true } }

/-! ## Time (R361, R253) -/

/-- IEEE 1588 time in nanoseconds: the counter runs on from its base, 5 ns in 8 cycles. -/
def timeNs (d : Data) : Nat := d.ptp.baseNs + (d.now - d.ptp.baseAt) * 5 / 8
def timeSec (d : Data) : Nat := d.timeNs / 1000000000 % 2 ^ 48
def timeNsec (d : Data) : Nat := d.timeNs % 1000000000
/-- TFLAG (R253, R362). -/
def tflag (d : Data) : Nat := if d.ptp.locked then 0 else if d.ptp.ever then 1 else 2

/-- A free value (assumption 12). -/
def freeVal (d : Data) : BitVec 64 × Data := (Config.freeValue d.free, { d with free := d.free + 1 })

/-- Folds a state change over a list. -/
def each {α : Type} (d : Data) (l : List α) (f : Data → α → Data) : Data := l.foldl f d

/-- Applies `f` where `b` holds. -/
def when (d : Data) (b : Bool) (f : Data → Data) : Data := if b then f d else d

end Data

end Sys2Proof.Machine
end

