-- ==== Sys2Proof/Machine/Store.lean ====
section
/-!
DEFINITION. The cache store as operations: where a codeword lies (R83 to R86), reading and writing one (R256 to R260,
R264, R274), frame parity (R261, R262) and its recovery (R263), row errors and sparing (R272), the touch map (R79,
R80) and the staging areas.
-/

namespace Sys2Proof.Machine

/-! ## Where codewords lie (R83 to R86) -/

/-- Codewords in a pseudo-channel (R270). -/
def pcCw : Nat := 7864320

/-- Number of codeword `i` of pseudo-channel `pc`. -/
def cwKey (pc i : Nat) : Nat := pc * pcCw + i

/-- Codeword `g` of the frame of way `way` of set `set` in slice `n` (R85). -/
def frameKey (n : SliceId) (set way g : Nat) : Nat :=
  let f := set * 16 + way
  cwKey (4 * n.val + f % 4) (f / 4 * 34 + g)

/-- The striped areas of R84 with their first codeword. -/
inductive Area where
  | touch | journal | firmware | mirror
deriving DecidableEq, Repr

def areaBase : Area → Nat
  | .touch => 4980736
  | .journal => 5242880
  | .firmware => 5275648
  | .mirror => 5636096

/-- Codeword `q` of a striped area (R86). -/
def areaKey (a : Area) (q : Nat) : Nat :=
  let u := q / 16
  cwKey (u % 32) (areaBase a + u / 32 * 16 + q % 16)

/-- Backstop set `b` of slice `n` (R86, R135). -/
def bstKey (n : SliceId) (b : Nat) : Nat :=
  let u := b / 16
  cwKey (4 * n.val + u % 4) (4456448 + u / 4 * 16 + b % 16)

/-- AREA of a codeword (STO_ERR_CAP). -/
def areaOf (i : Nat) : Nat :=
  if i < 4456448 then 0 else if i < 4980736 then 1 else if i < 5242880 then 2 else if i < 5275648 then 3
  else if i < 5636096 then 4 else 5

/-- The store address of a codeword's first byte (R83). -/
def cwAddr (k : Nat) : Nat := k / pcCw * 2 ^ 29 + k % pcCw * 68

/-- The rows of its pseudo-channel that a codeword touches (R272). -/
def cwRows (k : Nat) : List Nat :=
  let o := k % pcCw * 68
  if o / 1024 = (o + 67) / 1024 then [o / 1024] else [o / 1024, (o + 67) / 1024]

/-- The frames (slot numbers of R85) whose codewords touch a row of a pseudo-channel (R88). -/
def rowFrames (row : Nat) : List Nat :=
  let a := row * 1024 / 2312
  let b := (row * 1024 + 1023) / 2312
  (if a = b then [a] else [a, b]).filter fun x => decide (x < 131072)

/-- What a granule reads as: data, or uncorrectable with the stored payload. -/
structure GRead where
  d : Gran := 0
  poison : Bool := false
  bad : Bool := false
deriving DecidableEq, Repr

namespace Data

/-! ## Error capture (R275, R276) -/

/-- AREA of a codeword as it stands: 6 where a row that it touches is replaced by a spare (assumption 61). -/
def stArea (d : Data) (k : Nat) : Nat :=
  if (cwRows k).any fun r => d.store.remap.contains (k / pcCw, r) then 6 else areaOf (k % pcCw)

/-- STO_ERR_CAP: an error of KIND 1 to 3 replaces a held one of KIND 0. -/
def stCapture (d : Data) (k sym kind : Nat) : Data :=
  let v := k / pcCw + at_ sym 5 + at_ kind 12 + at_ (d.stArea k) 14
  let r := Reg.stoErrCap
  if d.flag r 17 ∧ ¬ (d.fld r 12 2 = 0 ∧ kind ≠ 0) then
    (d.lateCap r { v := BitVec.ofNat 32 (v + at_ 1 17), vb := 17, mb := some 18, wide := cwAddr k, was := d.flag r 18 }).raise r 18
  else
    let more := d.flag r 17 || d.flag r 18
    let d := (d.regSet r (BitVec.ofNat 32 (v + at_ 1 17 + at_ (b2n more) 18))).stamp r (BitVec.ofNat 32 (at_ 1 17 + at_ (b2n (d.flag r 17)) 18))
    d.modStore fun s => { s with capAddr := cwAddr k }

/-! ## Single codewords -/

def cwGet (d : Data) (k : Nat) : BitVec 544 := SMap.get 0 d.store.cw k

/-- The flip-mask of R274 as a codeword. -/
def flipMask (d : Data) : BitVec 544 :=
  let lo := (d.reg Reg.stoFlipLo).toNat + (d.reg Reg.stoFlipMid).toNat * 2 ^ 32
  BitVec.ofNat 544 (at_ lo (64 * d.fld Reg.stoFlipHi 8 3) + at_ (d.fld Reg.stoFlipHi 0 8) (512 + 8 * d.fld Reg.stoFlipHi 11 2))

def stCount (d : Data) (who : Option SliceId) (c : Nat) : Data :=
  let d := d.tally c
  match who with
  | some n => d.tally (32 + n.val)
  | none => d

/-- The flip-mask is armed for a pseudo-channel. -/
def flipArmed (d : Data) (pc : Nat) : Bool := d.flag Reg.stoFlipHi 18 && d.fld Reg.stoFlipHi 13 5 == pc
/-- The flip-mask has been applied. -/
def flipDone (d : Data) : Data := (d.flagSet Reg.stoFlipHi 18 false).evSto 7

/-- Writes a codeword, through the flip-mask where it is armed for the pseudo-channel (R274). -/
def cwPut (d : Data) (who : Option SliceId) (k : Nat) (c : BitVec 544) : Data :=
  let d := d.stCount who 25
  let put := fun (d : Data) c => d.modStore fun s => { s with cw := SMap.set 0 s.cw k c }
  if d.flipArmed (k / pcCw) then (put d (c ^^^ d.flipMask)).flipDone else put d c

/-- Writes a granule with its light code, poisoned or not (R258, R260). -/
def granPut (d : Data) (who : Option SliceId) (k : Nat) (g : Gran) (poison : Bool) : Data :=
  d.cwPut who k (cwMake g poison)

/-! ## Rows (R87, R272) -/

/-- Spares used of a pseudo-channel, those that failed their read-back included. -/
def spares (d : Data) (pc : Nat) : Nat := (d.store.remap.filter fun x => x.1 == pc).length

/-- A row is called for sparing, or for retirement once no spare is left (R87, R88, R272). -/
def rowCall (d : Data) (pc row : Nat) : Data :=
  d.modStore fun s =>
    { s with rowCe := s.rowCe.filter fun x => !(x.1 == pc && x.2.1 == row)
             calls := if s.calls.contains (pc, row) then s.calls else s.calls.concat (pc, row) }

/-- An uncorrectable codeword calls the rows that it touches. -/
def rowsCall (d : Data) (k : Nat) : Data := (cwRows k).foldl (fun d r => d.rowCall (k / pcCw) r) d

/-- Counts a correctable error of a row (R272): a table of 64 rows for each pseudo-channel, the most recent first. -/
def rowError (d : Data) (pc row : Nat) : Data :=
  let c := match d.store.rowCe.find? fun x => x.1 == pc && x.2.1 == row with
    | some x => x.2.2 + 1
    | none => 1
  if c ≥ act1 (d.fld Reg.stoEccCfg 9 4) then d.rowCall pc row
  else
    d.modStore fun s =>
      let rest := s.rowCe.filter fun x => !(x.1 == pc && x.2.1 == row)
      let mine := (rest.filter fun x => x.1 == pc).take 63
      { s with rowCe := (pc, row, c) :: mine ++ rest.filter fun x => x.1 != pc }

/-! ## Reading (R259, R264) -/

/-- Reads a codeword: a correctable one is corrected, written back and counted. An uncorrectable one calls its rows
for sparing; its recovery is the reader's. -/
def cwRead (d : Data) (who : Option SliceId) (k : Nat) : Data × GRead :=
  let d := d.stCount who 24
  let c := d.cwGet k
  if c = 0 then (d, {})
  else match cwDecode c with
  | .good g => (d, { d := g })
  | .poison g => (d, { d := g, poison := true })
  | .fixed g j =>
    let d := d.cwPut who k (cwMake g false)
    let d := (((d.fldCnt Reg.stoCeCnt 0 32 1).tally 26).evSto 0).stCapture k j 0
    (d.rowError (k / pcCw) ((k % pcCw * 68 + j) / 1024), { d := g })
  | .bad g => (d.rowsCall k, { d := g, bad := true })

/-! ## Replacing a row (R87, R88, R272) -/

/-- The codewords that touch a row. -/
def rowCws (pc row : Nat) : List Nat :=
  ((List.range 17).map fun i => row * 1024 / 68 + i).filterMap fun i =>
    if i < pcCw ∧ (cwRows (cwKey pc i)).contains row then some (cwKey pc i) else none

/-- A codeword of the row is uncorrectable, and the copy waits for its recovery. -/
def rowBad (d : Data) (pc row : Nat) : List (Nat × Gran) :=
  (rowCws pc row).filterMap fun k => match cwDecode (d.cwGet k) with | .bad g => some (k, g) | _ => none

/-- The slice that a codeword of the frame area or of the backstop is read and written for (R322). -/
def cwSlice (k : Nat) : Option SliceId := if areaOf (k % pcCw) ≤ 1 then some (Fin.ofNat 8 (k / pcCw / 4)) else none

/-- Copies each codeword that touches a row, corrected where it reads correctable. -/
def rowCopy (d : Data) (pc row : Nat) : Data :=
  (rowCws pc row).foldl (fun d k =>
    let (d, r) := d.cwRead (cwSlice k) k
    if r.bad then d else d.cwPut (cwSlice k) k (cwMake r.d r.poison)) d

/-- Takes a spare: it is written and read back, and one that reads back wrong, because the flip-mask struck its write, is
consumed and the next is tried. -/
def spareTake (d : Data) (pc row : Nat) : Data :=
  if d.flipArmed pc then
    let bad := d.flipMask != 0
    let d := d.flipDone
    let d := d.modStore fun s => { s with unsaved := true }
    if bad then d.modStore fun s => { s with remap := if d.spares pc + 1 < 2048 then (pc, row) :: (pc, 524288) :: s.remap else (pc, 524288) :: s.remap }
    else d.modStore fun s => { s with remap := (pc, row) :: s.remap }
  else d.modStore fun s => { s with remap := (pc, row) :: s.remap, unsaved := true }

/-- Calls for the retirement of the ways whose frames touch a row: a RETIRE of each that is not yet retired (R88). -/
def rowRetire (d : Data) (pc row : Nat) : Data :=
  let n : SliceId := Fin.ofNat 8 (pc / 4)
  (rowFrames row).foldl (fun (d : Data) x =>
    let f := x * 4 + pc % 4
    let set := f / 16
    let way := f % 16
    let sl := d.slices[n]
    if (SMap.get {} sl.sets set).ret.getLsbD way || sl.mnt.any (fun o => o.op == 3 && o.set == set && o.way == way)
    then d
    else
      let id := d.seq
      let d := d.fresh.2
      let d := { d with mnts := d.mnts.concat ({ id := id, owner := .spare, slices := [n], left := [n] }) }
      let op : MntOp := { id := id, op := 3, scope := 2, set := set, way := way, regs := d.regions, accepted := d.now }
      d.modSlice n fun s => { s with mnt := s.mnt.concat op }) d

/-- Replaces a called row whose codewords have all been recovered: with a spare, or by retirement once none is left. -/
def rowSwitch (d : Data) (pc row : Nat) : Data :=
  let gone := fun (d : Data) => d.modStore fun s =>
    { s with calls := s.calls.filter (· != (pc, row)), rowCe := s.rowCe.filter fun x => !(x.1 == pc && x.2.1 == row) }
  if d.spares pc < 2048 then
    let old := (d.store.remap.filter (· == (pc, row))).length
    let d := d.spareTake pc row
    let d := if d.spares pc = 2048 then (d.modStore fun s => { s with exhausted := true }).evSto 4 else d
    if (d.store.remap.filter (· == (pc, row))).length = old then gone (d.rowRetire pc row)
    else gone (((d.rowCopy pc row).evSto 3).tally 30)
  else gone (d.rowRetire pc row)

/-- Counts `m` granules recovered by R263 rows 1 to 3, or a codeword zeroed (R271). -/
def stRecovered (d : Data) (k m : Nat) : Data :=
  (((d.fldCnt Reg.stoUeCnt 0 16 m).tally 27 m).evSto 1).stCapture k 127 1

/-- Row 4 of R263: the granule is rewritten poisoned with its stored payload. -/
def stPoisoned (d : Data) (who : Option SliceId) (k : Nat) (g : Gran) : Data :=
  (((((d.granPut who k g true).fldCnt Reg.stoUeCnt 16 16 1)).tally 28).evSto 2).stCapture k 127 2

/-- An uncorrectable codeword outside the frame area is rewritten (R271). -/
def stOutside (d : Data) (who : Option SliceId) (k : Nat) (c : BitVec 544) : Data :=
  ((d.cwPut who k c).evSto 6).stCapture k 127 3

/-! ## Frames (R261 to R263) -/

/-- Reads the codewords of a frame: the granules of present sectors and the two parity granules, of which granule `g` has
been read as `r`; those of absent sectors count as zero. -/
def frameScan (d : Data) (n : SliceId) (set way : Nat) (sv : BitVec 16) (g : Nat) (r : GRead) : Data × List GRead :=
  (List.range 34).foldl (fun a i =>
    if i = g then (a.1, a.2.concat r)
    else if i < 32 ∧ !sv.getLsbD (i / 2) then (a.1, a.2.concat {})
    else
      let (d, x) := a.1.cwRead (some n) (frameKey n set way i)
      (d, a.2.concat x)) (d, [])

/-- Row 1 of R263 for granule `g` of a present sector or of the parity, read as `r`: the erased granules and their data, where
frame parity is usable and at most two are erased. -/
def frameSolve (d : Data) (n : SliceId) (set way : Nat) (sv : BitVec 16) (stale : Bool) (g : Nat) (r : GRead) :
    Data × Option (List (Nat × Gran)) :=
  if stale || (decide (g < 32) && !sv.getLsbD (g / 2)) then (d, none)
  else
    let (d, l) := d.frameScan n set way sv g r
    let er := (List.range 34).filter fun g => (l.getD g {}).bad
    let par := (l.getD 32 {}).poison || (l.getD 33 {}).poison
    if par || decide (er.length > 2) then (d, none)
    else (d, some (paritySolve (l.map fun x => if x.bad then 0 else x.d) er))

/-- Rewrites the granules that row 1 restores. -/
def frameRestore (d : Data) (n : SliceId) (set way : Nat) (l : List (Nat × Gran)) : Data :=
  l.foldl (fun d x => (d.granPut (some n) (frameKey n set way x.1) x.2 false).stRecovered (frameKey n set way x.1) 1) d

/-- The data that row 1 restores for granule `g`. -/
def solved (l : List (Nat × Gran)) (g : Nat) : Gran := ((l.find? fun x => x.1 == g).map (·.2)).getD 0

/-- An allocation writes both parity granules as zeros (R262). -/
def frameClear (d : Data) (n : SliceId) (set way : Nat) : Data :=
  (d.granPut (some n) (frameKey n set way 32) 0 false).granPut (some n) (frameKey n set way 33) 0 false

/-- Reads a parity granule for an update: an uncorrectable one is rebuilt under row 1, else poisoned (R262, R263, R271). -/
def parRead (d : Data) (n : SliceId) (set way g : Nat) (sv : BitVec 16) (stale : Bool) : Data × GRead :=
  let (d, r) := d.cwRead (some n) (frameKey n set way g)
  if !r.bad then (d, r)
  else
    match d.frameSolve n set way sv stale g r with
    | (d, some l) => (d.frameRestore n set way l, { d := solved l g })
    | (d, none) => (d.stPoisoned (some n) (frameKey n set way g) r.d, { d := r.d, poison := true })

/-- A granule of a present sector of the line is stored poisoned. -/
def framePoison (d : Data) (n : SliceId) (set way : Nat) (sv : BitVec 16) : Bool :=
  (List.range 32).any fun g => sv.getLsbD (g / 2) &&
    (match cwDecode (d.cwGet (frameKey n set way g)) with | .poison _ => true | _ => false)

/-- A sector fill: both granules written and their contributions added to the parity (R262); `sv` names the sectors present
before it, `stale` is PS. -/
def frameFill (d : Data) (n : SliceId) (set way sec : Nat) (sv : BitVec 16) (stale : Bool) (x : SecData) : Data :=
  let (d, a) := d.parRead n set way 32 sv stale
  let (d, b) := d.parRead n set way 33 sv stale
  let d := d.granPut (some n) (frameKey n set way (2 * sec)) x.d0 x.p0
  let d := d.granPut (some n) (frameKey n set way (2 * sec + 1)) x.d1 x.p1
  let c0 := parityAdd (2 * sec) x.d0
  let c1 := parityAdd (2 * sec + 1) x.d1
  let p := a.poison || b.poison || x.p0 || x.p1 || d.framePoison n set way sv
  (d.granPut (some n) (frameKey n set way 32) (a.d ^^^ c0.1 ^^^ c1.1) p).granPut (some n) (frameKey n set way 33)
    (b.d ^^^ c0.2 ^^^ c1.2) p

/-- Parity recomputed from the granules of the present sectors, with its poison (R261, R262, R268). -/
def frameParity (ds : List GRead) : Gran × Gran × Bool :=
  let p := parity (ds.map (·.d))
  (p.1, p.2, ds.any (·.poison))

/-! ## Touch map (R79, R80, R271) -/

/-- Reads the codeword that holds a touch bit; an uncorrectable one is rewritten with every bit set. -/
def touchRead (d : Data) (n : SliceId) (bit : Nat) : Data × Gran :=
  let k := areaKey .touch (bit / 512)
  let (d, r) := d.cwRead (some n) k
  if r.bad then (d.stOutside (some n) k (cwMake (BitVec.allOnes 512) false), BitVec.allOnes 512) else (d, r.d)

/-- The granules of a sector (bit 0 the even one) that a read returns as zeros without reading the backing (R79). -/
def touchZero (d : Data) (n : SliceId) (sec : Nat) : Data × BitVec 2 :=
  if d.zeroInit (2 * sec) then
    let (d, g) := d.touchRead n (d.touchBit (2 * sec))
    let k := d.touchBit (2 * sec) % 512
    (d, BitVec.ofNat 2 (b2n (!g.getLsbD k) + at_ (b2n (!g.getLsbD (k + 1))) 1))
  else (d, 0)

/-- An accepted write sets the granule's touch bit (R79). -/
def touchSet (d : Data) (n : SliceId) (ga : Nat) : Data :=
  if d.zeroInit ga then
    let (d, g) := d.touchRead n (d.touchBit ga)
    if g.getLsbD (d.touchBit ga % 512) then d
    else d.granPut (some n) (areaKey .touch (d.touchBit ga / 512)) (setBit g (d.touchBit ga % 512) true) false
  else d

/-- Codewords of a pseudo-channel have been written as zeros, codeword `k` first: it takes an armed flip-mask (R274). -/
def zeroFirst (d : Data) (k : Nat) : Data :=
  if d.flipArmed (k / pcCw) then (d.modStore fun s => { s with cw := SMap.set 0 s.cw k d.flipMask }).flipDone else d

/-- The touch window that a codeword belongs to. -/
def touchWin (k : Nat) : Option Nat :=
  let i := k % pcCw
  if 4980736 ≤ i ∧ i < 5242880 then some ((((i - 4980736) / 16 * 32 + k / pcCw) * 16 + i % 16) / 131072) else none

/-- Clears the touch window of a region (R81). -/
def touchClear (d : Data) (rgn : Nat) : Data :=
  (d.modStore fun s => { s with cw := s.cw.filter fun x => touchWin x.1 != some rgn }).zeroFirst
    (areaKey .touch (16 * (rgn * 8192 + d.fld Reg.stoFlipHi 13 5)))

/-- Exchanges the region table and the cleared touch windows for those before the last switch cycle. -/
def swapOld (d : Data) : Data :=
  match d.prev with
  | none => d
  | some o =>
    let mine := fun (x : Nat × BitVec 544) => match touchWin x.1 with | some w => o.diff.contains w | none => false
    let cw := o.touch.foldl (fun (m : SMap (BitVec 544)) x => SMap.set 0 m x.1 x.2) (d.store.cw.filter fun x => !mine x)
    let prev := { o with regions := d.regions, dem := d.touchDem, touch := d.store.cw.filter mine }
    { d.modStore fun s => { s with cw := cw } with rig := d.rig.map fun r => { r with regions := o.regions }, touchDem := o.dem, prev := some prev }

/-- A step of something accepted before the last switch cycle runs under the table before it: the touch bits that it sets are
lost with the cleared windows (R62, R81). -/
def asOld (d : Data) (b : Bool) (f : Data → Data) : Data := if b && d.prev.isSome then (f d.swapOld).swapOld else f d

/-! ## Journal staging (R239, R242) -/

/-- Writes a record into journal staging from payload byte 0. -/
def stageWrite (d : Data) (l : List Byte) : Data :=
  (List.range 256).foldl (fun d i => d.granPut none (areaKey .journal i) (granOf (sub l (64 * i) 64)) false) d

end Data

end Sys2Proof.Machine
end

