-- ==== Sys2Proof/Machine/Queues.lean ====
section
/-!
DEFINITION. The queue engine as operations (R291 to R310): words, push, pop, full policies, GAP markers, flush, open
items, and what device producers and consumers do with a queue.
-/

namespace Sys2Proof.Machine

/-- What a pop returns (R301). -/
structure QPop where
  data : Dword
  eop : Bool := false
  poison : Bool := false
  under : Bool := false
  perm : Word := BitVec.allOnes 32
deriving DecidableEq, Repr

namespace Data

/-! ## Descriptors (R46, R293, R295) -/

/-- The record that assigns queue `q`. -/
def qRec (d : Data) (q : Nat) : Option QRec :=
  match d.rig with
  | some r => r.queues.find? fun x => decide (x.first ≤ q ∧ q < x.first + x.num)
  | none => none

/-- The first pool word of queue `q`: the words of every assigned queue with a lower number (R293). -/
def qBase (d : Data) (q : Nat) : Nat :=
  match d.rig with
  | some r => (r.queues.map fun x => (if q ≤ x.first then 0 else min x.num (q - x.first)) * x.depth).sum
  | none => 0

def que1 (d : Data) (q : Nat) : Que := SMap.get {} d.que q
def modQue (d : Data) (q : Nat) (f : Que → Que) : Data := { d with que := SMap.upd {} d.que q f }
/-- Whole items held (R298). -/
def qPkt (d : Data) (q : Nat) : Nat := ((d.que1 q).words.filter fun w => w.eop).length
def qOwner (d : Data) (q : Nat) : Nat := match d.qRec q with | some r => r.owner | none => 31
/-- Words held in all queues. -/
def qUsed (d : Data) : Nat := (d.que.map fun x => x.2.words.length).sum

/-- Raises queue event `i` for queue `q` with its capture (R309). -/
def qEv (d : Data) (i q : Nat) : Data :=
  (d.evQue i).capture Reg.queEvcap 17 (some 18) (q + at_ i 14)

/-- A device producer or consumer meets an unassigned queue: index 6 once for each queue and start (R295). -/
def qOnce (d : Data) (q : Nat) : Data :=
  if d.queOnce.contains q then d else { d with queOnce := insNat q d.queOnce }.qEv 6 q

end Data

/-- The parity bit of a word (R291). -/
def qPar (data : Dword) (eop poison : Bool) : Bool :=
  decide ((popcount data + b2n eop + b2n poison) % 2 = 1)

def qWord (data : Dword) (eop : Bool := false) (poison : Bool := false) (perm : Word := BitVec.allOnes 32) : QWord :=
  { data := data, eop := eop, poison := poison, par := qPar data eop poison, perm := perm }

/-- A pool word struck by an upset of its 67 bits (R291, R292). -/
def QWord.flip (w : QWord) (m : BitVec 67) : QWord :=
  { w with data := w.data ^^^ m.truncate 64, eop := w.eop ^^ m.getLsbD 64, poison := w.poison ^^ m.getLsbD 65, par := w.par ^^ m.getLsbD 66 }
/-- The word fails its parity check (R291). -/
def QWord.bad (w : QWord) : Bool := w.par != qPar w.data w.eop w.poison

namespace Data

/-- The cycle of the queue engine's clock: two slice cycles. -/
def qCycle (d : Data) : Nat := d.now / 2

/-- Sends a Q_NOTE when PKT rises from 0 to 1; one that still waits for its credit serves for a later rise (R308). -/
def qNote (d : Data) (q : Nat) (before : Nat) : Data :=
  if before = 0 ∧ 0 < d.qPkt q ∧ d.flag (Reg.quedCtl q) 1 ∧ d.qOwner q < 16 ∧ !(d.que1 q).noted then
    let p : Agent := Fin.ofNat 16 (d.qOwner q)
    let d := d.modQue q fun x => { x with noted := true }
    if d.ports[p].iso || d.ports[p].mgqOut.contains (.qNote (BitVec.ofNat 14 q)) then d else d.modPort p fun x => { x with mgqOut := x.mgqOut ++ [.qNote (BitVec.ofNat 14 q)] }
  else d

/-- The stale timer of a queue that holds a word: it runs while TIME is not 0 (R307). -/
def qTimer (d : Data) (q : Nat) : Option Nat := if d.fld (Reg.quedStale q) 0 16 = 0 then none else some d.now

/-- Lands a word at the tail, as the upset `m` leaves it in the pool (R296, R307). -/
def qLand (d : Data) (r : QRec) (q : Nat) (w : QWord) (opn : QOpen) (opener : Option Agent) (m : BitVec 67 := 0) : Data :=
  let pk := d.qPkt q
  let d := d.modQue q fun x =>
    { x with
      words := x.words ++ [w.flip m]
      tail := (x.tail + 1) % r.depth
      opn := opn
      opener := opener
      landAt := some d.qCycle
      timer := if x.timer.isNone && !x.expired then d.qTimer q else x.timer }
  d.qNote q pk

/-- Writes the GAP marker where its conditions hold (R302). -/
def qGap (d : Data) (q : Nat) : Data :=
  match d.qRec q with
  | none => d
  | some r =>
    let x := d.que1 q
    if x.gapPend ≠ 0 ∧ x.opn = .none ∧ !x.resync ∧ x.words.length < r.depth then
      let w := qWord (BitVec.ofNat 64 (0xFE + at_ x.gapPend 24)) true
      (d.qLand r q w .none none).modQue q fun x => { x with gapPend := 0 }
    else d

/-- Removes the words of the open item and those behind nothing else: the last `n` words (R302, R303, R306). -/
def qCut (d : Data) (r : QRec) (q : Nat) (n : Nat) : Data :=
  d.modQue q fun x =>
    let k := x.words.length - n
    { x with words := x.words.take k, tail := (x.tail + r.depth - (x.words.length - k)) % r.depth,
             timer := if k = 0 then none else x.timer }

/-- Words of the open item still held. -/
def qHeld (x : Que) : Nat := match x.opn with | .held n => n | _ => 0

/-- Pushes one word of agent `who` (or of a device producer or the management cluster) into assigned queue `q`: the state and
whether the word was discarded (R296, R302, R303, R305). `m` is an upset of the word in the pool. -/
def qPush (d : Data) (r : QRec) (q : Nat) (w : QWord) (who : Option Agent) (m : BitVec 67 := 0) : Data × Bool :=
  let x := d.que1 q
  let c := d.qCycle
  let flushed := x.flushAt == some c && x.pushAt != some c
  let d := d.modQue q fun x => { x with pushAt := some c, pusher := who }
  let after : QOpen := if w.eop then .none else .dropping
  let opener := if w.eop then none else match x.opn with | .none => who | _ => x.opener
  let lands : Data → Data := fun d => (d.qLand r q w (if w.eop then .none else .held (qHeld x + 1)) opener m).tally 17
  if flushed then (d.modQue q fun x => { x with resync := !w.eop }, true)
  else if x.resync then
    let d := (d.fldCnt (Reg.quedRsync q) 0 32 1).qEv 5 q
    ((if w.eop then (d.modQue q fun x => { x with resync := false }).qGap q else d), true)
  else if x.opn = .dropping then
    ((d.modQue q fun x => { x with opn := after, opener := opener }).qGap q, true)
  else if x.words.length < r.depth then ((lands d).qGap q, false)
  else if r.policy = false then
    let d := d.qCut r q (qHeld x)
    let d := ((d.fldCnt (Reg.quedDrop q) 0 32 1).qEv 2 q).tally 20
    let d := d.modQue q fun x => { x with opn := after, gapPend := satAdd 0xFFFFFFFF x.gapPend 1, opener := opener }
    (d.qGap q, true)
  else
    let d := ((d.fldCnt (Reg.quedLost q) 0 32 1).qEv 3 q).tally 21
    match x.words.findIdx? fun w => w.eop with
    | some i =>
      let d := d.modQue q fun x =>
        { x with words := x.words.drop (i + 1), head := (x.head + i + 1) % r.depth,
                 trunc := x.trunc || x.part, part := false }
      (lands (d.when x.part (Data.stampQue · q 22)), false)
    | none =>
      let d := d.qCut r q (qHeld x)
      ((d.modQue q fun x => { x with opn := after, trunc := x.trunc || x.part, part := false, opener := opener }).when x.part (Data.stampQue · q 22),
        true)

/-- A device producer pushes an item: the state and whether any word of it was discarded (R295, R296). -/
def qItem (d : Data) (q : Nat) (ws : List Dword) : Data × Bool :=
  match d.qRec q with
  | none => (d.qOnce q, true)
  | some r =>
    let n := ws.length
    ws.zipIdx.foldl (fun (a : Data × Bool) w =>
      let (d, lost) := a.1.qPush r q (qWord w.1 (w.2 + 1 = n)) none
      (d, a.2 || lost)) (d, false)

/-- A pop of a queue that holds no word (R301). -/
def qUnder (d : Data) (q : Nat) : Data × QPop :=
  ((((d.modQue q fun x => { x with underrun := true }).stampQue q 18).qEv 4 q).tally 19, { data := (d.que1 q).lastVal, under := true })

/-- A word leaves the pool: its parity is checked (R292), and it becomes the last value read. -/
def qGive (d : Data) (q : Nat) (w : QWord) : Data × QPop :=
  let d := d.modQue q fun x => { x with lastVal := w.data }
  let d := if w.bad then ((d.fldCnt Reg.queParCnt 0 32 1).qEv 1 q).tally 22 else d
  (d.tally 18, { data := w.data, eop := w.eop, poison := w.poison || w.bad, perm := w.perm })

/-- Pops one word; the upset `m` strikes it as it leaves the pool (R292, R298, R301, R307). -/
def qPop (d : Data) (r : QRec) (q : Nat) (m : BitVec 67 := 0) : Data × QPop :=
  let d := d.modQue q fun x => { x with popAt := some d.qCycle }
  match (d.que1 q).words with
  | [] => d.qUnder q
  | w :: ws =>
    let d := d.modQue q fun x =>
      { x with
        words := ws
        head := (x.head + 1) % r.depth
        opn := match x.opn with | .held n => .held (min n ws.length) | o => o
        part := !w.eop
        expired := false
        timer := if ws.isEmpty then none else d.qTimer q }
    let (d, g) := d.qGive q (w.flip m)
    (d.qGap q, g)

/-- A pop by the queue's owner. In a queue cycle in which it is the first pop it goes before what else reached the queue in that
cycle: a word landed in an empty queue stands over to the next, and of a queue flushed meanwhile the old head is returned (R304,
R305). -/
def qOwnPop (d : Data) (r : QRec) (q : Nat) (m : BitVec 67) : Data × QPop :=
  let x := d.que1 q
  let c := some d.qCycle
  if x.popAt == c then d.qPop r q m
  else if x.flushAt == c then
    let d := d.modQue q fun x => { x with popAt := c }
    match x.flushHead with
    | some w => d.qGive q (w.flip m)
    | none => d.qUnder q
  else if x.landAt == c && x.words.length == 1 then (d.modQue q fun x => { x with popAt := c }).qUnder q
  else d.qPop r q m

/-- Pops words up to and including EOP: what a device consumer does with an item (R298). -/
def qPopItem (r : QRec) (q : Nat) : Nat → Data → List QPop → Data × List QPop
  | 0, d, acc => (d, acc)
  | n + 1, d, acc =>
    let (d, w) := d.qPop r q
    if w.eop then (d, acc ++ [w]) else qPopItem r q n d (acc ++ [w])

/-- The item at the head of a queue, without popping it; nothing while PKT is 0 (R298). -/
def qHeadItem (d : Data) (q : Nat) : Option (List QWord) :=
  let ws := (d.que1 q).words
  match ws.findIdx? fun w => w.eop with
  | some i => some (ws.take (i + 1))
  | none => none

/-- A device consumer takes the item at the head; a GAP marker is discarded with event 7 (R298, R302). -/
def qTake (d : Data) (q : Nat) : Data × Option (List QPop) :=
  match d.qRec q, d.qHeadItem q with
  | some r, some ws =>
    let (d, l) := qPopItem r q ws.length d []
    match l with
    | [w] => if w.data.toNat % 256 = 0xFE ∧ !w.poison then (d.qEv 7 q, none) else (d, some l)
    | _ => (d, some l)
  | _, _ => (d, none)

/-- The item a consumer would take is a GAP marker. -/
def qHeadGap (d : Data) (q : Nat) : Bool :=
  match d.qHeadItem q with
  | some [w] => decide (w.data.toNat % 256 = 0xFE)
  | _ => false

/-- The push of an agent that the queue's flush discards is answered DROPPED (R305): its Q_ACK still waits, since a port sends it in a
later cycle of the queue. -/
def qAckDrop (d : Data) (q : Nat) (p : Agent) : Data :=
  let isAck : MgqAns → Bool := fun a => match a with | .qAck _ q' _ => q'.toNat == q | _ => false
  let drop : MgqAns → MgqAns := fun a => match a with | .qAck t q' _ => .qAck t q' 5 | a => a
  d.modPort p fun y =>
    { y with mgqOut := match (y.mgqOut.zipIdx.filter fun x => isAck x.1).getLast? with
        | some x => y.mgqOut.take x.2 ++ [drop x.1] ++ y.mgqOut.drop (x.2 + 1)
        | none => y.mgqOut }

/-- Flushes a queue with the push of its cycle (R305). -/
def qFlush (d : Data) (q : Nat) : Data :=
  match d.qRec q with
  | none => d
  | some _ =>
    let c := d.qCycle
    let x := d.que1 q
    let d := if x.pushAt == some c then match x.pusher with | some p => d.qAckDrop q p | none => d else d
    let first := if x.landAt == some c && x.words.length == 1 then none else x.words.head?
    d.modQue q fun x =>
      { x with words := [], opn := .none, opener := none, resync := x.resync || decide (x.opn ≠ .none), gapPend := 0,
               trunc := false, part := false, head := 0, tail := 0, timer := none
               flushAt := some c, flushHead := if x.flushAt == some c then x.flushHead else first }

/-- Removes the open items that agent `p` pushed into queues it owns (R306). The whole items stay, and of a head item that the
consumer has begun its place. -/
def qIsolate (d : Data) (p : Agent) : Data :=
  d.que.foldl (fun d x =>
    let q := x.1
    if d.qOwner q = p.val ∧ x.2.opener = some p ∧ x.2.opn ≠ .none then
      match d.qRec q with
      | some r => ((d.qCut r q (qHeld x.2)).modQue q fun y =>
          { y with opn := .none, opener := none, part := y.part && !y.words.isEmpty }).qGap q
      | none => d
    else d) d

/-- Some queue holds a word, has GAP_PEND above 0 or is in RESYNC (R308). -/
def qBusy (d : Data) : Bool := d.que.any fun x => !x.2.words.isEmpty || x.2.gapPend != 0 || x.2.resync

/-! ## Agents and the management cluster as producers and consumers -/

/-- An agent's push: STATUS and state (R210, R295, R243, R282). `perm` is its PERMS entry at acceptance: a queue named as CMDQ of
HLM_AGQ or TOP_MAGQ takes words under SEAL, or under MAINT or PRIV, alone. -/
def qAgentPush (d : Data) (p : Agent) (q : Nat) (eop poison : Bool) (v : Dword) (perm : Word) (m : BitVec 67 := 0) : Data × BitVec 4 :=
  match d.qRec q with
  | none => (d.qEv 6 q, 4)
  | some r =>
    if r.owner ≠ p.val then (d.qEv 6 q, 4)
    else
      let hlm := decide (d.fld (Reg.hlmAgq p.val) 0 14 = q) && !perm.getLsbD 5
      let mnt := decide (d.fld (Reg.topMagq p.val) 0 14 = q) && !perm.getLsbD 3 && !perm.getLsbD 4
      if hlm || mnt then (d.evApt p 12, 2)
      else
        let (d, lost) := d.qPush r q (qWord v eop poison perm) (some p) m
        (d, if lost then 5 else 0)

/-- An agent's push finds the queue full: it is settled with the queue cycle, whose pop goes first (R304). -/
def qFull (d : Data) (p : Agent) (q : Nat) : Bool :=
  match d.qRec q with
  | some r =>
    let x := d.que1 q
    r.owner == p.val && !x.resync && x.opn != .dropping && decide (r.depth ≤ x.words.length) && x.popAt != some d.qCycle &&
      x.flushAt != some d.qCycle
  | none => false

/-- An agent's pop (R301, R308). -/
def qAgentPop (d : Data) (p : Agent) (q : Nat) (m : BitVec 67) : Data × Option QPop :=
  match d.qRec q with
  | none => (d.qEv 6 q, none)
  | some r =>
    if r.owner ≠ p.val then (d.qEv 6 q, none)
    else
      let (d, w) := d.qOwnPop r q m
      (d.modQue q fun x => { x with noted := false }, some w)

/-- The management cluster may push and pop queue `q` (R295). -/
def qMgt (d : Data) (q : Nat) : Option QRec :=
  match d.qRec q with
  | some r => if r.owner = 0x10 ∨ r.owner = 0x11 then some r else none
  | none => none

/-- A write of PUSH_HI (R297). -/
def qPushHi (d : Data) (q : Nat) (v : Word) (m : BitVec 67 := 0) : Data :=
  match d.qMgt q with
  | none => d.qEv 6 q
  | some r =>
    let data : Dword := v ++ d.reg (Reg.quedPushLo q)
    (d.qPush r q (qWord data (d.flag (Reg.quedCtl q) 2) (d.flag (Reg.quedCtl q) 3)) none m).1

/-- What a pop through POP_LO returns, latched (R297). -/
def qLatch (d : Data) (q : Nat) (w : QPop) : Data × Word :=
  let lo : Word := w.data.truncate 32
  (d.modQue q fun x => { x with popLo := lo, popHi := (w.data >>> 32).truncate 32, lEop := w.eop, lPsn := w.poison }, lo)

/-- A read of POP_LO of 32 bits or wider: what it returns and the state (R295, R297). -/
def qPopLo (d : Data) (q : Nat) (m : BitVec 67 := 0) : Data × Word :=
  match d.qMgt q with
  | none => (d.qEv 6 q, (d.que1 q).popLo)
  | some r => let (d, w) := d.qOwnPop r q m; d.qLatch q w

/-- Firmware's reads of POP_LO for a whole item: each in a later cycle of the queue than what it finds there. -/
def qPopNext (d : Data) (q : Nat) : Data :=
  match d.qMgt q with
  | none => d.qEv 6 q
  | some r => let (d, w) := d.qPop r q; (d.qLatch q w).1

end Data

end Sys2Proof.Machine
end

