-- ==== Sys2Proof/Machine/Xbar.lean ====
section
/-!
DEFINITION. The agent crossbar and the agent ports toward slices and agents: items in each direction (R15, R190), the
answers a port produces for an isolated agent and isolation itself (R173, R306), and the records of followed samples
(R331, R332).
-/

namespace Sys2Proof.Machine

/-! ## Opcodes (R142) -/

def opRdSh : Nat := 1
def opRdOwn : Nat := 2
def opUpgrade : Nat := 3
def opWr : Nat := 4
def opEvict : Nat := 5
def opWb : Nat := 6

/-- GADDR of a granule of the backing space. -/
def gaddr (ga : Nat) : BitVec 40 := BitVec.ofNat 40 ga

/-- Saturating difference of two instants in 16 bits (R332). -/
def delta16 (a b : Nat) : Nat := if b - a > 0xFFFF then 0xFFFF else b - a

namespace Data

/-- A granule of free bits: data that the spec leaves unstated (assumption 12). -/
def freeGran (d : Data) : Gran × Data :=
  (BitVec.ofNat 512 ((List.range 8).foldl (fun a i => a + (Config.freeValue (d.free + i)).toNat * 2 ^ (64 * i)) 0),
   { d with free := d.free + 8 })

/-- The clock of sample records: slice cycles since power good, of which a record shows 40 bits (R331). -/
def smpClock (d : Data) : Nat := d.now - d.pwr.pg.getD 0
/-- S16 of a pass that is admitted now. -/
def smpS16 (d : Data) : Nat := d.smpClock + 16

/-! ## Samples (R331, R332) -/

/-- The record of a followed sample; `t4` and `t5` end it, `cut` marks an end without answer. -/
def sampleWords (n : SliceId) (s : Sample) (t4 t5 : Nat) (cut : Bool) : List Dword :=
  let r := s.req
  let t3 := s.t3.getD s.t2
  let w0 := 0xA7 + at_ r.agent.val 8 + at_ r.op.toNat 12 + at_ s.src 17 + at_ (b2n s.retried) 20
    + at_ (b2n s.fetched) 21 + at_ n.val 22 + at_ (b2n cut) 25
  let dl := fun a b => if cut ∧ b = 0 then 0xFFFF else delta16 a b
  let w3 := dl r.t0 s.t1 + at_ (dl s.t1 s.t2) 16 + at_ (dl s.t2 t3) 32 + at_ (if cut then 0xFFFF else delta16 t3 t4) 48
  let w4 := if cut then 0xFFFF else delta16 t4 t5
  [w0, r.ga, r.t0 % 2 ^ 40, w3, w4].map fun x => BitVec.ofNat 64 x

/-- Ends a followed transaction of agent `a` on granule `ga`: its record goes to the sample queue. -/
def sampleEnd (d : Data) (n : SliceId) (a : Agent) (ga : Nat) (t4 : Nat) (cut : Bool) : Data :=
  match d.slices[n].samples.find? fun s => s.req.agent == a && s.req.ga == ga with
  | none => d
  | some s =>
    let t4 := max t4 (max s.t2 (s.t3.getD 0))
    let d := d.modSlice n fun x => { x with samples := x.samples.filter fun y => y.seq != s.seq }
    (d.qItem (d.fld Reg.pmcSmpCfg 8 14) (sampleWords n s t4 t4 cut)).1.tally 9

/-- Every followed transaction of a slice that satisfies `p` ends without an answer (R332). -/
def samplesCut (d : Data) (n : SliceId) (p : Sample → Bool) : Data :=
  (d.slices[n].samples.filter p).foldl (fun (d : Data) s => d.sampleEnd n s.req.agent s.req.ga 0 true) d

/-- Changes the followed sample of a request. -/
def sampleMod (d : Data) (n : SliceId) (a : Agent) (ga : Nat) (f : Sample → Sample) : Data :=
  if d.slices[n].samples.isEmpty then d
  else d.modSlice n fun x => { x with samples := lmod (fun s => s.req.agent == a && s.req.ga == ga) f x.samples }

/-- Owner-forwarded data, or the owner's RSP, of a followed sample: the record ends with the later of the two, and T4
is when the data reached the requester's port (R331). -/
def sampleFwd (d : Data) (n : SliceId) (a : Agent) (ga : Nat) (dat : Bool) : Data :=
  match d.slices[n].samples.find? fun s => s.req.agent == a && s.req.ga == ga with
  | none => d
  | some s =>
    if dat then
      if s.rspIn then d.sampleEnd n a ga d.smpClock false else d.sampleMod n a ga fun x => { x with datAt := some (x.datAt.getD d.smpClock) }
    else
      match s.datAt with
      | some t => d.sampleEnd n a ga t false
      | none => d.sampleMod n a ga fun x => { x with rspIn := true }

/-! ## Items toward slices -/

/-- Queues a pass at a slice; `dis` is the cache-disable state of the pass that calls for it, if one does (R122). -/
def await (d : Data) (n : SliceId) (kind : WKind) (loc : Loc) (dis : Option Bool := none) : Data :=
  let seq := d.seq
  { d with seq := seq + 1 }.modSlice n fun s =>
    { s with waiters := s.waiters.concat { seq := seq, since := d.now, kind := kind, loc := loc, cdis := dis } }

/-- What a port samples of the interleave entry of a granule when it accepts a REQ: the home slice, or that FENCED is set
(R21). -/
def sampled (d : Data) (ga : Nat) : Option SliceId := if d.fencedAt ga then none else some (d.homeOf ga)

/-- An answer that the device produced itself goes to the granule's home slice. -/
def toHome (d : Data) (m : Answer) : Data := d.await (d.homeOf m.ga) (.answer m) .ready

/-! ## Items toward agents -/

/-- Places an item in a port's transmit buffer; for an isolated agent it is discarded, and a snoop is answered by
the port (R173). -/
def produce (d : Data) (p : Agent) (op : BitVec 5) (ga : Nat) (peer : Agent) (home : Bool) : Data :=
  let (g, d) := d.freeGran
  let ans := fun (dat : Bool) (o : BitVec 5) => ({ agent := p, dat := dat, op := o, ga := ga, poison := dat, data := if dat then g else 0 } : Answer)
  if op = 3 then d.toHome (ans false 1)
  else if home then d.toHome (ans true 0x0B)
  else
    let dop : BitVec 5 := if op = 1 then 1 else 3
    let it : TxItem := { cls := .dat, op := dop, gaddr := gaddr ga, peer := BitVec.ofNat 4 p.val, poison := true, data := some g, since := d.now }
    let d := if d.ports[peer].iso then d else d.modPort peer fun x => { x with tx := x.tx.concat it }
    d.toHome (ans false (if op = 1 then 4 else 2))

/-- Sends an item to an agent. -/
def toAgent (d : Data) (p : Agent) (it : TxItem) : Data :=
  let it := { it with since := d.now }
  let snoop := decide (it.cls = .snp ∧ it.op.toNat ≤ 3)
  let peer : Agent := Fin.ofNat 16 it.peer.toNat
  if d.ports[p].iso then
    if snoop then d.produce p it.op it.gaddr.toNat peer it.home else d
  else
    let d := if snoop then
        d.modPort p fun x => { x with snps := x.snps.concat { op := it.op, ga := it.gaddr.toNat, peer := peer, home := it.home } }
      else d
    d.modPort p fun x => { x with tx := x.tx.concat it }

/-- An RSP of the home or of the port to an agent. -/
def rspTo (d : Data) (p : Agent) (op : BitVec 5) (ga : BitVec 40) (peer : BitVec 4 := 0) : Data :=
  d.toAgent p { cls := .rsp, op := op, gaddr := ga, peer := peer }

/-- DAT from the home to an agent; PEER is the receiver's own ID (R190). -/
def datTo (d : Data) (p : Agent) (op : BitVec 5) (ga : Nat) (g : Gran) (poison : Bool) : Data :=
  d.toAgent p { cls := .dat, op := op, gaddr := gaddr ga, peer := BitVec.ofNat 4 p.val, poison := poison, data := some g }

/-- An MGQ answer; an isolated agent gets none (R173). -/
def mgqTo (d : Data) (p : Agent) (a : MgqAns) : Data :=
  if d.ports[p].iso then d else d.modPort p fun x => { x with mgqOut := x.mgqOut.concat a }

/-- The pair states that serve no request (R382). -/
def pairMute (d : Data) : Bool := d.pair.st == .yielded || d.pair.st == .join || d.pair.st == .mismatch

/-! ## Isolation (R173) -/

/-- Isolates an agent: its port answers the recorded snoops, sends poisoned write-backs for the recorded RSP_I_WB,
drops what it holds for the agent, and counts as answered toward RECALL and CENSUS. -/
def isolate (d : Data) (p : Agent) : Data :=
  let x := d.ports[p]
  if x.iso then d
  else
    let d := d.modPort p fun x =>
      { x with iso := true, tx := [], snps := [], wbs := [], mgqIn := [], mgqOut := [], pushWait := none, recalling := false, census := none }
    let d := d.evApt p 13
    let d := d.modPair fun y => { y with census := y.census.map fun c => { c with left := c.left &&& ~~~(abit p) } }
    let d := x.snps.foldl (fun d s => d.produce p s.op s.ga s.peer s.home) d
    let d := x.wbs.foldl (fun (d : Data) ga =>
      let (g, d) := d.freeGran
      let r : Req := { agent := p, op := 6, ga := ga, be := beAll, data := g, poison := true, t0 := d.now, dst := d.sampled ga }
      d.modPort p fun x => { x with held := x.held.concat r }) d
    let d := d.qIsolate p
    allSlices.foldl (fun (d : Data) n => d.samplesCut n fun s => s.req.agent == p) d

end Data

end Sys2Proof.Machine
end

