-- ==== Sys2Proof/Machine/Cache.lean ====
section
/-!
DEFINITION. The cache of a slice as operations: tags and set words (R70 to R77), replacement (R111 to R114), the
stream detector (R115 to R117), the side buffer (R118 to R120), write buffers (R104 to R110), dirty maps (R222),
mirror messages (R385), and reading and writing a granule (R26, R109, R263, R266).
-/

namespace Sys2Proof.Machine

/-- Why a pass cannot take effect now. -/
inductive Block where
  | retry (why : Retry)
  | mt
  | wb (need : Nat)
  | credit (c : MsgClass) (p : Agent)
  | mir
  | onMt (i : Nat)
  | onSide (i : Nat)
  | recov (ga set way : Nat)
  | mread (ga set way : Nat)
  | fetch
  | ledger
  /-- Not now, for want of no resource: a step of a background engine is made again later. -/
  | later
  | fault
  | tfault
deriving DecidableEq, Repr

/-- A pass that takes effect, or what it waits for. -/
abbrev Pass := Except Block

/-- Where the granule of a read comes from (R26, R109). -/
inductive Src where
  | wbuf | side (i : Fin 32) | store (set way : Nat) | mirror
deriving DecidableEq, Repr

namespace Data

/-! ## Tags and set words -/

def tagKey (set way : Nat) : Nat := set * 16 + way
def tagEnt (d : Data) (n : SliceId) (set way : Nat) : TagEnt := SMap.get {} d.slices[n].tags (tagKey set way)
def modTag (d : Data) (n : SliceId) (set way : Nat) (f : TagEnt → TagEnt) : Data :=
  d.modSlice n fun s => { s with tags := SMap.upd {} s.tags (tagKey set way) f }
def setWord (d : Data) (n : SliceId) (set : Nat) : SetWord := SMap.get {} d.slices[n].sets set
def modSet (d : Data) (n : SliceId) (set : Nat) (f : SetWord → SetWord) : Data :=
  d.modSlice n fun s => { s with sets := SMap.upd {} s.sets set f }

/-- The way that a lookup of a line hits (R76). -/
def hitWay (d : Data) (n : SliceId) (line : Nat) : Option Nat :=
  let set := setOf line
  let w := d.setWord n set
  (List.range 16).find? fun i =>
    let t := d.tagEnt n set i
    !w.ret.getLsbD i && t.st != .inv && t.tag == tagOf line

/-- The way that holds the sector of a granule, its way in VALID (R69). -/
def presentWay (d : Data) (n : SliceId) (ga : Nat) : Option Nat :=
  match d.hitWay n (lineOf ga) with
  | some w =>
    let t := d.tagEnt n (setOf (lineOf ga)) w
    if t.st = .valid ∧ t.sv.getLsbD (secIn ga) then some w else none
  | none => none

/-- The line that a way holds. -/
def wayLine (d : Data) (n : SliceId) (set way : Nat) : Nat := lineAt (d.tagEnt n set way).tag set

/-- A way is eligible as a victim (R77); a dirty line of a failed port is not (R231). -/
def eligible (d : Data) (n : SliceId) (set way : Nat) : Bool :=
  let t := d.tagEnt n set way
  !(d.setWord n set).ret.getLsbD way && (t.st == .inv || t.st == .valid) &&
    !(t.sd != 0 && d.bkpFailed (d.wayLine n set way * 32))

/-! ## Replacement (R111 to R114) -/

/-- The victim of tree pseudo-LRU among ways that satisfy `ok` (R112). -/
def plruPick (repl : Word) (ok : Nat → Bool) : Nat :=
  let under := fun (lo len : Nat) => (List.range len).any fun i => ok (lo + i)
  let rec go : Nat → Nat → Nat → Nat → Nat
    | 0, _, lo, _ => lo
    | fuel + 1, k, lo, len =>
      let h := len / 2
      let right := repl.getLsbD k
      let right := if right then (if under (lo + h) h then true else false) else (if under lo h then false else true)
      if h = 1 then (if right then lo + 1 else lo)
      else go fuel (if right then 2 * k + 2 else 2 * k + 1) (if right then lo + h else lo) h
  go 4 0 0 16

/-- A touch of way `w` in the tree (R112). -/
def plruTouch (repl : Word) (w : Nat) : Word :=
  let r := setBit repl 0 (decide (w < 8))
  let k1 := if w < 8 then 1 else 2
  let r := setBit r k1 (decide (w % 8 < 4))
  let k2 := if w % 8 < 4 then 2 * k1 + 1 else 2 * k1 + 2
  let r := setBit r k2 (decide (w % 4 < 2))
  let k3 := if w % 4 < 2 then 2 * k2 + 1 else 2 * k2 + 2
  setBit r k3 (decide (w % 2 = 0))

def nruAge (repl : Word) (w : Nat) : Nat := bits repl.toNat (2 * w) 2
def nruSet (repl : Word) (w a : Nat) : Word :=
  BitVec.ofNat 32 (repl.toNat - at_ (nruAge repl w) (2 * w) + at_ (a % 4) (2 * w))

/-- The victim in not-recently-used mode and the ages after its ageing step (R113). -/
def nruPick (repl : Word) (ok : Nat → Bool) : Nat × Word :=
  let ws := (List.range 16).filter ok
  match ws.find? fun w => nruAge repl w = 3 with
  | some w => (w, repl)
  | none =>
    let m := (ws.map (nruAge repl)).foldl max 0
    let repl := ws.foldl (fun r w => nruSet r w (nruAge r w + (3 - m))) repl
    ((ws.find? fun w => nruAge repl w = 3).getD 0, repl)

def nru (d : Data) (n : SliceId) : Bool := match d.rig with | some r => r.repl.getLsbD n.val | none => false

/-- A touch of a way, in either policy. -/
def touch (d : Data) (n : SliceId) (set way : Nat) : Data :=
  let nr := d.nru n
  d.modSet n set fun w => { w with repl := if nr then nruSet w.repl way 0 else plruTouch w.repl way }

/-- The touch of a fill or a move into a present line: none in a STREAM region (R114). -/
def touchFill (d : Data) (n : SliceId) (set way ga : Nat) : Data :=
  if streamIn d.regions ga then d else d.touch n set way

/-- The replacement update of an allocation (R113, R114). -/
def touchAlloc (d : Data) (n : SliceId) (set way ga : Nat) : Data :=
  let nr := d.nru n
  let st := streamIn d.regions ga
  d.modSet n set fun w =>
    { w with repl := if nr then nruSet w.repl way (if st then 3 else 1) else if st then w.repl else plruTouch w.repl way }

/-- Victim selection (R111): the way and the state after the ageing step; nothing where no way is eligible. -/
def victim (d : Data) (n : SliceId) (set : Nat) : Option (Nat × Data) :=
  let ok := fun w => d.eligible n set w
  let ws := (List.range 16).filter ok
  match ws with
  | [] => none
  | _ =>
    match ws.find? fun w => (d.tagEnt n set w).st == .inv with
    | some w => some (w, d)
    | none =>
      if d.nru n then
        let (w, r) := nruPick (d.setWord n set).repl ok
        some (w, d.modSet n set fun x => { x with repl := r })
      else some (plruPick (d.setWord n set).repl ok, d)

/-! ## Write buffers (R104 to R110) -/

/-- Entries not FREE. -/
def wbUsed (d : Data) (n : SliceId) : Nat := d.slices[n].wb.length
/-- Entries FREE and not reserved by an HTE (R110, R146). -/
def wbFree (d : Data) (n : SliceId) : Nat := 48 - d.wbUsed n - (d.slices[n].htes.map (·.wb)).sum
/-- Write-buffer entries of a granule that are not CLN, oldest first. -/
def wbOf (d : Data) (n : SliceId) (ga : Nat) : List WbEnt := d.slices[n].wb.filter fun e => e.ga == ga && e.kind != .cln
def wbIdx (d : Data) (n : SliceId) : Nat := (freeIdx 48 (d.slices[n].wb.map (·.idx))).getD 0
def modWb (d : Data) (n : SliceId) (p : WbEnt → Bool) (f : WbEnt → WbEnt) : Data :=
  d.modSlice n fun s => { s with wb := lmod p f s.wb }
/-- An OPEN WT or NA entry. -/
def wbOpen (e : WbEnt) : Bool := !e.issued && (e.kind == .wt || e.kind == .na)

/-- Every OPEN entry becomes ISSUED while fewer than LOWAT entries are FREE (R107). -/
def wbLowat (d : Data) (n : SliceId) : Data :=
  if 48 - d.wbUsed n < d.fld (Reg.slcWbCfg n.val) 8 6 then d.modWb n wbOpen fun e => { e with issued := true } else d

/-- Creates an entry with its DUR bit; the caller has made sure that one is free. From TR a durable entry is ISSUED (R235). -/
def wbNew (d : Data) (n : SliceId) (ga : Nat) (be : ByteEn) (g : Gran) (kind : WbKind) (issued poison dur : Bool) : Data :=
  let e : WbEnt := { idx := d.wbIdx n, uid := d.seq, sq := d.slices[n].wbSeq % 64, ga := ga, be := be, data := g, kind := kind, issued := issued || (dur && d.dur.tr.isSome), dur := dur, poison := poison, made := d.now }
  let d := { d with seq := d.seq + 1 }.modSlice n fun s => { s with wb := s.wb.concat e, wbSeq := s.wbSeq + 1 }
  ((d.fldPeak (Reg.slcWbStat n.val) 6 6 (d.wbUsed n)).pmcSlc n 17).wbLowat n

/-! ## Ledger draws (R217, R220) -/

/-- Charges `k` units in a pass: from the reservation of the HTE of `h` where it has one. -/
def draw (d : Data) (n : SliceId) (h : Option Nat) (k : Nat) : Data :=
  let d := d.charge k
  match h with
  | none => d
  | some ga =>
    match d.slices[n].htes.find? fun x => x.ga == ga with
    | none => d
    | some t =>
      let u := min t.rsv k
      let d := d.modDur fun x => { x with rv := x.rv - u }
      d.modSlice n fun s => { s with htes := lmod (fun x => x.ga == ga) (fun x => { x with rsv := x.rsv - u }) s.htes }

/-- Takes a write-buffer entry of a pass: from the reservation of the HTE of `h`, or a free one (R110, R143). -/
def takeWb (d : Data) (n : SliceId) (h : Option Nat) : Pass Data :=
  match h.bind fun ga => d.slices[n].htes.find? fun x => x.ga == ga && decide (0 < x.wb) with
  | some t => .ok (d.modSlice n fun s => { s with htes := lmod (fun x => x.ga == t.ga) (fun x => { x with wb := x.wb - 1 }) s.htes })
  | none => if 0 < d.wbFree n then .ok d else .error (.wb 1)

/-! ## Mirror messages (R385) -/

/-- Granules of this address are mirrored now. -/
def mirrors (d : Data) (ga : Nat) : Bool := d.pair.st == .paired && mirrorIn d.regions ga
/-- Queues an item toward the partner. -/
def shdSend (d : Data) (i : ShdItem) : Data := d.modPair fun p => { p with out := p.out.concat i }
def mirClass (i : ShdItem) : Bool :=
  match i with
  | .mwr .. | .mclr .. | .swr .. | .sclr .. | .mrd .. | .dxf .. | .dxfEnd .. => true
  | _ => false
/-- MIR items that wait for credit. -/
def mirWaiting (d : Data) : Nat := (d.pair.out.filter mirClass).length
def mirCredits (d : Data) : Nat := (d.links[shdLink].recv[0].toNat + 4096 - d.links[shdLink].used[0] % 4096) % 4096

/-- SWR for a durable WT or NA entry created or merged into. -/
def swrSend (d : Data) (n : SliceId) (e : WbEnt) : Data :=
  if d.mirrors e.ga ∧ e.dur then
    d.shdSend (.swr (BitVec.ofNat 36 e.ga) e.poison n (BitVec.ofNat 6 e.idx) (BitVec.ofNat 6 e.sq) e.be e.data)
  else d
def mwrSend (d : Data) (ga : Nat) (g : Gran) (poison : Bool) : Data :=
  if d.mirrors ga then (d.shdSend (.mwr (BitVec.ofNat 36 ga) poison g)).tally 506 else d
def mclrSend (d : Data) (ga : Nat) : Data := if d.mirrors ga then d.shdSend (.mclr (BitVec.ofNat 36 ga)) else d

/-! ## Mirror and shadow entries held for the partner (R387, R392) -/

def mirSet (ga : Nat) : Nat := bits ga 0 22 ^^^ bits ga 22 14
def mirTag (ga : Nat) : Nat := bits ga 22 14
/-- The granule of an entry of mirror set `s` with a tag. -/
def mirGa (s tag : Nat) : Nat := (s ^^^ tag) + tag * 2 ^ 22

/-- Reads the tag words of a mirror set; an uncorrectable codeword invalidates its entries (R387). -/
def mirTags (d : Data) (s : Nat) : Data × List Nat :=
  let k := areaKey .mirror (16 * s)
  let (d, r) := d.cwRead none k
  if r.bad then
    ((d.stOutside none k 0).evShd 15, List.replicate 15 0)
  else (d, (List.range 15).map fun i => bits r.d.toNat (32 * i) 32)

def mirPut (d : Data) (s : Nat) (ts : List Nat) : Data :=
  d.granPut none (areaKey .mirror (16 * s)) (BitVec.ofNat 512 (ts.mapIdx fun i t => at_ t (32 * i)).sum) false

/-- The way of a valid mirror entry of a granule. -/
def mirFind (ts : List Nat) (ga : Nat) : Option Nat := ts.findIdx? fun t => nbit t 14 && bits t 0 14 == mirTag ga

/-- The copy of a valid mirror entry: data and poison; an uncorrectable codeword sets PSN (R387). -/
def mirRead (d : Data) (ga : Nat) : Data × Option (Gran × Bool) :=
  let s := mirSet ga
  let (d, ts) := d.mirTags s
  match mirFind ts ga with
  | none => (d, none)
  | some w =>
    let k := areaKey .mirror (16 * s + w + 1)
    let (d, r) := d.cwRead none k
    if r.bad then
      let d := (d.stOutside none k (cwMake r.d true)).evShd 15
      (d.mirPut s (ts.set w (ts.getD w 0 ||| 0x8000)), some (r.d, true))
    else (d, some (r.d, r.poison || nbit (ts.getD w 0) 15))

/-- Stores a mirror entry; nothing where its set is full (R386). -/
def mirWrite (d : Data) (ga : Nat) (g : Gran) (poison : Bool) : Data × Bool :=
  let s := mirSet ga
  let (d, ts) := d.mirTags s
  match (match mirFind ts ga with | some w => some w | none => ts.findIdx? fun t => !nbit t 14) with
  | none => (d, false)
  | some w =>
    let new := !nbit (ts.getD w 0) 14
    let d := d.mirPut s (ts.set w (mirTag ga + 0x4000 + at_ (b2n poison) 15))
    let d := d.granPut none (areaKey .mirror (16 * s + w + 1)) g false
    ((if new then d.modPair fun p => { p with entries := p.entries + 1 } else d), true)

/-- Invalidates the mirror entry of a granule, if there is one: whether there was. -/
def mirClear (d : Data) (ga : Nat) : Data × Bool :=
  let s := mirSet ga
  let (d, ts) := d.mirTags s
  match mirFind ts ga with
  | none => (d, false)
  | some w => ((d.mirPut s (ts.set w 0)).modPair fun p => { p with entries := p.entries - 1 }, true)

/-- A taken-over granule whose mirror entries count as a source (R392). -/
def mirrorSource (d : Data) (ga : Nat) : Bool := d.pair.mirrorUse && decide (0 < d.pair.entries) && d.takenHalf ga

/-- Some granule of a sector has a valid mirror entry in the taken-over half (R392). -/
def mirrorSector (d : Data) (sec : Nat) : Bool :=
  d.mirrorSource (2 * sec) &&
    [2 * sec, 2 * sec + 1].any fun ga => (mirFind (d.mirTags (mirSet ga)).2 ga).isSome

/-! ## Dirty maps (R222) -/

def markDirty (d : Data) (n : SliceId) (set : Nat) : Data :=
  d.modSlice n fun s => { s with maps := vmod s.maps 3 (insNat set) }

/-- A durable dirty sector of the set that has neither a CLN entry nor a failed port. -/
def setOpen (d : Data) (n : SliceId) (set : Nat) : List (Nat × Nat) :=
  (List.range 16).flatMap fun w =>
    let t := d.tagEnt n set w
    let line := d.wayLine n set w
    if t.st = .valid ∧ t.sd ≠ 0 ∧ d.durable (line * 32) ∧ !d.bkpFailed (line * 32) then
      (List.range 16).filterMap fun s =>
        if t.sd.getLsbD s ∧ !(d.slices[n].wb.any fun e => e.kind == .cln && secOf e.ga == line * 16 + s) then some (w, s) else none
    else []

/-- Clears the set's bit in every map once no sector of it is left to clean. -/
def settleDirty (d : Data) (n : SliceId) (set : Nat) : Data :=
  if (d.setOpen n set).isEmpty then
    d.modSlice n fun s => { s with maps := s.maps.map fun m => m.filter (· != set) }
  else d

/-! ## Side buffer (R118 to R120) -/

def sideFind (d : Data) (n : SliceId) (sec : Nat) : Option (Fin 32) :=
  (List.finRange 32).find? fun i => d.slices[n].side[i].st != .free && d.slices[n].side[i].sec == sec
def modSide (d : Data) (n : SliceId) (i : Fin 32) (f : SideEnt → SideEnt) : Data :=
  d.modSlice n fun s => { s with side := vmod s.side i f }

/-- Frees a side-buffer entry; a prefetched sector that served no demand use is counted. -/
def sideFree (d : Data) (n : SliceId) (i : Fin 32) : Data :=
  let d := if d.slices[n].side[i].st = .ready then d.pmcSlc n 31 else d
  d.modSide n i fun _ => {}

/-- What a write to a sector does to the side buffer (R120). -/
def sideDrop (d : Data) (n : SliceId) (sec : Nat) : Data :=
  match d.sideFind n sec with
  | none => d
  | some i => if d.slices[n].side[i].st = .pend then d.modSide n i fun e => { e with cancel := true } else d.sideFree n i

/-- The entry a new sector takes: FREE first, else the READY entry (or, for a demand fill, the READY or USED entry)
that has waited longest (R118). -/
def sideTake (d : Data) (n : SliceId) (used : Bool) : Option (Fin 32) :=
  let side := d.slices[n].side
  match (List.finRange 32).find? fun i => side[i].st == .free with
  | some i => some i
  | none =>
    minBy (fun i => side[i].arrived)
      ((List.finRange 32).filter fun i => side[i].st == .ready || (used && side[i].st == .used))

/-! ## Streams (R115 to R117) -/

/-- The continuation line of a stream (R117). -/
def contLine (d : Data) (n : SliceId) (s : Stream) : Option Nat :=
  if !d.flag (Reg.slcPfCfg n.val) 1 then none
  else
    ((List.range 8).map (· + 1)).findSome? fun j =>
      if s.desc ∧ s.line < j then none
      else
        let l := if s.desc then s.line - j else s.line + j
        let e := d.ilvAt (bucketOf l)
        if e.toNat % 8 = n.val ∧ !e.getLsbD 4 ∧ (!d.paired || e.getLsbD 3 == d.member) then some l else none

/-- The stream after a demand read of sector `sec` of line `line`, and the list with it most recent (R115). -/
def streamTrain (d : Data) (n : SliceId) (line sec : Nat) (str : Bool) : Stream × List Stream :=
  let l := d.slices[n].streams
  let put := fun (i : Nat) (s : Stream) => (s, s :: l.eraseIdx i)
  match l.findIdx? fun s => s.line == line with
  | some i =>
    let s := l.getD i ⟨0, 0, false, 0⟩
    if s.sec = sec then put i s
    else if sec = s.sec + 1 ∧ (!s.desc ∨ s.conf = 0) then put i { s with sec := sec, desc := false, conf := min 3 (s.conf + 1) }
    else if sec + 1 = s.sec ∧ (s.desc ∨ s.conf = 0) then put i { s with sec := sec, desc := true, conf := min 3 (s.conf + 1) }
    else put i { s with sec := sec, conf := 0 }
  | none =>
    match l.findIdx? fun s => d.contLine n s == some line && ((sec == 0 && !s.desc) || (sec == 15 && s.desc)) with
    | some i => let s := l.getD i ⟨0, 0, false, 0⟩; put i { s with line := line, sec := sec }
    | none =>
      let s : Stream := { line := line, sec := sec, desc := false, conf := if str then 2 else 0 }
      (s, s :: l.take 63)

/-- The next candidate sectors of a stream, past the line into its continuation line (R116). -/
def streamNext (d : Data) (n : SliceId) (s : Stream) : List Nat :=
  let dist := d.fld (Reg.slcPfCfg n.val) 2 2 + 1
  let cont := d.contLine n s
  ((List.range dist).map (· + 1)).filterMap fun k =>
    if s.desc then
      if k ≤ s.sec then some (s.line * 16 + s.sec - k)
      else cont.map fun l => l * 16 + 15 - (k - s.sec - 1)
    else
      if s.sec + k ≤ 15 then some (s.line * 16 + s.sec + k)
      else cont.map fun l => l * 16 + (s.sec + k - 16)

/-- A candidate is dropped without a read (R116). -/
def pfDropped (d : Data) (n : SliceId) (sec : Nat) : Bool :=
  let ga := 2 * sec
  let line := sec / 16
  let s := d.slices[n]
  let way := d.hitWay n line
  let st := way.map fun w => (d.tagEnt n (setOf line) w).st
  (d.presentWay n ga).isSome || st == some .fill || st == some .draining ||
    (s.mt.any fun e => e.sec == sec || (e.alloc.isSome && e.sec / 16 == line)) ||
    (d.sideFind n sec).isSome || (s.wb.any fun e => secOf e.ga == sec) ||
    !cacheIn d.regions ga || d.disabled n ga || !d.inMap ga

/-- Trains the detector on a demand read not served from the store and queues its candidates (R115, R116). -/
def train (d : Data) (n : SliceId) (ga : Nat) : Data :=
  if d.flag (Reg.slcPfCfg n.val) 0 ∧ cacheIn d.regions ga ∧ !d.disabled n ga then
    let (s, l) := d.streamTrain n (lineOf ga) (secIn ga) (streamIn d.regions ga)
    let d := d.modSlice n fun x => { x with streams := l }
    if 2 ≤ s.conf then
      let c := (d.streamNext n s).filter fun x => !d.pfDropped n x
      c.foldl (fun (d : Data) x => let q := d.seq; { d with seq := q + 1 }.modSlice n fun s => { s with pf := s.pf.concat (x, d.now, q) }) d
    else d
  else d

/-! ## Reading a granule -/

/-- The partner serves mirror reads (R388). -/
def partnerReads (d : Data) : Bool := d.pair.st == .paired && d.links[shdLink].st == .active

/-- A recovery of the granule by row 2 or 3 of R263 is under way: nothing else touches its codeword meanwhile (R265). -/
def recovering (d : Data) (n : SliceId) (ga set way : Nat) : Option Block :=
  if d.slices[n].mt.any fun e => e.use == .recover set way && e.sec == secOf ga then some (.recov ga set way)
  else if d.pair.reads3.any fun x => x.2.2.2 == ga then some (.mread ga set way)
  else none

/-- Reads a granule of a line in the store from its frame, recovered by R263 where it is uncorrectable. -/
def frameRead (d : Data) (n : SliceId) (set way g : Nat) : Pass (Data × Gran × Bool) :=
  let t := d.tagEnt n set way
  let ga := lineAt t.tag set * 32 + g
  let k := frameKey n set way g
  let (d, r) := d.cwRead (some n) k
  if !r.bad then .ok (d, r.d, r.poison)
  else
    match d.recovering n ga set way with
    | some b => .error b
    | none =>
    match d.frameSolve n set way t.sv ((d.setWord n set).ps.getLsbD way) g r with
    | (d, some l) => .ok (d.frameRestore n set way l, solved l g, false)
    | (d, none) =>
      if !t.sd.getLsbD (g / 2) ∧ !d.bkpFailed ga then .error (.recov ga set way)
      else if t.sd.getLsbD (g / 2) ∧ mirrorIn d.regions ga ∧ d.partnerReads then .error (.mread ga set way)
      else .ok (d.stPoisoned (some n) k r.d, r.d, true)

/-- The union of the byte enables of a granule's write-buffer entries. -/
def wbBytes (d : Data) (n : SliceId) (ga : Nat) : ByteEn := (d.wbOf n ga).foldl (fun b e => b ||| e.be) 0

/-- Overlays a granule's write-buffer entries, oldest first, with their poison (R109, R267). -/
def wbOver (d : Data) (n : SliceId) (ga : Nat) (g : Gran) (p : Bool) : Gran × Bool :=
  (d.wbOf n ga).foldl (fun a e => (mergeBytes a.1 e.data e.be, e.poison || (a.2 && e.be != beAll))) (g, p)

/-- The home source that supplies the whole granule without a backing read, if there is one; `dis`: the cache is
disabled for the pass (R121, R147). -/
def source (d : Data) (n : SliceId) (ga : Nat) (dis : Bool) : Option Src :=
  match (if dis then none else d.presentWay n ga) with
  | some w => some (.store (setOf (lineOf ga)) w)
  | none =>
    if d.wbBytes n ga = beAll then some .wbuf
    else
      match (if dis then none else d.sideFind n (secOf ga)) with
      | some i =>
        let e := d.slices[n].side[i]
        if e.st = .ready ∨ e.st = .used then some (.side i)
        else if d.mirrorSource ga ∧ (mirFind (d.mirTags (mirSet ga)).2 ga).isSome then some .mirror else none
      | none => if d.mirrorSource ga ∧ (mirFind (d.mirTags (mirSet ga)).2 ga).isSome then some .mirror else none

/-- The data of a source, with its poison. -/
def sourceRead (d : Data) (n : SliceId) (ga : Nat) (s : Src) : Pass (Data × Gran × Bool) :=
  match s with
  | .store set way => d.frameRead n set way (granIn ga)
  | .wbuf => let (g, p) := d.wbOver n ga 0 false; .ok (d, g, p)
  | .side i =>
    let e := d.slices[n].side[i].data
    let (g, p) := d.wbOver n ga (if ga % 2 = 0 then e.d0 else e.d1) (if ga % 2 = 0 then e.p0 else e.p1)
    .ok (d, g, p)
  | .mirror =>
    let (d, r) := d.mirRead ga
    let (g, p) := d.wbOver n ga (r.getD (0, false)).1 (r.getD (0, false)).2
    .ok (d, g, p)

/-! ## Cleaning and eviction -/

/-- Creates the two CLN entries of a dirty sector (R106); `rs` are the regions that decide their DUR bits (R287). -/
def cleanSector (d : Data) (n : SliceId) (set way sec : Nat) (rs : List Region) : Pass Data := do
  if d.wbFree n < 2 then throw (.wb 2)
  let ga := d.wayLine n set way * 32 + 2 * sec
  let (d, g0, p0) ← d.frameRead n set way (2 * sec)
  let (d, g1, p1) ← d.frameRead n set way (2 * sec + 1)
  pure ((d.wbNew n ga beAll g0 .cln true p0 (durIn rs ga)).wbNew n (ga + 1) beAll g1 .cln true p1 (durIn rs ga))

/-- Frees the planish slot where it holds a way (R269). -/
def unplan (d : Data) (n : SliceId) (set way : Nat) : Data :=
  d.modSlice n fun s => { s with plSlot := s.plSlot.bind fun p => if p.set = set ∧ p.way = way then none else some p }

/-- Copies the dirty sectors of a victim into VIC entries and sets the way to DRAINING (R100, R217). A VIC entry carries
every byte and issues at once (R106), so none is ever OPEN and a write never merges into one (assumption 63). -/
def drainWay (d : Data) (n : SliceId) (set way : Nat) (rs : List Region) : Pass Data := do
  let t := d.tagEnt n set way
  let secs := (List.range 16).filter fun s => t.sd.getLsbD s
  if d.wbFree n < 2 * secs.length then throw (.wb (2 * secs.length))
  let line := d.wayLine n set way
  let d ← secs.foldlM (fun d s => do
    let (d, g0, p0) ← d.frameRead n set way (2 * s)
    let (d, g1, p1) ← d.frameRead n set way (2 * s + 1)
    let dur := durIn rs (line * 32)
    pure ((d.wbNew n (line * 32 + 2 * s) beAll g0 .vic true p0 dur).wbNew n (line * 32 + 2 * s + 1) beAll g1 .vic true p1 dur)) d
  let d := ((d.modTag n set way fun t => { t with st := .draining }).unplan n set way).pmcSlc n 15
  pure (d.settleDirty n set)

/-- Empties a way: INV with SV and SD clear (R75). -/
def wayInv (d : Data) (n : SliceId) (set way : Nat) : Data :=
  (d.modTag n set way fun t => { t with st := .inv, sv := 0, sd := 0 }).unplan n set way

/-- Clears PS of a way (R75). -/
def psClear (d : Data) (n : SliceId) (set way : Nat) : Data := d.modSet n set fun w => { w with ps := setBit w.ps way false }

/-- A way goes to FILL with a new TAG (R75, R262). -/
def wayFill (d : Data) (n : SliceId) (set way line : Nat) : Data :=
  let d := (d.wayInv n set way).psClear n set way
  (d.modTag n set way fun t => { t with tag := tagOf line, st := .fill }).frameClear n set way

/-- The parity write of the line in the planish slot: the slot frees, and PS clears unless a write has come meanwhile (R268,
R269). -/
def plCommit (d : Data) (n : SliceId) : Data :=
  match d.slices[n].plSlot with
  | none => d
  | some p =>
    let d := (d.granPut (some n) (frameKey n p.set p.way 32) p.p32 p.psn).granPut (some n) (frameKey n p.set p.way 33) p.p33 p.psn
    let d := d.modSlice n fun s => { s with plSlot := none }
    if p.dirtied then d else (d.psClear n p.set p.way).fldCnt (Reg.slcPlnStat n.val) 0 16 1

/-- Writes a sector into a way in FILL or VALID (R69, R75, R102): the OPEN entries of its granules become ISSUED. Its parity
update follows a planish write of the line (R269). -/
def wayPut (d : Data) (n : SliceId) (set way sec : Nat) (x : SecData) : Data :=
  let line := d.wayLine n set way
  let d := if d.slices[n].plSlot.any fun p => p.set == set && p.way == way then d.plCommit n else d
  let d := d.frameFill n set way sec (d.tagEnt n set way).sv ((d.setWord n set).ps.getLsbD way) x
  let d := d.modTag n set way fun t => { t with st := .valid, sv := setBit t.sv sec true }
  d.modWb n (fun e => wbOpen e && secOf e.ga == line * 16 + sec) fun e => { e with issued := true }

/-- Takes a victim for a line: the way, and whether it drains; nothing where no way is eligible (R77, R100). -/
def allocate (d : Data) (n : SliceId) (line : Nat) : Pass (Option (Nat × Bool × Data)) := do
  let set := setOf line
  match d.victim n set with
  | none => pure none
  | some (w, d) =>
    let t := d.tagEnt n set w
    if t.st = .valid ∧ t.sd ≠ 0 then
      let d ← d.drainWay n set w d.regions
      pure (some (w, true, (d.touchAlloc n set w (line * 32)).pmcSlc n 13))
    else
      let d := if t.st = .valid then d.pmcSlc n 14 else d
      pure (some (w, false, ((d.wayFill n set w line).touchAlloc n set w (line * 32)).pmcSlc n 13))

/-! ## Writing a granule (R104, R266) -/

/-- A write to a present sector: store, SD, PS, REDIRTY, planish slot, dirty map, ledger and mirror. -/
def storeWrite (d : Data) (n : SliceId) (set way ga : Nat) (be : ByteEn) (g : Gran) (poison wb : Bool) (h : Option Nat) :
    Pass Data := do
  let (d, g, p) ← (if be = beAll then pure (d, g, poison) else do
    let (d, old, p) ← d.frameRead n set way (granIn ga)
    pure (d, mergeBytes old g be, p || poison))
  let k := frameKey n set way (granIn ga)
  let d := d.granPut (some n) k g p
  let d := if poison then ((d.tally 28).evSto 2).stCapture k 127 2 else d
  let t := d.tagEnt n set way
  let first := wb && !t.sd.getLsbD (secIn ga)
  let d := if wb then d.modTag n set way fun t => { t with sd := setBit t.sd (secIn ga) true } else d
  let d := d.modSet n set fun w => { w with ps := setBit w.ps way true }
  let d := d.modWb n (fun e => e.kind == .cln && secOf e.ga == secOf ga) fun e => { e with redirty := true }
  let d := d.modSlice n fun s =>
    { s with plSlot := s.plSlot.map fun p => if p.set = set ∧ p.way = way then { p with dirtied := true } else p }
  let d := if first ∧ d.durable ga then d.draw n h 2 else d
  let d := if first ∧ d.durable ga then d.markDirty n set else d
  let d := if wb then d.mwrSend ga g p else d
  pure ((d.sideDrop n (secOf ga)).touch n set way)

/-- A write through a WT or NA entry: merged into the OPEN entry of the granule, or into a new one (R106, R108). -/
def bufWrite (d : Data) (n : SliceId) (ga : Nat) (be : ByteEn) (g : Gran) (poison : Bool) (kind : WbKind) (h : Option Nat) :
    Pass Data := do
  let combine := d.fld (Reg.slcWbCfg n.val) 0 8
  match d.slices[n].wb.find? fun e => e.ga == ga && wbOpen e with
  | some e =>
    let be' := e.be ||| be
    let e' : WbEnt := { e with be := be', data := mergeBytes e.data g be, poison := poison || (e.poison && be != beAll), issued := decide (be' = beAll) }
    let d := (d.modWb n (fun x => x.uid == e.uid) fun _ => e').pmcSlc n 18
    pure ((d.sideDrop n (secOf ga)).swrSend n e')
  | none =>
    let d ← d.takeWb n h
    let d := d.wbNew n ga be g kind (be = beAll || combine = 0) poison (d.durable ga)
    let d := if d.durable ga then d.draw n h 1 else d
    let d := d.sideDrop n (secOf ga)
    match d.slices[n].wb.getLast? with
    | some e => pure (d.swrSend n e)
    | none => pure d

/-- A write is admitted to a disabled range: its stale bits are set (R124), but for one that a completed invalidation clears in the same
cycle (R352). -/
def staleMark (d : Data) (n : SliceId) (ga : Nat) : Data :=
  let gone := fun (a i : Nat) => (SMap.get 0 d.cycNow.gone a).getLsbD i
  let a := Reg.slcCdis n.val
  let r := d.rgnNo ga
  let b := if r < 32 then Reg.topCbypStaleLo else Reg.topCbypStaleHi
  let d := if d.slices[n].cdis ∧ !gone a 3 then (if d.flag a 3 then d else d.evSlc n 11).raise a 3 else d
  if r < 64 ∧ d.byp.getLsbD r ∧ !gone b (r % 32) then
    (if d.bypStale.getLsbD r then d else { d with bypStale := setBit d.bypStale r true }.evSlc n 11).stamp b (BitVec.twoPow 32 (r % 32))
  else d

/-- The HTE of `h` has written the store: its store write slot is free. -/
def wslotFree (d : Data) (n : SliceId) (h : Option Nat) : Data :=
  match h with
  | some ga => d.modSlice n fun s => { s with htes := lmod (fun x => x.ga == ga) (fun x => { x with wslot := false }) s.htes }
  | none => d

/-- Applies a write or write-back (R104, R124, R392): `wt` forces write-through, `dis` bypasses the store. -/
def applyWrite (d : Data) (n : SliceId) (ga : Nat) (be : ByteEn) (g : Gran) (poison wt dis : Bool) (h : Option Nat) :
    Pass Data := do
  let (d, z) := d.touchZero n (secOf ga)
  let be' : ByteEn := if z.getLsbD (ga % 2) then beAll else be
  let g := if z.getLsbD (ga % 2) then mergeBytes 0 g be else g
  let be := be'
  let d := d.touchSet n ga
  let d := if dis then d.staleMark n ga else d
  match (if dis then none else d.presentWay n ga) with
  | some w =>
    let wb := wbIn d.regions ga && !wt
    let d ← (d.wslotFree n h).storeWrite n (setOf (lineOf ga)) w ga be g poison wb h
    if wb then pure d else d.bufWrite n ga be g poison .wt h
  | none =>
    if d.mirrorSource ga ∧ (mirFind (d.mirTags (mirSet ga)).2 ga).isSome then
      let (d, r) := d.mirRead ga
      let (old, p) := r.getD (0, false)
      let d := (d.mirWrite ga (mergeBytes old g be) (poison || (p && be != beAll))).1
      let d := d.modPair fun x => { x with drainOut := lmod (fun y => y.1 == ga) (fun y => (y.1, false)) x.drainOut }
      pure (d.sideDrop n (secOf ga))
    else d.bufWrite n ga be g poison .na h

end Data

end Sys2Proof.Machine
end

