-- ==== Sys2Proof/Machine/Protocol.lean ====
section
/-!
DEFINITION. The protocol table: the entry format (R146), the eight conditions (R147), the default table (R151), entry
selection and the coverage check of a load (R149).
-/

namespace Sys2Proof.Machine

/-- A decoded table entry (R146). -/
structure PEnt where
  cur : Nat
  evt : Nat
  cmask : Nat
  cval : Nat
  nxt : Nat
  rd : Bool
  rr : Bool
  ro : Bool
  wb : Bool
  slots : List (Nat × Nat)
deriving DecidableEq, Repr

/-- Reads an entry; slots end at the first code 0x00. -/
def pent (e : BitVec 128) : PEnt :=
  let x := e.toNat
  { cur := bits x 0 6, evt := bits x 6 8, cmask := bits x 14 8, cval := bits x 22 8, nxt := bits x 30 6,
    rd := nbit x 36, rr := nbit x 37, ro := nbit x 38, wb := nbit x 39,
    slots := ((List.range 8).map fun i => (bits x (40 + 11 * i) 5, bits x (45 + 11 * i) 6)).takeWhile fun s => s.1 ≠ 0 }

/-- The conditions of R147 as bits 0 to 7: HIT, OTHERS, REQOWN, REQSH, DUR, BUD, LAST, FULL. -/
structure Conds where
  hit : Bool := false
  others : Bool := false
  reqown : Bool := false
  reqsh : Bool := false
  dur : Bool := false
  bud : Bool := false
  last : Bool := false
  full : Bool := false
deriving DecidableEq, Repr

def Conds.num (c : Conds) : Nat :=
  b2n c.hit + 2 * b2n c.others + 4 * b2n c.reqown + 8 * b2n c.reqsh + 16 * b2n c.dur + 32 * b2n c.bud
    + 64 * b2n c.last + 128 * b2n c.full

/-- Entry selection (R149): the first entry of the state and event whose tested conditions have their values. -/
def pselect (table : List (BitVec 128)) (cur evt : Nat) (c : Nat) : Option PEnt :=
  match table.find? fun e =>
    let p := pent e
    p.cur = cur ∧ p.evt = evt ∧ c &&& p.cmask = p.cval with
  | some e => some (pent e)
  | none => none

/-! ## Events (R146) -/

def evReq (op : Nat) : Nat := op
def evRsp (op : Nat) : Nat := 0x20 + op
def evDat (op : Nat) : Nat := 0x40 + op
def evFill : Nat := 0x61
def evFillErr : Nat := 0x62
def evBinv : Nat := 0x63
def evCnEnd : Nat := 0x64

/-! ## The default table (R151) -/

/-- A slot as stored: code and operand. -/
def pslot (s : Nat × Nat) : Nat := s.1 + s.2 * 32

/-- An entry as stored; one that contains HTE has every RV bit set. -/
def ent (cur evt yes no nxt : Nat) (slots : List (Nat × Nat)) : BitVec 128 :=
  let rv := if slots.any fun s => s.1 = 1 then 0xF else 0
  BitVec.ofNat 128 (cur + at_ evt 6 + at_ (yes + no) 14 + at_ yes 22 + at_ nxt 30 + at_ rv 36
    + (slots.mapIdx fun i s => at_ (pslot s) (40 + 11 * i)).sum)

namespace P
def hte : Nat × Nat := (0x01, 0)
def done : Nat × Nat := (0x02, 0)
def snpo (o : Nat) : Nat × Nat := (0x03, o)
def snpoh (o : Nat) : Nat × Nat := (0x04, o)
def snpx (o : Nat) : Nat × Nat := (0x05, o)
def ackd : Nat × Nat := (0x06, 0)
def rsp (o : Nat) : Nat × Nat := (0x07, o)
def rsps (o : Nat) : Nat × Nat := (0x08, o)
def dath (o : Nat) : Nat × Nat := (0x09, o)
def date (o : Nat) : Nat × Nat := (0x0A, o)
def bkrd : Nat × Nat := (0x0B, 0)
def write : Nat × Nat := (0x0C, 0)
def wback : Nat × Nat := (0x0D, 0)
def vset (o : Nat) : Nat × Nat := (0x0E, o)
def vclr (o : Nat) : Nat × Nat := (0x0F, o)
def oset (o : Nat) : Nat × Nat := (0x10, o)
def chg : Nat × Nat := (0x11, 0)
def crd : Nat × Nat := (0x12, 0)
def hold : Nat × Nat := (0x13, 0)
def wbsrc : Nat × Nat := (0x14, 0)
def replay (o : Nat) : Nat × Nat := (0x15, o)
def fail : Nat × Nat := (0x16, 0)
def perr : Nat × Nat := (0x17, 0)

-- condition bits
def HIT : Nat := 1
def OTHERS : Nat := 2
def REQOWN : Nat := 4
def REQSH : Nat := 8
def DUR : Nat := 16
def BUD : Nat := 32
def LAST : Nat := 64
def FULL : Nat := 128
def SAME : Nat := 0x3E
end P

open P

/-- Entries 1 to 24: reads. -/
def table1 : List (BitVec 128) :=
  let grantE := [dath 2, vset 0, oset 0, chg, hold]
  [ent 0 1 (HIT + DUR + BUD) 0 1 [dath 1, vset 0],
   ent 0 1 HIT 0 2 grantE,
   ent 0 1 (DUR + BUD) 0 4 [hte, bkrd],
   ent 0 1 0 0 5 [hte, bkrd],
   ent 1 1 HIT 0 1 [dath 1, vset 0],
   ent 1 1 0 0 4 [hte, bkrd],
   ent 2 1 REQOWN 0 SAME [perr],
   ent 3 1 REQOWN 0 SAME [perr],
   ent 2 1 0 0 6 [hte, snpo 1],
   ent 3 1 0 0 6 [hte, snpo 1],
   ent 0 2 (HIT + DUR + BUD) 0 1 [dath 1, vset 0],
   ent 0 2 HIT 0 2 grantE,
   ent 0 2 (DUR + BUD) 0 4 [hte, bkrd],
   ent 0 2 0 0 5 [hte, bkrd],
   ent 1 2 (HIT + DUR + BUD) 0 1 [dath 1, vset 0],
   ent 1 2 (DUR + BUD) 0 4 [hte, bkrd],
   ent 1 2 OTHERS 0 8 [hte, vclr 0, snpx 3],
   ent 1 2 HIT 0 2 (vclr 2 :: grantE),
   ent 1 2 0 0 5 [hte, vclr 2, bkrd],
   ent 2 2 REQOWN 0 SAME [perr],
   ent 2 2 0 0 7 [hte, snpo 2],
   ent 3 2 REQOWN 0 SAME [perr],
   ent 3 2 OTHERS 0 9 [hte, vclr 0, snpx 3, snpoh 2],
   ent 3 2 0 0 7 [hte, vclr 0, snpo 2]]

/-- Entries 25 to 57: upgrades, writes, write-backs and evicts. -/
def table2 : List (BitVec 128) :=
  [ent 0 3 0 0 SAME [replay 2],
   ent 1 3 0 REQSH SAME [replay 2],
   ent 1 3 (DUR + BUD) 0 SAME [rsp 0x11],
   ent 1 3 OTHERS 0 8 [hte, snpx 3],
   ent 1 3 0 0 2 [rsp 0x10, oset 0, chg, hold],
   ent 2 3 0 0 SAME [replay 2],
   ent 3 3 (REQOWN + OTHERS) 0 8 [hte, snpx 3],
   ent 3 3 REQOWN 0 2 [rsp 0x10, hold],
   ent 3 3 0 0 SAME [replay 2],
   ent 0 4 0 0 SAME [write, rsp 0x12],
   ent 1 4 OTHERS 0 10 [hte, snpx 3],
   ent 1 4 0 0 SAME [write, rsp 0x12],
   ent 2 4 REQOWN 0 SAME [perr],
   ent 2 4 FULL 0 10 [hte, snpoh 3],
   ent 2 4 0 0 10 [hte, snpoh 2],
   ent 3 4 REQOWN 0 SAME [perr],
   ent 3 4 FULL 0 10 [hte, snpx 3, snpoh 3],
   ent 3 4 0 0 10 [hte, snpx 3, snpoh 2],
   ent 2 6 REQOWN 0 0 [wback, rsp 0x13, vclr 0, oset 2, crd],
   ent 3 6 REQOWN 0 1 [wback, rsp 0x13, vclr 0, oset 2, crd],
   ent 0 6 0 0 SAME [rsp 0x14],
   ent 1 6 0 0 SAME [rsp 0x14],
   ent 2 6 0 0 SAME [rsp 0x14],
   ent 3 6 0 0 SAME [rsp 0x14],
   ent 1 5 (REQSH + OTHERS) 0 1 [vclr 0, rsp 0x15],
   ent 1 5 REQSH 0 0 [vclr 0, rsp 0x15],
   ent 2 5 REQOWN 0 0 [vclr 0, oset 2, crd, rsp 0x15],
   ent 3 5 REQOWN 0 SAME [perr],
   ent 3 5 REQSH 0 3 [vclr 0, rsp 0x15],
   ent 0 5 0 0 SAME [rsp 0x15],
   ent 1 5 0 0 SAME [rsp 0x15],
   ent 2 5 0 0 SAME [rsp 0x15],
   ent 3 5 0 0 SAME [rsp 0x15]]

/-- Entries 58 to 80: back-invalidation and census start, fills and owner answers. -/
def table3 : List (BitVec 128) :=
  let grant := [vset 0, oset 0, chg, hold, done]
  [ent 0 0x63 0 0 SAME [],
   ent 1 0x63 0 0 13 [hte, snpx 3],
   ent 2 0x63 0 0 13 [hte, snpoh 2],
   ent 3 0x63 0 0 13 [hte, snpx 3, snpoh 2],
   ent 0 0x27 0 0 14 [hte, vset 1],
   ent 0 0x28 0 0 14 [hte, vset 1, oset 1, chg],
   ent 0 0x29 0 0 14 [hte, vset 1, oset 1, chg],
   ent 4 0x61 0 0 1 [dath 1, vset 0, done],
   ent 4 0x62 OTHERS 0 1 [fail, vclr 0, done],
   ent 4 0x62 0 0 0 [fail, vclr 0, done],
   ent 5 0x61 0 0 2 (dath 2 :: grant),
   ent 5 0x62 0 0 0 [fail, oset 2, crd, done],
   ent 6 0x23 0 0 1 [ackd, vset 0, oset 2, crd, done],
   ent 6 0x24 0 0 3 [ackd, vset 0, done],
   ent 6 0x21 HIT 0 1 [ackd, vclr 1, oset 2, crd, dath 1, vset 0, done],
   ent 6 0x21 0 0 4 [ackd, vclr 1, oset 2, crd, bkrd],
   ent 6 0x25 0 0 11 [vclr 1, wbsrc],
   ent 7 0x22 0 0 2 (ackd :: vclr 1 :: grant),
   ent 7 0x21 HIT 0 2 (ackd :: vclr 1 :: dath 2 :: grant),
   ent 7 0x21 0 0 5 [ackd, vclr 1, oset 2, bkrd],
   ent 7 0x25 0 0 12 [vclr 1, wbsrc],
   ent 11 0x06 0 0 1 [ackd, wback, rsps 0x13, date 1, vset 0, oset 2, crd, done],
   ent 12 0x06 0 0 2 [ackd, rsps 0x13, date 3, vset 0, oset 0, hold, done]]

/-- Entries 81 to 91: invalidation collection. -/
def table4 : List (BitVec 128) :=
  let grantM := [date 3, vset 0, oset 0, chg, hold, done]
  [ent 8 0x21 (LAST + REQSH) 0 2 [ackd, vclr 1, rsp 0x10, oset 0, chg, hold, done],
   ent 8 0x21 (LAST + HIT) 0 2 [ackd, vclr 1, dath 2, vset 0, oset 0, chg, hold, done],
   ent 8 0x21 LAST 0 5 [ackd, vclr 1, bkrd],
   ent 8 0x21 0 0 8 [ackd, vclr 1],
   ent 9 0x21 LAST 0 2 (ackd :: vclr 1 :: grantM),
   ent 9 0x4B LAST 0 2 (ackd :: vclr 1 :: grantM),
   ent 9 0x21 0 0 9 [ackd, vclr 1],
   ent 9 0x4B 0 0 9 [ackd, vclr 1],
   ent 9 0x25 0 0 9 [vclr 1, wbsrc],
   ent 9 0x06 LAST 0 2 (ackd :: rsps 0x13 :: grantM),
   ent 9 0x06 0 0 9 [ackd, rsps 0x13]]

/-- Entries 92 to 104: write collection. -/
def table5 : List (BitVec 128) :=
  let fin := [write, rsp 0x12, oset 2, crd, done]
  [ent 10 0x21 (LAST + REQSH) 0 1 (ackd :: vclr 1 :: fin),
   ent 10 0x4A (LAST + REQSH) 0 1 (ackd :: vclr 1 :: fin),
   ent 10 0x21 LAST 0 0 (ackd :: vclr 1 :: fin),
   ent 10 0x4A LAST 0 0 (ackd :: vclr 1 :: fin),
   ent 10 0x21 0 0 10 [ackd, vclr 1],
   ent 10 0x4A 0 0 10 [ackd, vclr 1],
   ent 10 0x4B (LAST + REQSH) 0 1 (ackd :: vclr 1 :: wback :: fin),
   ent 10 0x4B LAST 0 0 (ackd :: vclr 1 :: wback :: fin),
   ent 10 0x4B 0 0 10 [ackd, vclr 1, wback],
   ent 10 0x25 0 0 10 [vclr 1, wbsrc],
   ent 10 0x06 (LAST + REQSH) 0 1 (ackd :: wback :: rsps 0x13 :: fin),
   ent 10 0x06 LAST 0 0 (ackd :: wback :: rsps 0x13 :: fin),
   ent 10 0x06 0 0 10 [ackd, wback, rsps 0x13]]

/-- Entries 105 to 117: back-invalidation and census collection. -/
def table6 : List (BitVec 128) :=
  let fin := [oset 2, crd, done]
  [ent 13 0x21 LAST 0 0 (ackd :: vclr 1 :: fin),
   ent 13 0x4A LAST 0 0 (ackd :: vclr 1 :: fin),
   ent 13 0x4B LAST 0 0 (ackd :: vclr 1 :: wback :: fin),
   ent 13 0x21 0 0 13 [ackd, vclr 1],
   ent 13 0x4A 0 0 13 [ackd, vclr 1],
   ent 13 0x4B 0 0 13 [ackd, vclr 1, wback],
   ent 13 0x25 0 0 13 [vclr 1, wbsrc],
   ent 13 0x06 LAST 0 0 (ackd :: wback :: rsps 0x13 :: fin),
   ent 13 0x06 0 0 13 [ackd, wback, rsps 0x13, oset 2, crd],
   ent 14 0x27 0 0 14 [vset 1],
   ent 14 0x28 0 0 14 [vset 1, oset 1, chg],
   ent 14 0x29 0 0 14 [vset 1, oset 1, chg],
   ent 14 0x64 0 0 0x3F [done]]

/-- The default table: 117 entries. -/
def defaultTable : List (BitVec 128) := table1 ++ table2 ++ table3 ++ table4 ++ table5 ++ table6

/-! ## Checks of a load (R55, R149) -/

/-- The entries of a pair of state and event together match every condition value. -/
def covered (es : List PEnt) : Bool :=
  (List.range 256).all fun c => es.any fun p => decide (c &&& p.cmask = p.cval)

/-- Coverage over the pairs the device checks (R149). -/
def coverage (table : List (BitVec 128)) : Bool :=
  let ps := table.map pent
  let need := (List.range 4).flatMap fun s => [(s, 1), (s, 2), (s, 3), (s, 4), (s, 5), (s, 6), (s, evBinv)]
  (need ++ ps.map fun p => (p.cur, p.evt)).all fun x => covered (ps.filter fun p => p.cur = x.1 ∧ p.evt = x.2)

end Sys2Proof.Machine
end

