-- ==== Sys2Proof/Machine/Directory.lean ====
section
/-!
DEFINITION. The directory of a slice as operations: on-die entries (R134), the backstop (R135), the spill buffer
(R137), taking a way, fetches (R136), derived states (R152) and the charges that entries hold (R216).
-/

namespace Sys2Proof.Machine

/-- BASE as a number (R133). -/
def Base.num : Base → Nat
  | .i => 0
  | .s => 1
  | .x => 2
  | .o => 3

def baseOf (n : Nat) : Base := if n = 1 then .s else if n = 2 then .x else if n = 3 then .o else .i

/-- An entry with no holder and no mark is empty (R134, R138). -/
def DirEnt.empty (e : DirEnt) : Bool := e.base == .i && !e.pin

/-- A backstop entry as stored (R135). -/
def bstEnc (e : DirEnt) : Nat :=
  if e.base = .i then 0
  else e.ga % 2 ^ 36 + at_ e.base.num 36 + at_ ((e.own.map (·.val)).getD 0) 38 + at_ e.shr.toNat 42
    + at_ (b2n e.lch) 58 + at_ (b2n e.cns) 59

/-- A stored backstop entry read back; one with BASE 0 is empty. -/
def bstDec (x : Nat) : DirEnt :=
  let b := baseOf (bits x 36 2)
  if b = .i then {}
  else { ga := bits x 0 36, base := b, own := if b = .s then none else some (Fin.ofNat 16 (bits x 38 4)),
         shr := BitVec.ofNat 16 (bits x 42 16), lch := nbit x 58, cns := nbit x 59 }

/-- BASE derived from SHR and OWN (R152). -/
def DirEnt.derive (e : DirEnt) : Base :=
  if e.shr = 0 then .i
  else match e.own with
  | none => .s
  | some a => if e.shr = abit a then .x else .o

namespace Data

/-! ## On-die entries -/

def dirKey (ga way : Nat) : Nat := dsetOf ga * 16 + way
def dirEnt (d : Data) (n : SliceId) (k : Nat) : DirEnt := SMap.get {} d.slices[n].dir k
/-- Writes an on-die entry; one that is empty leaves its way empty. -/
def dirPut (d : Data) (n : SliceId) (k : Nat) (e : DirEnt) : Data :=
  d.modSlice n fun s => { s with dir := SMap.set {} s.dir k (if e.empty then {} else e) }
/-- The on-die way that holds a granule, pinned empty ways included. -/
def dirFind (d : Data) (n : SliceId) (ga : Nat) : Option Nat :=
  ((List.range 16).map (dirKey ga)).find? fun k => !(d.dirEnt n k).empty && (d.dirEnt n k).ga == ga
def spillFind (d : Data) (n : SliceId) (ga : Nat) : Option Nat := d.slices[n].spill.findIdx? fun x => x.e.ga == ga
/-- Ways of the granule's set pinned by a transaction or a fetch; census marks do not count (R139, R396). -/
def pinnedWays (d : Data) (n : SliceId) (ga : Nat) : Nat :=
  ((List.range 16).filter fun w => (d.dirEnt n (dirKey ga w)).pin && !(d.dirEnt n (dirKey ga w)).cns).length

/-- Puts an entry into the spill buffer (R137). -/
def spillPut (d : Data) (n : SliceId) (e : DirEnt) : Data :=
  d.modSlice n fun s => { s with spill := s.spill.concat { e := e } }

/-- Takes an on-die way for a granule: an empty one, or that of a victim, which moves to the spill buffer (R137). -/
def dirTake (d : Data) (n : SliceId) (ga : Nat) : Pass (Data × Nat) :=
  match ((List.range 16).map (dirKey ga)).find? fun k => (d.dirEnt n k).empty with
  | some k => .ok (d, k)
  | none =>
    let p := SMap.get 0 d.slices[n].rr (dsetOf ga)
    match ((List.range 16).map fun i => (p + i) % 16).find? fun w =>
        let e := d.dirEnt n (dirKey ga w)
        !e.pin || e.cns with
    | none => .error (.retry .pins)
    | some w =>
      if 16 ≤ d.slices[n].spill.length then .error (.retry .spill)
      else
        let e := d.dirEnt n (dirKey ga w)
        let d := d.spillPut n { e with pin := e.cns }
        let d := d.modSlice n fun s => { s with rr := SMap.set 0 s.rr (dsetOf ga) ((w + 1) % 16) }
        .ok (d.dirPut n (dirKey ga w) {}, dirKey ga w)

/-! ## The backstop -/

def bocc (d : Data) (n : SliceId) (b : Nat) : Bool := SMap.get false d.slices[n].bocc b

/-- A granule with no entry on die and none in the spill buffer needs a directory fetch: BOCC is 1, and no fetch made for
the waiting pass has found it absent (R136). -/
def needFetch (d : Data) (n : SliceId) (ga : Nat) : Bool := d.bocc n (bsetOf ga) && !d.slices[n].absent.contains ga

/-- Reads a backstop set; nothing where its codeword is uncorrectable, which is a slice fault (R271). -/
def bstRead (d : Data) (n : SliceId) (b : Nat) : Data × Option (List DirEnt) :=
  let k := bstKey n b
  let (d, r) := d.cwRead (some n) k
  if r.bad then ((d.evSto 6).stCapture k 127 3, none)
  else (d, some ((List.range 8).map fun i => bstDec (bits r.d.toNat (64 * i) 64)))

/-- Writes a backstop set, its occupancy bit and the count of entries. -/
def bstWrite (d : Data) (n : SliceId) (b : Nat) (old new : List DirEnt) : Data :=
  let cnt := fun (l : List DirEnt) => (l.filter fun e => e.base != .i).length
  let d := d.granPut (some n) (bstKey n b) (BitVec.ofNat 512 (new.mapIdx fun i e => at_ (bstEnc e) (64 * i)).sum) false
  d.modSlice n fun s =>
    { s with bocc := SMap.set false s.bocc b (decide (0 < cnt new)), bstUsed := s.bstUsed - cnt old + cnt new }

/-- Every occupied backstop set of a slice. -/
def bstSets (d : Data) (n : SliceId) : List Nat := d.slices[n].bocc.map (·.1)

/-- Every directory entry that a slice holds, on die, in the spill buffer and in the backstop, as it stands. -/
def dirAll (d : Data) (n : SliceId) : List DirEnt :=
  ((d.slices[n].dir.map (·.2)) ++ d.slices[n].spill.map (·.e)
    ++ (d.bstSets n).flatMap fun b =>
      match cwDecode (d.cwGet (bstKey n b)) with
      | .good g | .poison g | .fixed g _ => (List.range 8).map fun i => bstDec (bits g.toNat (64 * i) 64)
      | .bad _ => []).filter fun e => e.base != .i

/-! ## HTEs -/

def hteFind (d : Data) (n : SliceId) (ga : Nat) : Option Hte := d.slices[n].htes.find? fun h => h.ga == ga
def modHte (d : Data) (n : SliceId) (ga : Nat) (f : Hte → Hte) : Data :=
  d.modSlice n fun s => { s with htes := lmod (fun h => h.ga == ga) f s.htes }
/-- Frees an HTE; the unused remainder of its reservation returns to the ledger (R220). -/
def hteFree (d : Data) (n : SliceId) (ga : Nat) : Data :=
  let k := match d.hteFind n ga with | some h => h.rsv | none => 0
  (d.modDur fun u => { u with rv := u.rv - k }).modSlice n fun s => { s with htes := s.htes.filter fun h => h.ga != ga }

/-- Crossbar credits of a class that a slice has toward an agent: 32, less those reserved by HTEs and taken by store
reads on their way (R462). RV_RO reserves the RSP credit of an agent that the entry does not name: one toward each other
agent (assumption 62). -/
def xbCredit (d : Data) (n : SliceId) (p : Agent) (c : MsgClass) : Nat :=
  let s := d.slices[n]
  match c with
  | .dat => 32 - (s.htes.filter fun h => h.rd && h.req == some p).length - (s.stRd.filter fun r => r.port == p).length
  | .rsp => 32 - (s.htes.filter fun h => (h.rr && h.req == some p) || (h.ro && h.req != some p)).length
  | _ => 32

end Data

end Sys2Proof.Machine
end

