-- ==== Sys2Proof/Machine/Faults.lean ====
section
/-!
DEFINITION. Faults that change who serves what: a slice fault (R397), the failure of a backing port (R231), the
opening of a census (R395), and the capture of protocol errors and timeouts (R142, R172).
-/

namespace Sys2Proof.Machine

namespace Data

/-- SLCn_PERR (R156): the capture is held until VALID is cleared; raises event 5 (R142). -/
def protoErr (d : Data) (n : SliceId) (a : Agent) (cls op cur ga : Nat) : Data :=
  let d := (d.evSlc n 5).pmcSlc n 34
  let r := Reg.slcPerr n.val
  let v := a.val + at_ cls 4 + at_ op 7 + at_ cur 12
  if d.flag r 18 then d.lateCap r { v := BitVec.ofNat 32 (v + at_ 1 18), vb := 18, wide := ga, keep := BitVec.twoPow 32 19 }
  else
    let d := (d.regSet r (BitVec.ofNat 32 (v + at_ 1 18 + at_ (b2n (d.flag r 19)) 19))).stamp r (BitVec.twoPow 32 18)
    d.modSlice n fun s => { s with perrGa := ga }

/-- SLCn_TMO_CAP (R174). -/
def tmoCap (d : Data) (n : SliceId) (a kind ga : Nat) : Data :=
  let r := Reg.slcTmoCap n.val
  let d' := d.capture r 7 (some 8) (a + at_ kind 4) ga
  if d.flag r 7 then d' else d'.modSlice n fun s => { s with tmoGa := ga }

/-- Slices that can serve: active, not faulty and in service. -/
def serving (d : Data) : List SliceId :=
  d.activeSlices.filter fun n => !d.svc.fault.getLsbD n.val && !d.svc.out.getLsbD n.val

/-- Links over which an agent can answer (R234, R396). -/
def linkUp (s : LinkSt) : Bool := s == .active || s == .l1 || s == .wake || s == .recover

/-- Opens a census of a kind over the buckets of its share (R395). -/
def censusOpen (d : Data) (kind : Bool) (member : Bool) (slice : Nat) (buckets : List Nat) : Data :=
  let num := if d.pair.cnum ≥ 255 then 1 else d.pair.cnum + 1
  let desc : BitVec 40 := BitVec.ofNat 40 (num + at_ (b2n kind) 8 + at_ (b2n member) 9 + at_ slice 10)
  let up := allAgents.filter fun p => !d.ports[p].iso && linkUp (d.links[aptLink p]).st
  let left := up.foldl (fun s p => s ||| abit p) (0 : AgentSet)
  let c : Census := { num := num, kind := kind, desc := desc, start := d.now, left := left, buckets := buckets }
  let d := d.modPair fun x => { x with cnum := num, census := some c }
  up.foldl (fun d p =>
    (d.toAgent p { cls := .snp, op := 5, gaddr := desc }).modPort p fun x => { x with census := some desc }) d

/-- A slice fault (R397): the slice stops, its buckets are fenced and remapped, the charges of its directory are
credited, its maintenance operations are abandoned, and its census and salvage are called for. A REQ that the crossbar has
not granted waits at its port for the new home (R21). -/
def sliceFault (d : Data) (n : SliceId) : Data :=
  if d.svc.fault.getLsbD n.val then d
  else
    let s := d.slices[n]
    let lch := ((d.dirAll n).filter (·.lch)).length
    let rsv := (s.htes.map (·.rsv)).sum
    let mine := (List.range 256).filter fun b => (d.ilvAt b).toNat % 8 = n.val
    let rest := (d.serving.filter (· != n)).map (·.val)
    let d := d.samplesCut n fun _ => true
    let d := d.credit lch
    let d := d.modDur fun u => { u with rv := u.rv - rsv }
    let d := d.ilvMod (fun b _ => mine.contains b) fun b e =>
      let home := rest.getD (b % rest.length) n.val
      (e &&& 0xF8) ||| BitVec.ofNat 8 home ||| 0x10
    let d := { d with mnts := lmod (fun t => t.left.contains n) (fun t => { t with left := t.left.filter (· != n), abort := true }) d.mnts }
    let d := d.modSlice n fun s =>
      { tags := s.tags, sets := s.sets, wb := s.wb.map fun e => { e with issued := true }, cdis := s.cdis, cdisAt := s.cdisAt,
        perrGa := s.perrGa, tmoGa := s.tmoGa, arb := s.arb, arbAt := s.arbAt, salv := some { start := d.now } }
    let d := allAgents.foldl (fun (d : Data) p => d.modPort p fun x =>
      { x with held := x.held.map fun r => if r.dst = some n then { r with dst := none } else r }) d
    let d := d.modSvc fun x =>
      { x with fault := setBit x.fault n.val true, need := setBit x.need n.val true, salv := setBit x.salv n.val true,
               cnsDone := setBit x.cnsDone n.val false, resumed := setBit x.resumed n.val false, faultAt := d.now, share := vmod x.share n fun _ => mine }
    (d.reloadCut.evSlc n 0).evSlc n 24

/-- The directory of a slice is read whole: a backstop set that is uncorrectable is a slice fault (R271). -/
def dirCheck (d : Data) (n : SliceId) : Data :=
  match (d.bstSets n).find? fun b => match cwDecode (d.cwGet (bstKey n b)) with | .bad _ => true | _ => false with
  | some b => (((d.evSto 6).stCapture (bstKey n b) 127 3).rowsCall (bstKey n b)).sliceFault n
  | none => d

/-- A table fault (R149). -/
def tableFault (d : Data) (n : SliceId) : Data :=
  ((d.raise (Reg.slcPerr n.val) 19).evSlc n 6).sliceFault n

/-- Readmits the waiters of a slice that satisfy `p` (R99). -/
def wake (d : Data) (n : SliceId) (p : Loc → Bool) : Data :=
  d.modSlice n fun s => { s with waiters := lmod (fun w => p w.loc) (fun w => { w with loc := .ready, since := d.now }) s.waiters }

/-- A backing port fails (R231): its open reads fail, its entries are held back, and the sets whose only dirty sectors
lie behind it leave the dirty maps (R222). -/
def bkpFailPort (d : Data) (b : BkpId) : Data :=
  if d.bkps[b].st = .failed then d
  else
    let d := d.modBkp b fun x => { x with st := .failed }
    let d := d.evBkp b 4
    let d := d.modDur fun u => { u with portFailed := setBit u.portFailed b.val true }
    allSlices.foldl (fun d n =>
      let mine := fun (sec : Nat) => d.bkpOf (2 * sec) == b
      let d := d.modSlice n fun s =>
        { s with mt := lmod (fun e => mine e.sec && e.got.isNone && !e.zero) (fun e => { e with failed := true }) s.mt
                 wb := lmod (fun e => d.bkpOf e.ga == b) (fun e => { e with sent := none }) s.wb }
      let dead := (List.finRange 32).filter fun i => d.slices[n].side[i].st == .pend && mine d.slices[n].side[i].sec
      let d := dead.foldl (fun d i =>
        let d := if d.slices[n].side[i].issued.isSome then (d.fldCnt (Reg.bkpErrCnt b.val) 0 16 1).evBkp b 2 else d
        ((d.modSide n i fun _ => {}).wake n fun l => l == .onSide i.val)) d
      (d.slices[n].maps.toList.flatten).foldl (fun d set => d.settleDirty n set) d) d

end Data

end Sys2Proof.Machine
end

