-- ==== Sys2Proof/Machine/Pass.lean ====
section
/-!
DEFINITION. The home protocol engine: what one pass does (R143 to R154), the backing read it may start (R99 to R103),
answers (R144, R163, R164), census reports (R396) and fills (R100 to R102, R119).
-/

namespace Sys2Proof.Machine

/-- What a pass carries: its slice and granule, priority 1 or 2, requester, sender, the request whose data it may
apply, the data of a fill, whether the cache is disabled for it, a census pass, the conditions and the home source. -/
structure Ctx where
  n : SliceId
  ga : Nat
  p12 : Bool
  req : Option Agent
  sender : Option Agent := none
  rq : Option Req := none
  fill : Option (Gran × Bool) := none
  dis : Bool := false
  census : Bool := false
  c : Conds := {}
  src : Option Src := none
  cur : Nat := 0
  op : Nat := 0
  /-- Charges come from the reservation of an HTE that stood before the pass (R220). -/
  res : Bool := false
  /-- The conditions that select the entry, where they are not those of the pass (R164). -/
  sel : Option Conds := none
  /-- The age of the pass (R95). -/
  age : Nat := 0

/-- Where the entry of a granule stands. -/
inductive ELoc where
  | none
  | die (k : Nat)
  | spill
deriving DecidableEq, Repr

/-- The state inside a pass: the machine, the working entry and where it stands, whether an ordinary ledger request
was made, and a REPLAY seen. -/
structure PSt where
  d : Data
  e : DirEnt
  loc : ELoc
  ord : Bool := false
  again : Option Nat := none

/-- The granule of a waiting pass. -/
def WKind.ga : WKind → Nat
  | .req r => r.ga
  | .answer m => m.ga
  | .bkrd ga => ga
  | .binv ga => ga
  | .hash _ ga => ga
  | .engine _ ga => ga.getD 0

/-- The line that a waiting pass works on; the engine steps of a set have none. -/
def WKind.line : WKind → Option Nat
  | .engine _ ga => ga.map lineOf
  | k => some (lineOf k.ga)

namespace Data

/-! ## Looking up (R136, R147) -/

/-- The entry of a granule on die or in the spill buffer. -/
def lookup (d : Data) (n : SliceId) (ga : Nat) : DirEnt × ELoc :=
  match d.dirFind n ga with
  | some k => (d.dirEnt n k, .die k)
  | none =>
    match d.slices[n].spill.find? fun x => x.e.ga == ga with
    | some x => (x.e, .spill)
    | none => ({ ga := ga }, .none)

def others (e : DirEnt) (req : Option Agent) : AgentSet :=
  let s := match req with | some a => e.shr &&& ~~~(abit a) | none => e.shr
  match e.own with | some a => s &&& ~~~(abit a) | none => s

/-- The conditions of R147. -/
def conds (d : Data) (ga : Nat) (e : DirEnt) (req : Option Agent) (src : Option Src) (pend : AgentSet)
    (sender : Option Agent) (rq : Option Req) : Conds :=
  { hit := src.isSome
    others := others e req != 0
    reqown := req.isSome && req == e.own && (e.base == .x || e.base == .o)
    reqsh := match req with | some a => e.shr.getLsbD a.val | none => false
    dur := d.durable ga
    bud := d.bud
    last := match sender with | some a => pend == abit a | none => false
    full := match rq with | some r => r.op == 4 && r.be == beAll | none => false }

/-- The current state used for selection (R145). -/
def curOf (d : Data) (n : SliceId) (e : DirEnt) : Nat :=
  if e.cns then 14
  else if e.pin then match d.hteFind n e.ga with | some h => h.st | none => e.base.num
  else e.base.num

/-- The live hold record of an agent for a granule (R154). -/
def holdOf (d : Data) (n : SliceId) (ga : Nat) (a : Agent) : Option Hold :=
  match d.rig with
  | some r => if r.fpm then d.slices[n].holds.find? fun h => h.ga == ga && h.agent == a && decide (d.now < h.expiry) else none
  | none => none

/-- Starts the timers of the owed markers of an agent whose transaction the home completes (R172). -/
def owedStart (d : Data) (n : SliceId) (ga : Nat) (a : Agent) : Data :=
  if d.slices[n].owed.isEmpty then d
  else d.modSlice n fun s => { s with owed := lmod (fun o => o.ga == ga && o.agent == a && o.timer.isNone) (fun o => { o with timer := some d.now }) s.owed }

/-! ## Wait lists (R95) -/

/-- An older pass waits in the list of a resource: nothing overtakes it. -/
def behind (d : Data) (n : SliceId) (age : Nat) (f : Loc → Bool) : Bool :=
  d.slices[n].waiters.any fun w => decide (w.seq < age) && f w.loc

/-- A pass of age `age` that took `d0` to `d` has taken no write-buffer entry, miss-tracker entry or MIR credit that an older
pass waits for. -/
def inTurn (d0 d : Data) (n : SliceId) (age : Nat) : Pass Data :=
  if d.wbFree n < d0.wbFree n && d0.behind n age (fun l => match l with | .wbFull _ => true | _ => false) then
    .error (.wb (d0.wbFree n - d.wbFree n))
  else if d0.slices[n].mt.length < d.slices[n].mt.length && d0.behind n age (· == .mtFull) then .error .mt
  else if d0.mirWaiting < d.mirWaiting && d0.behind n age (· == .mirCredit) then .error .mir
  else .ok d

/-- The wait list that an older pass of the same line is in: a later pass of the line joins it. -/
def lineWait (d : Data) (n : SliceId) (age line : Nat) : Option Block :=
  d.slices[n].waiters.findSome? fun w =>
    if w.seq < age ∧ w.kind.line = some line then
      match w.loc with
      | .mtFull => some .mt
      | .wbFull k => some (.wb k)
      | .credit c p => some (.credit c p)
      | .mirCredit => some .mir
      | _ => none
    else none

/-! ## Sending (R146, R148, R462) -/

/-- Takes the credit of a message to agent `p`: what the HTE reserves for it, else a free one; a pass of priority 1
or 2 that holds no reservation is a table fault (R149). -/
def takeCredit (c : Ctx) (s : PSt) (p : Agent) (cls : MsgClass) : Pass PSt :=
  let h := s.d.hteFind c.n c.ga
  let mine : Bool := match h with | some h => h.req == some p | none => false
  let rd : Bool := match h with | some h => h.rd | none => false
  let rr : Bool := match h with | some h => h.rr | none => false
  let ro : Bool := match h with | some h => h.ro | none => false
  if cls = .dat ∧ mine ∧ rd then .ok { s with d := s.d.modHte c.n c.ga fun h => { h with rd := false } }
  else if cls = .rsp ∧ mine ∧ rr then .ok { s with d := s.d.modHte c.n c.ga fun h => { h with rr := false } }
  else if cls = .rsp ∧ !mine ∧ ro then .ok { s with d := s.d.modHte c.n c.ga fun h => { h with ro := false } }
  else if c.p12 then .error .tfault
  else if s.d.behind c.n c.age (fun l => match l with | .credit k _ => k == cls | _ => false) then .error (.credit cls p)
  else if 0 < s.d.xbCredit c.n p cls then .ok s
  else .error (.credit cls p)

/-- An RSP of the home (R148). -/
def homeRsp (c : Ctx) (s : PSt) (p : Agent) (op : Nat) : Pass PSt := do
  let s ← takeCredit c s p .rsp
  let d := s.d.rspTo p (BitVec.ofNat 5 op) (gaddr c.ga)
  let d := if op = 0x10 ∨ op = 0x11 then d.owedStart c.n c.ga p else d
  let d := if op = 0x14 then ((d.fldCnt (Reg.slcWbstaleCnt c.n.val) 0 32 1).pmcSlc c.n 33).evSlc c.n 21 else d
  let d := if op = 0x14 && ((d.pair.foLate && d.takenHalf c.ga) || d.svc.late.contains (bucketOf (lineOf c.ga))) && d.durable c.ga then d.lossAdd (d.rgnNo c.ga) { agent := 1 } else d
  let d := d.sampleMod c.n p c.ga fun x => { x with t2 := if x.t2 = 0 then d.smpS16 else x.t2 }
  pure { s with d := d.sampleEnd c.n p c.ga d.smpS16 false }

/-- DAT of the home (R148), sent now. -/
def homeDat (c : Ctx) (s : PSt) (p : Agent) (op : Nat) (g : Gran) (poison : Bool) (src late : Nat) : Pass PSt := do
  let s ← takeCredit c s p .dat
  let d := (s.d.datTo p (BitVec.ofNat 5 op) c.ga g poison).owedStart c.n c.ga p
  let d := d.sampleMod c.n p c.ga fun x => { x with t2 := if x.t2 = 0 then d.smpS16 else x.t2, src := src }
  pure { s with d := d.sampleEnd c.n p c.ga (d.smpClock + late) false }

/-- A snoop to one agent, unless a hold blocks it (R154). -/
def snoop (c : Ctx) (s : PSt) (a : Agent) (op : Nat) (home shared : Bool) : Pass PSt :=
  match s.d.holdOf c.n c.ga a with
  | some h => .error (.retry (.hold h.expiry))
  | none =>
    match s.d.hteFind c.n c.ga with
    | none => .error .tfault
    | some _ =>
      let peer := if home then 0 else match c.req with | some r => BitVec.ofNat 4 r.val | none => 0
      let d := s.d.toAgent a { cls := .snp, op := BitVec.ofNat 5 op, gaddr := gaddr c.ga, peer := peer, home := home }
      let d := d.modHte c.n c.ga fun h =>
        { h with pend := h.pend ||| abit a, pendX := if shared then h.pendX ||| abit a else h.pendX, start := d.now }
      let d := match c.req with
        | some r => d.sampleMod c.n r c.ga fun x => { x with t3 := some (x.t3.getD d.smpS16) }
        | none => d
      .ok { s with d := d.pmcSlc c.n 24 }

/-! ## Backing reads (R99 to R103, R148) -/

/-- Write-buffer entries of a sector that are ISSUED (R103). -/
def wbIssuedSec (d : Data) (n : SliceId) (sec : Nat) : Bool := d.slices[n].wb.any fun e => e.issued && secOf e.ga == sec

/-- The domain of a granule's backing port is up. -/
def bkpUp (d : Data) (ga : Nat) : Bool := d.domUp (bkpDom (d.bkpOf ga))

/-- Issues the reads of miss-tracker entries and PEND side-buffer entries that no ISSUED entry of their sector holds back and
whose port is up (R103, R409). -/
def issueReads (d : Data) (n : SliceId) : Data :=
  let go := fun (d : Data) (x : Nat × Nat) =>
    let sec := x.1
    ((d.pmcBkp (d.bkpOf (2 * sec)) 0 x.2).modSlice n fun s =>
      { s with
        mt := lmod (fun e => e.sec == sec && e.issued.isNone) (fun e => { e with issued := some d.now }) s.mt
        side := s.side.map fun e => if e.st == .pend && e.sec == sec && e.issued.isNone then { e with issued := some d.now } else e })
  let ms := (d.slices[n].mt.filter fun e =>
    e.issued.isNone && !e.zero && !e.failed && e.got.isNone && d.bkpUp (2 * e.sec) &&
      !d.wbIssuedSec n e.sec).map fun e => (e.sec, zsReads e.zs)
  let ss := (d.slices[n].side.toList.filter fun e =>
    e.st == .pend && e.issued.isNone && !e.zero && d.bkpUp (2 * e.sec) && !d.wbIssuedSec n e.sec).map fun e => (e.sec, zsReads e.zs)
  (ms ++ ss).foldl go d

/-- A backing read of a sector makes its OPEN entries ISSUED: the read waits for their acknowledgement (R103, R107; assumption
64). -/
def wbForRead (d : Data) (n : SliceId) (sec : Nat) : Data :=
  d.modWb n (fun e => wbOpen e && secOf e.ga == sec) fun e => { e with issued := true }

/-- Creates a miss-tracker entry and issues its read, or has it answered by zeros or by a failure (R79, R229). -/
def mtNew (d : Data) (n : SliceId) (ga : Nat) (use : MtUse) (alloc : Option (Nat × Nat)) (vic keep : Bool) (htes : List Nat) :
    Data :=
  let idx := (freeIdx 64 (d.slices[n].mt.map (·.idx))).getD 0
  let (d, zs) := d.touchZero n (secOf ga)
  let failed := d.bkpFailed ga && zs != 3
  let here := match d.hitWay n (lineOf ga) with | some w => (d.tagEnt n (setOf (lineOf ga)) w).st == .valid | none => false
  let e : MtEnt := { idx := idx, uid := d.seq, sec := secOf ga, first := ga, use := use, alloc := alloc, vic := vic, keep := keep, fills := here, made := d.now, zs := zs, failed := failed, htes := htes }
  let d := { d with seq := d.seq + 1 }.modSlice n fun s => { s with mt := s.mt.concat e }
  let d := d.fldPeak (Reg.slcMtStat n.val) 7 7 d.slices[n].mt.length
  if zs == 3 || failed then d
  else (((if use == .demand then d.pmcSlc n 12 else d).wbForRead n (secOf ga)).issueReads n)

/-- BKRD: joins the read of the sector, or starts one, allocating by R100 or not by R101; `join`: an HTE that
waited in the miss-tracker list; `hs`: the HTEs that the data goes to. -/
def startRead (d : Data) (n : SliceId) (ga : Nat) (dis join : Bool) (hs : List Nat) : Pass Data := do
  let line := lineOf ga
  match d.slices[n].mt.find? fun e => e.sec == secOf ga && e.use == .demand with
  | some e =>
    if join then
      pure (d.modSlice n fun s => { s with mt := lmod (fun x => x.uid == e.uid) (fun x => { x with htes := x.htes.concat ga }) s.mt })
    else throw (.onMt e.idx)
  | none =>
    match d.slices[n].mt.find? fun e => e.alloc.isSome && e.sec / 16 == line with
    | some e => throw (.onMt e.idx)
    | none =>
      match (if dis then none else d.sideFind n (secOf ga)) with
      | some i => if d.slices[n].side[i].st = .pend then throw (.onSide i.val)
      | none => pure ()
      if d.mirrorSector (secOf ga) then throw (.retry .mirror)
      if 64 ≤ d.slices[n].mt.length then throw .mt
      let keep := !dis && cacheIn d.regions ga
      if !dis && allocIn d.regions ga && (d.hitWay n line).isNone && !d.bkpFailed ga then
        match ← d.allocate n line with
        | some (w, vic, d) => pure (d.mtNew n ga .demand (some (setOf line, w)) vic keep hs)
        | none => pure (d.mtNew n ga .demand none false keep hs)
      else pure (d.mtNew n ga .demand none false keep hs)

/-! ## A demand use of a side-buffer entry (R119) -/

/-- What follows the service of a demand read from side-buffer entry `i`. -/
def sideServed (d : Data) (n : SliceId) (ga : Nat) (i : Fin 32) : Data :=
  let e := d.slices[n].side[i]
  let line := lineOf ga
  let used := (if e.st = .ready then d.pmcSlc n 30 else d).modSide n i fun x => { x with st := .used, since := d.now }
  if !allocIn d.regions ga then used
  else
    match d.hitWay n line with
    | some w =>
      if (d.tagEnt n (setOf line) w).st = .valid then
        ((used.wayPut n (setOf line) w (secIn ga) e.data).touchFill n (setOf line) w ga).modSide n i fun _ => {}
      else used
    | none =>
      if d.slices[n].mt.any fun x => x.alloc.isSome && x.sec / 16 == line then used
      else match used.allocate n line with
      | .ok (some (w, false, d)) => (d.wayPut n (setOf line) w (secIn ga) e.data).modSide n i fun _ => {}
      | .ok (some (w, true, d)) =>
        if 64 ≤ d.slices[n].mt.length then used
        else
          let idx := (freeIdx 64 (d.slices[n].mt.map (·.idx))).getD 0
          let m : MtEnt := { idx := idx, uid := d.seq, sec := secOf ga, first := ga, alloc := some (setOf line, w), vic := true, keep := true, made := d.now, got := some e.data }
          let d := { d with seq := d.seq + 1 }.modSlice n fun s => { s with mt := s.mt.concat m }
          (d.fldPeak (Reg.slcMtStat n.val) 7 7 d.slices[n].mt.length).modSide n i fun _ => {}
      | _ => used

/-! ## Primitives (R148) -/

/-- HTE: allocates the HTE, pins the entry and makes the reservations of the RV bits (R143, R146, R220). -/
def primHte (c : Ctx) (p : PEnt) (s : PSt) : Pass PSt := do
  if c.census then return { s with e := { s.e with pin := true, cns := true } }
  let d := s.d
  if 128 ≤ d.slices[c.n].htes.length then throw (.retry .noHte)
  if s.loc != .spill && 14 ≤ d.pinnedWays c.n c.ga then throw (.retry .pins)
  let short := fun (cls : MsgClass) (a : Agent) =>
    d.xbCredit c.n a cls = 0 || d.behind c.n c.age (fun l => match l with | .credit k _ => k == cls | _ => false)
  match c.req with
  | some a =>
    if p.rd && short .dat a then throw (.credit .dat a)
    if p.rr && short .rsp a then throw (.credit .rsp a)
  | none => pure ()
  match (if p.ro then allAgents.find? fun a => some a != c.req && d.portEn a && short .rsp a else none) with
  | some a => throw (.credit .rsp a)
  | none => pure ()
  if p.wb && d.wbFree c.n < 2 then throw (.wb 2)
  let dur := c.c.dur
  let h : Hte := { ga := c.ga, st := 0, req := c.req, rq := c.rq, rd := p.rd, rr := p.rr, ro := p.ro, wb := if p.wb then 2 else 0, rslot := p.rd, wslot := p.wb, rsv := if dur then 3 else 0, dur := dur, start := d.now, seq := d.seq }
  let d := { d with seq := d.seq + 1 }.modSlice c.n fun x => { x with htes := x.htes.concat h }
  let d := if dur then d.modDur fun u => { u with rv := u.rv + 3 } else d
  pure { s with d := d.pmcSlc c.n 28, e := { s.e with pin := true }, ord := s.ord || (dur && c.c.bud) }

/-- DATH: the granule from the fill or from the first home source to the requester. -/
def primDath (c : Ctx) (s : PSt) (op : Nat) : Pass PSt :=
  match c.req, c.fill, c.src with
  | none, _, _ => .error .tfault
  | some a, some (g, p), _ => homeDat c s a op g p 5 12
  | some _, none, none => .error .tfault
  | some a, none, some src => do
    let (d, g, p) ← s.d.sourceRead c.n c.ga src
    match src with
    | .store set way =>
      let d := d.modHte c.n c.ga fun h => { h with rslot := false }
      let s ← takeCredit c { s with d := (d.touch c.n set way).pmcSlc c.n 8 } a .dat
      let it : TxItem := { cls := .dat, op := BitVec.ofNat 5 op, gaddr := gaddr c.ga, peer := BitVec.ofNat 4 a.val, poison := p, data := some g }
      let d := s.d.modSlice c.n fun x => { x with stRd := x.stRd.concat { port := a, item := it } }
      let d := (d.owedStart c.n c.ga a).sampleMod c.n a c.ga fun x => { x with t3 := some (x.t3.getD d.smpS16), src := 4 }
      pure { s with d := d }
    | .wbuf => homeDat c { s with d := d.pmcSlc c.n 9 } a op g p 2 25
    | .side i => do
      let s ← homeDat c { s with d := d.pmcSlc c.n 10 } a op g p 3 25
      pure { s with d := s.d.sideServed c.n c.ga i }
    | .mirror => homeDat c { s with d := d } a op g p 4 25

/-- HOLD: a record for the requester, renewed where one is live (R154). -/
def primHold (c : Ctx) (s : PSt) : PSt :=
  match c.req, s.d.rig with
  | some a, some r =>
    if !r.fpm then s
    else
      let x := s.d.now + 16 + r.hold
      { s with d := s.d.modSlice c.n fun sl =>
          let live := sl.holds.filter fun h => decide (s.d.now < h.expiry)
          if live.any fun h => h.ga == c.ga && h.agent == a then
            { sl with holds := lmod (fun h => h.ga == c.ga && h.agent == a) (fun h => { h with expiry := x }) live }
          else if live.length < 256 then { sl with holds := live.concat { ga := c.ga, agent := a, expiry := x } }
          else { sl with holds := live } }
  | _, _ => s

/-- The agent an operand names: 0 the requester, 1 the sender. -/
def who (c : Ctx) (o : Nat) : Option Agent := if o = 0 then c.req else if o = 1 then c.sender else none

/-- The write of a pass waits on the pending fill of its sector (R99, R104). -/
def fillPending (c : Ctx) (d : Data) : Pass Unit :=
  if c.p12 then .ok ()
  else match d.slices[c.n].mt.find? fun e => e.sec == secOf c.ga && e.use == .demand with
  | some e => .error (.onMt e.idx)
  | none => .ok ()

/-- One primitive. -/
def prim (c : Ctx) (p : PEnt) (s : PSt) (code o : Nat) : Pass PSt :=
  let h : Option Nat := if c.res then some c.ga else none
  match code with
  | 0x01 => primHte c p s
  | 0x02 => .ok { s with d := s.d.hteFree c.n c.ga, e := { s.e with pin := false, cns := false } }
  | 0x03 => match s.e.own with | some a => snoop c s a o false false | none => .ok s
  | 0x04 => match s.e.own with | some a => snoop c s a o true false | none => .ok s
  | 0x05 => (agents (others s.e c.req)).foldlM (fun s a => snoop c s a o true true) s
  | 0x06 => match c.sender with
    | some a => .ok { s with d := s.d.modHte c.n c.ga fun h => { h with pend := h.pend &&& ~~~(abit a), pendX := h.pendX &&& ~~~(abit a) } }
    | none => .ok s
  | 0x07 => match c.req with | some a => homeRsp c s a o | none => .ok s
  | 0x08 => match c.sender with | some a => homeRsp c s a o | none => .ok s
  | 0x09 => primDath c s o
  | 0x0A => match c.req, s.d.hteFind c.n c.ga with
    | some a, some t => homeDat c s a o t.buf t.bufP 1 16
    | _, _ => .error .tfault
  | 0x0B =>
    if c.p12 then .ok { s with d := s.d.await c.n (.bkrd c.ga) .mtFull (some c.dis) }
    else do
      let d ← s.d.startRead c.n c.ga c.dis false [c.ga]
      let d := match c.req with
        | some a => d.sampleMod c.n a c.ga fun x => { x with t3 := some (x.t3.getD d.smpS16), src := 5 }
        | none => d
      pure { s with d := d }
  | 0x0C => match c.rq with
    | some r => do
      fillPending c s.d
      let d ← s.d.applyWrite c.n c.ga r.be r.data r.poison r.wt c.dis h
      pure { s with d := d, ord := s.ord || !c.res }
    | none => .ok s
  | 0x0D =>
    let x := match s.d.hteFind c.n c.ga with
      | some t => some (t.buf, t.bufP)
      | none => c.rq.map fun r => (r.data, r.poison)
    match x with
    | some (g, q) => do
      fillPending c s.d
      let d ← s.d.applyWrite c.n c.ga beAll g q false c.dis h
      pure { s with d := d, ord := s.ord || !c.res }
    | none => .ok s
  | 0x0E => match who c o with | some a => .ok { s with e := { s.e with shr := s.e.shr ||| abit a } } | none => .ok s
  | 0x0F =>
    if o = 2 then .ok { s with e := { s.e with shr := 0 } }
    else match who c o with | some a => .ok { s with e := { s.e with shr := s.e.shr &&& ~~~(abit a) } } | none => .ok s
  | 0x10 => .ok { s with e := { s.e with own := if o = 2 then none else who c o } }
  | 0x11 =>
    if !s.e.lch && c.c.dur then
      .ok { s with d := s.d.draw c.n h 1, e := { s.e with lch := true }, ord := s.ord || (!c.res && !c.census && c.c.bud) }
    else .ok s
  | 0x12 => if s.e.lch then .ok { s with d := s.d.credit 1, e := { s.e with lch := false } } else .ok s
  | 0x13 => .ok (primHold c s)
  | 0x14 => match c.sender with
    | some a =>
      .ok { s with d := s.d.modHte c.n c.ga fun t => { t with wbsrc := some a, start := s.d.now } }
    | none => .ok s
  | 0x15 => .ok { s with again := some o }
  | 0x16 => match c.req with | some a => homeDat c s a 1 0 true 5 12 | none => .ok s
  | 0x17 => match c.req with
    | some a => do
      let s ← homeRsp c s a 0x16
      pure { s with d := s.d.protoErr c.n a 0 c.op c.cur c.ga }
    | none => .ok s
  | 0x18 => .ok { s with d := if o < 48 then s.d.evSlc c.n o else s.d }
  | _ => .error .tfault

/-- The slots of an entry in order, up to a REPLAY. -/
def slots (c : Ctx) (p : PEnt) : List (Nat × Nat) → PSt → Pass PSt
  | [], s => .ok s
  | x :: xs, s => do
    let s ← prim c p s x.1 x.2
    if s.again.isSome then pure s else slots c p xs s

/-! ## The end of a pass -/

/-- Sets the next state (R146, R152). -/
def nextState (c : Ctx) (s : PSt) (nxt : Nat) : Pass PSt :=
  if nxt = 0x3E then .ok s
  else if nxt = 0x3F then .ok { s with e := { s.e with base := s.e.derive } }
  else if nxt < 4 then .ok { s with e := { s.e with base := baseOf nxt } }
  else if c.census then .ok { s with e := { s.e with base := s.e.derive } }
  else match s.d.hteFind c.n c.ga with
  | some _ => .ok { s with d := s.d.modHte c.n c.ga fun h => { h with st := nxt } }
  | none => .error .tfault

/-- Writes the entry back (R137). -/
def putEntry (c : Ctx) (s : PSt) : Pass Data :=
  match s.loc with
  | .die k => .ok (s.d.dirPut c.n k s.e)
  | .spill => .ok (s.d.modSlice c.n fun x =>
      { x with spill := if s.e.empty then x.spill.filter fun y => y.e.ga != c.ga
                        else lmod (fun y => y.e.ga == c.ga) (fun y => { y with e := s.e }) x.spill })
  | .none =>
    if s.e.empty then .ok s.d
    else do
      let (d, k) ← s.d.dirTake c.n c.ga
      pure (d.dirPut c.n k s.e)

/-- The ledger and mirror-credit conditions at the end of a pass that began in `d0` (R218, R219, R385). -/
def settlePass (d0 d : Data) (c : Ctx) (ord : Bool) : Pass Data :=
  let net := d.load - d0.load
  if ord ∧ 0 < net ∧ d0.load + net + 512 > d0.budget then .error .ledger
  else if !c.p12 ∧ d0.mirWaiting < d.mirWaiting ∧ d.mirCredits < d.mirWaiting then .error .mir
  else .ok d.ledgerSettle

/-- Selects and performs an entry, once more after a REPLAY, and applies the next state (R148, R149). An entry with HOLD, while
256 records are live, sends a pass of priorities 3 to 6 to its retry queue (R154); one of priority 1 or 2 never waits (R96,
R150), takes no record and goes on (assumption 65). -/
def engine (c : Ctx) (s : PSt) (evt : Nat) : Pass PSt := do
  let table := match s.d.rig with | some r => r.table | none => []
  let full := fun (p : PEnt) =>
    !c.p12 && (p.slots.any fun x => x.1 = 0x13) && (match s.d.rig with | some r => r.fpm | none => false) &&
      decide (256 ≤ (s.d.slices[c.n].holds.filter fun h => decide (s.d.now < h.expiry)).length)
  match pselect table c.cur evt (c.sel.getD c.c).num with
  | none => throw .tfault
  | some p =>
    if full p then throw (.retry .holdFull)
    let s ← slots c p p.slots s
    match s.again with
    | none => nextState c s p.nxt
    | some o =>
      match pselect table c.cur (evReq o) (c.sel.getD c.c).num with
      | none => throw .tfault
      | some p =>
        if full p then throw (.retry .holdFull)
        let s ← slots c p p.slots { s with again := none }
        if s.again.isSome then throw .tfault
        nextState c s p.nxt

/-- A whole pass on a granule whose entry is known. -/
def runPass (d0 : Data) (c : Ctx) (s : PSt) (evt : Nat) : Pass Data := do
  let s ← engine c s evt
  let d ← putEntry c s
  settlePass d0 d c s.ord

/-! ## Requests (R145, R147, R160 to R164) -/

/-- A granule whose set an unfinished salvage has not reached (R398). -/
def salvWait (d : Data) (ga : Nat) : Bool :=
  allSlices.any fun n =>
    match d.slices[n].salv with
    | some s => d.svc.share[n].contains (bucketOf (lineOf ga)) &&
        ((decide (s.next ≤ setOf (lineOf ga)) && !s.extra.contains (setOf (lineOf ga))) || s.await.any fun x => x.1 == setOf (lineOf ga))
    | none => false

/-- The pass whose entry for the REQ takes effect is T2 (R331). -/
def sampleS16 (d : Data) (n : SliceId) (r : Req) : Data := d.sampleMod n r.agent r.ga fun x => { x with t2 := d.smpS16 }

/-- A WB of WBSRC applied to its HTE (R145, R162). -/
def wbHte (d : Data) (n : SliceId) (h : Hte) (r : Req) (dis : Bool) (age : Nat) : Pass Data :=
  let (e, loc) := d.lookup n r.ga
  let src := d.source n r.ga dis
  let c : Ctx := { n := n, ga := r.ga, p12 := false, req := h.req, sender := some r.agent, rq := h.rq, dis := dis, src := src, cur := h.st, op := 6, res := true, age := age, c := d.conds r.ga e h.req src h.pend (some r.agent) h.rq }
  let d1 := d.modHte n r.ga fun t => { t with buf := r.data, bufP := r.poison, start := d.now }
  d.runPass c { d := (d1.pmcSlc n 6).sampleS16 n r, e := e, loc := loc } (evReq 6)

/-- An answer to an HTE (R144, R148). The condition FULL, which R147 defines by the REQ of a pass, is that of the request the
HTE holds, in every pass that an RSP, DAT, FILL or WB makes for it (assumption 66). -/
def rspHte (d : Data) (n : SliceId) (h : Hte) (a : Agent) (evt : Nat) : Pass Data :=
  let (e, loc) := d.lookup n h.ga
  let dis := d.disabled n h.ga
  let src := d.source n h.ga dis
  let c : Ctx := { n := n, ga := h.ga, p12 := true, req := h.req, sender := some a, rq := h.rq, dis := dis, src := src, cur := h.st, op := evt % 32, res := true, c := d.conds h.ga e h.req src h.pend (some a) h.rq }
  d.runPass c { d := d.modHte n h.ga fun t => { t with start := d.now }, e := e, loc := loc } evt

/-- Some older REQ of the granule waits in the retry queue (R153). -/
def olderRetry (d : Data) (n : SliceId) (seq ga : Nat) : Bool :=
  d.slices[n].waiters.any fun w =>
    match w.kind, w.loc with
    | .req r, .retry _ => decide (w.seq < seq) && r.ga == ga
    | _, _ => false

/-- The entry of a request's granule on die, taken back from the spill buffer where it stands there; a fetch where
only the backstop can tell (R136, R137). -/
def reqEntry (d : Data) (n : SliceId) (ga : Nat) : Pass (Data × DirEnt × ELoc) :=
  match d.lookup n ga with
  | (e, .die k) => .ok (d, e, .die k)
  | (e, .spill) =>
    if e.pin then .ok (d, e, .spill)
    else do
      let d := d.modSlice n fun s => { s with spill := s.spill.filter fun x => x.e.ga != ga }
      let (d, k) ← d.dirTake n ga
      pure (d.dirPut n k e, e, .die k)
  | (e, .none) => if d.needFetch n ga then .error .fetch else .ok (d, e, .none)

/-- A REQ's pass: the state, and whether the REQ leaves the slice (an implicit answer leaves it queued, R163). -/
def reqTry (d : Data) (n : SliceId) (w : Waiter) (r : Req) : Pass (Data × Bool) := do
  let dis := w.cdis.getD false
  let pinned := (d.lookup n r.ga).1.pin
  match (if pinned then d.hteFind n r.ga else none) with
  | some h =>
    if r.op = 6 ∧ h.wbsrc = some r.agent then
      let d ← d.wbHte n h r dis w.seq
      return (d, true)
    if (r.op = 1 ∨ r.op = 2) ∧ h.pend.getLsbD r.agent.val ∧ h.pendX.getLsbD r.agent.val then
      if 256 ≤ d.slices[n].owed.length then throw (.retry .owed)
      let d1 := d.modSlice n fun s => { s with owed := s.owed.concat { ga := r.ga, agent := r.agent } }
      let d1 := d1.fldPeak (Reg.slcOwedStat n.val) 9 9 d1.slices[n].owed.length
      let d ← d1.rspHte n h r.agent (evRsp 1)
      return (d, false)
  | none => pure ()
  if d.salvWait r.ga then throw (.retry .salvage)
  match d.lineWait n w.seq (lineOf r.ga) with
  | some b => throw b
  | none => pure ()
  let (d1, e, loc) ← d.reqEntry n r.ga
  if pinned || e.pin then throw (.retry .pinned)
  else
    if d.olderRetry n w.seq r.ga then throw (.retry .pinned)
    let owed := d.slices[n].owed.any fun o => o.ga == r.ga && o.agent == r.agent
    let op := if owed then 1 else r.op.toNat
    let src := d1.source n r.ga dis
    let c0 := d1.conds r.ga e (some r.agent) src 0 none (some r)
    let sel := if owed then some { c0 with bud := true, dur := true } else none
    let c0 := if owed then { c0 with bud := true } else c0
    let stall := match d.rig with | some x => !x.budgetAct | none => false
    if !w.rel && !owed && (op = 2 || op = 3) && c0.dur && (e.base = .i || e.base = .s) && c0.bud && stall && d.dur.tr.isNone then
      throw (.retry (.budget d.now))
    let c : Ctx := { n := n, ga := r.ga, p12 := false, req := some r.agent, rq := some r, dis := dis, c := c0, sel := sel, age := w.seq, src := src, cur := e.base.num, op := op }
    let d2 := d1.pmcSlc n (if op = 1 then 2 else if op = 2 then 3 else if op = 3 then 4 else if op = 4 then 5 else if op = 6 then 6 else 7)
    let d2 := d2.sampleS16 n r
    let d ← d.runPass c { d := d2, e := e, loc := loc } (evReq op)
    let stored := decide (d2.slices[n].stRd.length < d.slices[n].stRd.length)
    pure (if (op = 1 ∨ op = 2) ∧ !stored ∧ !dis ∧ !w.trained then d.train n r.ga else d, true)

/-! ## Answers (R144, R164) and census reports (R396) -/

/-- A census report: the entry is marked and keeps the derivation of R152. -/
def censusTry (d : Data) (n : SliceId) (m : Answer) : Pass Data := do
  let op := m.op.toNat
  let (e, loc) := d.lookup n m.ga
  if loc = .none ∧ d.needFetch n m.ga then throw .fetch
  if e.pin && !e.cns then throw (.retry .pinned)
  if (op = 8 ∨ op = 9) ∧ e.cns ∧ e.own.isSome ∧ e.own ≠ some m.agent then
    pure (d.protoErr n m.agent 2 op 14 m.ga)
  else
    let cur := if e.cns then 14 else e.base.num
    let c : Ctx := { n := n, ga := m.ga, p12 := true, req := none, sender := some m.agent, census := true, cur := cur, op := op, c := d.conds m.ga e none none 0 (some m.agent) none }
    d.runPass c { d := d, e := { e with ga := m.ga }, loc := loc } (evRsp op)

/-- The report's granule lies in the share of the open census. -/
def inShare (d : Data) (ga : Nat) : Bool :=
  match d.pair.census with
  | some c => c.buckets.contains (bucketOf (lineOf ga))
  | none => false

/-- An RSP or DAT item at its slice (R144). -/
def answerTry (d : Data) (n : SliceId) (m : Answer) : Pass Data := do
  let op := m.op.toNat
  if !m.dat ∧ op = 1 ∧ (d.slices[n].owed.any fun o => o.ga == m.ga && o.agent == m.agent) then
    return d.modSlice n fun s =>
      { s with owed := s.owed.eraseP fun o => o.ga == m.ga && o.agent == m.agent }
  if !m.dat ∧ 7 ≤ op ∧ op ≤ 9 then
    if d.inShare m.ga then d.censusTry n m
    else pure (d.protoErr n m.agent 2 op (d.curOf n (d.lookup n m.ga).1) m.ga)
  else
    match d.hteFind n m.ga with
    | some h =>
      if h.pend.getLsbD m.agent.val then
        let d1 := if m.dat then d.modHte n m.ga fun t => { t with buf := m.data, bufP := m.poison } else d
        let fwd := !m.dat && (op = 2 || op = 3 || op = 4)
        let d2 := match fwd, h.req with
          | true, some a => (((d1.owedStart n m.ga a).pmcSlc n 11).sampleMod n a m.ga fun x => { x with src := 1 })
          | _, _ => d1
        let d3 ← d2.rspHte n h m.agent (if m.dat then evDat op else evRsp op)
        pure (match fwd, h.req with | true, some a => d3.sampleFwd n a m.ga false | _, _ => d3)
      else pure (d.protoErr n m.agent (if m.dat then 3 else 2) op h.st m.ga)
    | none => pure (d.protoErr n m.agent (if m.dat then 3 else 2) op (d.curOf n (d.lookup n m.ga).1) m.ga)

/-! ## Internal events -/

/-- BINV on an entry where it stands (R138, R247, R401). -/
def binvTry (d : Data) (n : SliceId) (ga : Nat) (age : Nat := 0) : Pass Data := do
  let (e, loc) := d.lookup n ga
  let e := { e with pin := false }
  let c : Ctx := { n := n, ga := ga, p12 := false, req := none, cur := e.base.num, age := age, dis := d.disabled n ga, c := d.conds ga e none (d.source n ga (d.disabled n ga)) 0 none none }
  d.runPass c { d := d, e := e, loc := loc } evBinv

/-- FILL or FILL_ERR for the HTE of a granule. -/
def fillHte (d : Data) (n : SliceId) (ga : Nat) (x : Option (Gran × Bool)) : Pass Data :=
  match d.hteFind n ga with
  | none => .ok d
  | some h =>
    let (e, loc) := d.lookup n ga
    let c : Ctx := { n := n, ga := ga, p12 := true, req := h.req, rq := h.rq, fill := x, dis := d.disabled n ga, cur := h.st, res := true, c := d.conds ga e h.req (d.source n ga (d.disabled n ga)) h.pend none h.rq }
    d.runPass c { d := d, e := e, loc := loc } (if x.isSome then evFill else evFillErr)

/-- Runs a pass of priority 1 or 2, which never waits: what it cannot have is a table fault (R149). -/
def must (d : Data) (n : SliceId) (x : Pass Data) : Data :=
  match x with
  | .ok d => d
  | .error .fault => d.sliceFault n
  | .error _ => d.tableFault n

/-- A lane of the hallmark engine has its next granule (R247); poison stops its item. -/
def hashGot (d : Data) (lane : Fin 8) (x : Gran × Bool) : Data :=
  (d.modHlm fun h => { h with lanes := vmod h.lanes lane fun o => o.map fun i =>
    { i with rn := i.rn + 1, got := i.got.concat x.1, waiting := false, bad := i.bad || x.2 } }).tally 16

/-- The pass of a completed or failed miss-tracker entry for each HTE and each lane that waits on it. A failed read leaves the
granules that R79 gives as zeros, with what the write buffers hold of them. -/
def mtEvents (d : Data) (n : SliceId) (e : MtEnt) (x : Option SecData) : Data :=
  let pick := fun (ga : Nat) =>
    match x with
    | some s => some (if ga % 2 = 0 then (s.d0, s.p0) else (s.d1, s.p1))
    | none => if e.zs.getLsbD (ga % 2) then some (d.wbOver n ga 0 false) else none
  let d := d.slices[n].waiters.foldl (fun (d : Data) w =>
    match w.kind, w.loc with
    | .hash lane ga, .onMt i =>
      if i = e.idx ∧ secOf ga = e.sec then
        (d.hashGot lane ((pick ga).getD (0, true))).modSlice n fun s => { s with waiters := s.waiters.filter fun y => y.seq != w.seq }
      else d
    | _, _ => d) d
  e.htes.foldl (fun d ga => d.must n (d.fillHte n ga (pick ga))) d

/-- Frees a miss-tracker entry and readmits its waiters (R99). -/
def mtFree (d : Data) (n : SliceId) (e : MtEnt) : Data :=
  (d.modSlice n fun s => { s with mt := s.mt.filter fun x => x.uid != e.uid }).wake n fun l => l == .onMt e.idx

/-- Merges the write-buffer entries of a sector over data from backing (R102). -/
def mergeSec (d : Data) (n : SliceId) (sec : Nat) (x : SecData) : SecData :=
  let a := d.wbOver n (2 * sec) x.d0 x.p0
  let b := d.wbOver n (2 * sec + 1) x.d1 x.p1
  { d0 := a.1, d1 := b.1, p0 := a.2, p1 := b.2 }

/-- Takes a side-buffer entry in state USED; a disabled range has none (R121). -/
def sidePlace (d : Data) (n : SliceId) (sec : Nat) (x : SecData) : Data :=
  match (if d.disabled n (2 * sec) then none else d.sideTake n true) with
  | none => d
  | some i => (d.sideFree n i).modSide n i fun _ => { st := .used, sec := sec, data := x, since := d.now, arrived := d.now }

/-- Places the sector of a non-allocating read: into its line where that was present at the miss and still is, else into the
side buffer (R69, R101). -/
def mtPlace (d : Data) (n : SliceId) (e : MtEnt) (x : SecData) : Data :=
  if !e.keep then d
  else
    let line := e.sec / 16
    let set := setOf line
    match (if e.fills then d.hitWay n line else none) with
    | some w =>
      if (d.tagEnt n set w).st = .valid then (d.wayPut n set w (e.sec % 16) x).touchFill n set w e.first
      else d.sidePlace n e.sec x
    | none => d.sidePlace n e.sec x

/-- Row 2 of R263: the uncorrectable granules of a recovered sector are rewritten with the merged data. -/
def mtRecover (d : Data) (n : SliceId) (set way sec : Nat) (x : Option SecData) : Data :=
  let t := d.tagEnt n set way
  if t.st = .inv ∨ lineAt t.tag set ≠ sec / 16 then d
  else
    [0, 1].foldl (fun (d : Data) j =>
      let g := sec % 16 * 2 + j
      let k := frameKey n set way g
      match cwDecode (d.cwGet k) with
      | .bad old =>
        match x with
        | some s => (d.granPut (some n) k (if j = 0 then s.d0 else s.d1) (if j = 0 then s.p0 else s.p1)).stRecovered k 1
        | none => d.stPoisoned (some n) k old
      | _ => d) d

/-- Data for a miss-tracker entry (R100 to R102): merged, placed, forwarded. -/
def mtData (d : Data) (n : SliceId) (e : MtEnt) (raw : SecData) : Data :=
  let x := d.mergeSec n e.sec raw
  match e.use with
  | .recover set way => (d.mtRecover n set way e.sec (some x)).mtFree n e
  | .demand =>
    match e.alloc with
    | none => ((d.mtPlace n e x).mtEvents n e (some x)).mtFree n e
    | some (set, w) =>
      let t : TagEnt := d.tagEnt n set w
      if t.st = .draining then
        let d := d.modSlice n fun s => { s with mt := lmod (fun y => y.uid == e.uid) (fun y => { y with got := some x, htes := [] }) s.mt }
        d.mtEvents n e (some x)
      else if (t.st = .fill ∨ t.st = .valid) ∧ t.tag = tagOf (e.sec / 16) then
        ((d.wayPut n set w (e.sec % 16) x).mtEvents n e (some x)).mtFree n e
      else ((d.mtPlace n e x).mtEvents n e (some x)).mtFree n e

/-- A failed backing read (R75, R169, R229). -/
def mtFailed (d : Data) (n : SliceId) (e : MtEnt) : Data :=
  let b := d.bkpOf e.first
  let d := (d.fldCnt (Reg.bkpErrCnt b.val) 0 16 1).evBkp b 2
  match e.use with
  | .recover set way => (d.mtRecover n set way e.sec none).mtFree n e
  | .demand =>
    let d := match e.alloc with
      | some (set, w) =>
        let t : TagEnt := d.tagEnt n set w
        if t.st = TagSt.fill ∧ t.tag = tagOf (e.sec / 16) then d.wayInv n set w else d
      | none => d
    (d.mtEvents n e none).mtFree n e

end Data

end Sys2Proof.Machine
end

