-- ==== Sys2Proof/Machine/Slices.lean ====
section
/-!
DEFINITION. The slice around its passes: waiting and readmission (R92 to R96, R99, R153, R154), bit upsets met by a
lookup (R73, R134), backing returns and acknowledgements (R75, R100, R106, R107, R169, R217), directory fetches,
spills and back-invalidations (R136 to R138, R165 to R167), prefetch (R116 to R118) and the timers of R172 and R224.
-/

namespace Sys2Proof.Machine

namespace Data

/-- The slice runs passes: start-up is complete, its domain is up, and it is active and not faulty (R417, R406, R397). -/
def running (d : Data) (n : SliceId) : Bool :=
  d.pwr.boot == .rdy && d.domUp (slcDom n) && d.active n && !d.svc.fault.getLsbD n.val

/-- The device serves traffic. -/
def ready (d : Data) : Bool := d.pwr.boot == .rdy

/-! ## Waiting (R95, R99, R153) -/

/-- The waiter with `w`'s age becomes `w`, or joins the list. -/
def putWaiter (d : Data) (n : SliceId) (w : Waiter) : Data :=
  d.modSlice n fun s =>
    { s with waiters :=
        if s.waiters.any fun x => x.seq == w.seq then lmod (fun x => x.seq == w.seq) (fun _ => w) s.waiters
        else s.waiters.concat w }

def dropWaiter (d : Data) (n : SliceId) (seq : Nat) : Data :=
  d.modSlice n fun s => { s with waiters := s.waiters.filter fun x => x.seq != seq }

/-- Waits at a place. -/
def parkAt (d : Data) (n : SliceId) (w : Waiter) (l : Loc) : Data := d.putWaiter n { w with loc := l, since := d.now, due := none }

/-- Enters the retry queue of its set (R153). -/
def parkRetry (d : Data) (n : SliceId) (w : Waiter) (why : Retry) : Data :=
  let isReq : Bool := match w.kind with | .req _ => true | _ => false
  let d := match why with
    | .hold _ => d.pmcSlc n 23
    | .holdFull => d.evSlc n 13
    | .spill => d.evSlc n 14
    | .pins => d.evSlc n 15
    | .budget _ => d.tally 13
    | _ => d
  let d := (if isReq then d.pmcSlc n 22 else d).parkAt n { w with enter := some (w.enter.getD d.now), cdis := none, due := none } (.retry why)
  match w.kind with
  | .req r => d.sampleMod n r.agent r.ga fun x => { x with retried := true, fetched := x.fetched || why == .fetch }
  | _ => d


/-- The lowest free tag of a mirror read. -/
def mirrorTag (d : Data) : Option Byte :=
  (freeIdx 256 (d.pair.reads3.map fun x => x.1.toNat)).map fun i => BitVec.ofNat 8 i

/-- The backing read of row 2 of R263: the miss-tracker entry that makes it. The granule's rows are called (R272). -/
def recovStart (d : Data) (n : SliceId) (ga set way : Nat) : Data × Option Nat :=
  let d := d.rowsCall (frameKey n set way (granIn ga))
  match d.slices[n].mt.find? fun e => e.sec == secOf ga && e.use != .demand with
  | some e => (d, some e.idx)
  | none =>
    if 64 ≤ d.slices[n].mt.length then (d, none)
    else
      let i := (freeIdx 64 (d.slices[n].mt.map (·.idx))).getD 0
      (d.mtNew n ga (.recover set way) none false false [], some i)

/-- The mirror read of row 3 of R263: its tag. The granule's rows are called (R272). -/
def mreadStart (d : Data) (n : SliceId) (ga set way : Nat) : Data × Option Byte :=
  let d := d.rowsCall (frameKey n set way (granIn ga))
  match d.pair.reads3.find? fun x => x.2.2.2 == ga with
  | some x => (d, some x.1)
  | none =>
    match d.mirrorTag with
    | none => (d, none)
    | some t =>
      ((d.shdSend (.mrd (BitVec.ofNat 36 ga) t)).modPair fun p => { p with reads3 := p.reads3.concat (t, d.now, n, ga) }, some t)

/-- A read that no pass of a slice makes: it changes nothing, but a recovery it needs is begun (R263). -/
def readBlock (d : Data) (n : SliceId) (b : Block) : Data :=
  match b with
  | .recov ga set way => (d.recovStart n ga set way).1
  | .mread ga set way => (d.mreadStart n ga set way).1
  | .fault => d.sliceFault n
  | .tfault => d.tableFault n
  | _ => d

/-- A pass that cannot take effect: what it waits for, or the fault it met. -/
def block (d : Data) (n : SliceId) (w : Waiter) (b : Block) : Data :=
  match b with
  | .fault => d.sliceFault n
  | .tfault => d.tableFault n
  | .retry why => d.parkRetry n w why
  | .mt => (d.pmcSlc n 20).parkAt n w .mtFull
  | .wb k => (d.pmcSlc n 19).parkAt n w (.wbFull k)
  | .ledger => (((d.evSlc n 12).pmcSlc n 32).pmcSlc n 19).parkAt n w (.wbFull 1)
  | .credit c p => (d.pmcSlc n 21).parkAt n w (.credit c p)
  | .mir => d.parkAt n w .mirCredit
  | .onMt i => d.parkAt n w (.onMt i)
  | .onSide i => d.parkAt n w (.onSide i)
  | .recov ga set way =>
    match d.recovStart n ga set way with
    | (d, some i) => d.parkAt n w (.onMt i)
    | (d, none) => (d.pmcSlc n 20).parkAt n w .mtFull
  | .later => d
  | .mread ga set way =>
    match d.mreadStart n ga set way with
    | (d, some t) => d.parkAt n w (.onMirror t)
    | (d, none) => d.parkAt n w .mirCredit
  | .fetch =>
    let ga := w.kind.ga
    if d.slices[n].fetches.any fun f => f.ga == ga then d.parkRetry n w .fetch
    else if 14 ≤ d.pinnedWays n ga then d.parkRetry n w .pins
    else
      match d.dirTake n ga with
      | .error (.retry why) => d.parkRetry n w why
      | .error _ => d.parkRetry n w .pins
      | .ok (d, k) =>
        let d := (d.dirPut n k { ga := ga, pin := true }).pmcSlc n 25
        (d.modSlice n fun s => { s with fetches := s.fetches.concat { ga := ga, key := k, start := d.now } }).parkRetry n w .fetch

/-- A step of background engine `k` that cannot take effect changes nothing and waits for what it lacks (R95); `old` is its age
where it has waited before. One that must only come later is made again. -/
def engineBlock (d : Data) (n : SliceId) (k : Nat) (ga : Option Nat) (old : Option Nat) (b : Block) : Data :=
  let w : Waiter := { seq := old.getD d.seq, since := d.now, kind := .engine k ga, loc := .ready }
  let d := if old.isSome then d else { d with seq := d.seq + 1 }
  match b with
  | .retry _ | .fetch | .later => d
  | b => d.block n w b

/-- A step of background engine `k` as a pass (R95): behind an older pass of its line, and in turn for what it takes. -/
def enginePass (d : Data) (n : SliceId) (k : Nat) (ga : Option Nat) (old : Option Nat) (x : Pass Data) : Data :=
  let age := old.getD d.seq
  let y : Pass Data := do
    match ga.bind fun g => d.lineWait n age (lineOf g) with
    | some b => throw b
    | none => pure ()
    let d1 ← x
    d.inTurn d1 n age
  match y with
  | .ok d => d.pmcSlc n 1
  | .error b => d.engineBlock n k ga old b

/-- A blocked pass lacks the resource of the list it already waits in. -/
def sameList (l : Loc) (b : Block) : Bool :=
  match l, b with
  | .mtFull, .mt => true
  | .wbFull _, .wb _ => true
  | .wbFull _, .ledger => true
  | .credit c _, .credit c' _ => c == c'
  | .mirCredit, .mir => true
  | _, _ => false

/-! ## Running a waiting pass -/

/-- The admission of a pass (R93, R95, R122, R331): its age at the first, and the cache-disable state it runs under,
sampled again after a retry queue; a write admitted to a disabled range sets its stale bits (R124). -/
def admitted (d : Data) (n : SliceId) (w : Waiter) : Data × Waiter :=
  let d := d.pmcSlc n 1
  if w.cdis.isSome then (d, w)
  else
  let dis := d.disabled n w.kind.ga
  let d := match w.kind with
    | .req r => if dis && (r.op == 4 || r.op == 6) then d.staleMark n r.ga else d
    | _ => d
  if w.enter.isSome then
    let w' : Waiter := { w with cdis := some dis }
    (d.putWaiter n w', w')
  else
    let w' : Waiter := { w with seq := d.seq, cdis := some dis }
    let d := { (d.dropWaiter n w.seq) with seq := d.seq + 1 }.putWaiter n w'
    match w.kind with
    | .req r =>
      if !r.tagged then (d, w')
      else if 16 ≤ d.slices[n].samples.length then ((d.tally 8).ev 103, w')
      else
        let x : Sample := { seq := w'.seq, req := r, t1 := d.smpClock }
        (d.modSlice n fun s => { s with samples := s.samples.concat x }, w')
    | _ => (d, w')

/-- A read pass of the hallmark engine (R247): the state, and whether the pass is over. -/
def hashTry (d : Data) (n : SliceId) (lane : Fin 8) (ga : Nat) (dis : Bool) : Pass (Data × Option Loc) :=
  match d.source n ga dis with
  | some s => do
    let (d, g, p) ← d.sourceRead n ga s
    pure (d.hashGot lane (g, p), none)
  | none => do
    let d ← d.startRead n ga dis false []
    match d.slices[n].mt.find? fun e => e.sec == secOf ga && e.use == .demand with
    | some e => pure (d, some (.onMt e.idx))
    | none => throw .mt

/-- What a pass does: the state, and where it goes on waiting, if it does (R163). -/
def tryWaiter (d : Data) (n : SliceId) (w : Waiter) : Pass (Data × Option Loc) :=
  match w.kind with
  | .req r => do
    let (d, gone) ← d.reqTry n w r
    pure (d, if gone then none else some (.retry .pinned))
  | .answer m => do pure (← d.answerTry n m, none)
  | .bkrd ga =>
    match d.hteFind n ga with
    | none => .ok (d, none)
    | some _ => do pure (← d.startRead n ga (w.cdis.getD false) true [ga], none)
  | .binv ga => do pure (← d.binvTry n ga w.seq, none)
  | .hash lane ga => d.hashTry n lane ga (w.cdis.getD false)
  | .engine _ _ => .ok (d, none)

/-- The pass of a waiter: behind an older pass of its line and in turn for what it takes (R95); an answer never waits (R96). -/
def tryInTurn (d : Data) (n : SliceId) (w : Waiter) : Pass (Data × Option Loc) :=
  match w.kind with
  | .answer _ => d.tryWaiter n w
  | .req _ => do
    let (d1, l) ← d.tryWaiter n w
    pure (← d.inTurn d1 n w.seq, l)
  | k => do
    match d.lineWait n w.seq (lineOf k.ga) with
    | some b => throw b
    | none => pure ()
    let (d1, l) ← d.tryWaiter n w
    pure (← d.inTurn d1 n w.seq, l)

/-- The pass waits again: a read that waits on the miss tracker or the side buffer still trains the stream detector
(R115). -/
def blockTrain (d : Data) (n : SliceId) (w : Waiter) (b : Block) : Data :=
  let first : Option Nat :=
    match w.kind, b with
    | .req r, .onMt _ | .req r, .onSide _ => if (r.op = 1 ∨ r.op = 2) ∧ !w.trained then some r.ga else none
    | _, _ => none
  match first with
  | some ga => (d.block n { w with trained := true } b).train n ga
  | none => d.block n w b

/-- The pass of a waiter, its lookup done. -/
def runLooked (d : Data) (n : SliceId) (w : Waiter) : Data :=
  let (d, w) := d.admitted n w
  match d.tryInTurn n w with
  | .ok (d, none) => (d.dropWaiter n w.seq).modSlice n fun s => { s with absent := s.absent.filter (· != w.kind.ga) }
  | .ok (d, some l) =>
    match l with
    | .retry why => d.parkRetry n w why
    | l => d.parkAt n w l
  | .error b => d.blockTrain n w b

/-! ## Bit upsets (R73, R134, R89) -/

/-- SLCn_TAG_ERR: held while UE is set (R73). -/
def tagCapture (d : Data) (n : SliceId) (set way : Nat) (word fatal : Bool) : Data :=
  let r := Reg.slcTagErr n.val
  let at' := set + at_ way 15 + at_ (b2n word) 19
  if d.flag r 21 then
    d.lateCap r { v := BitVec.ofNat 32 (at' + at_ (b2n (!fatal)) 20 + at_ (b2n fatal) 21), vb := 21, keep := BitVec.twoPow 32 20 }
  else
    let ce := d.flag r 20 || !fatal
    let d := d.stamp r (BitVec.twoPow 32 (if fatal then 21 else 20))
    d.regSet r (BitVec.ofNat 32 (at' + at_ (b2n ce) 20 + at_ (b2n fatal) 21))

/-- What the lookup of a pass meets: corrected, or a slice fault. The second part says whether the pass goes on. -/
def upset (d : Data) (n : SliceId) (ga : Nat) (u : Upset) : Data × Bool :=
  let set := setOf (lineOf ga)
  match u with
  | .none => (d, true)
  | .tag w false => (((d.tagCapture n set w.val false false).fldCnt (Reg.slcTagCe n.val) 0 16 1 |>.pmcSlc n 35).evSlc n 1, true)
  | .word false => (((d.tagCapture n set 0 true false).fldCnt (Reg.slcTagCe n.val) 0 16 1 |>.pmcSlc n 35).evSlc n 1, true)
  | .dir _ false => ((d.pmcSlc n 35).evSlc n 3, true)
  | .tag w true => (((d.tagCapture n set w.val false true).evSlc n 2).sliceFault n, false)
  | .word true => (((d.tagCapture n set 0 true true).evSlc n 2).sliceFault n, false)
  | .dir _ true => ((d.evSlc n 4).sliceFault n, false)

/-- The lookup of a pass meets the slice's latent upset, if there is one: whether the pass goes on (R73, R134). -/
def lookupUpset (d : Data) (n : SliceId) (ga : Nat) : Data × Bool :=
  match d.slices[n].latent with
  | .none => (d, true)
  | u => (d.modSlice n fun s => { s with latent := .none }).upset n ga u

/-- A pass with a lookup of granule `ga`. -/
def withLookup (d : Data) (n : SliceId) (ga : Nat) (f : Data → Data) : Data :=
  match d.lookupUpset n ga with
  | (d, true) => f d
  | (d, false) => d

/-- A pass belongs to a transaction or a seal item accepted before the last switch cycle (R62). -/
def waiterOld (d : Data) (n : SliceId) (w : Waiter) : Bool :=
  w.old || (d.slices[n].htes.any fun h => h.ga == w.kind.ga && h.old) ||
    (match w.kind with
    | .hash k _ => (match d.hlm.lanes[k] with | some i => i.old | none => false)
    | _ => false)

/-- Runs a waiting pass. -/
def runWaiter (d : Data) (n : SliceId) (w : Waiter) : Data :=
  let old := d.prev.isSome && d.waiterOld n w
  let d := d.asOld old fun d => d.withLookup n w.kind.ga fun d => d.runLooked n w
  let mark : Hte → Hte := fun h => if h.ga = w.kind.ga then { h with old := true } else h
  d.when old fun d => d.modSlice n fun s => { s with htes := s.htes.map mark }

/-! ## Wait lists (R95) -/

/-- The heads of the wait lists: the oldest waiter of each. -/
def listHeads (d : Data) (n : SliceId) : List Waiter :=
  let pick := fun (f : Loc → Bool) => (minBy (·.seq) (d.slices[n].waiters.filter fun w => f w.loc)).toList
  let cred := fun (c : MsgClass) => pick fun l => match l with | .credit c' _ => c == c' | _ => false
  pick (· == .mtFull) ++ pick (fun l => match l with | .wbFull _ => true | _ => false)
    ++ cred .snp ++ cred .rsp ++ cred .dat ++ pick (· == .mirCredit)

/-! ## Retry queues (R153) -/

/-- A waiting WB of the agent that the HTE of its granule names in WBSRC (R160). -/
def wbTurn (d : Data) (n : SliceId) (w : Waiter) : Bool :=
  match w.kind, w.loc with
  | .req r, .retry _ => r.op == 6 && (match d.hteFind n r.ga with | some h => h.wbsrc == some r.agent | none => false)
  | _, _ => false

/-- The condition that holds a REQ in its retry queue has cleared. The WB of an HTE's WBSRC re-enters ahead of every other REQ
of its set's queue (R160). A RD_SH or RD_OWN that was queued on a pinned entry before a SNPX set its sender's bit in PENDING
stays queued: only one that reaches the entry while the bit is set is the implicit answer of R163 (assumption 67). -/
def cleared (d : Data) (n : SliceId) (w : Waiter) : Bool :=
  match w.kind, w.loc with
  | .req r, .retry why =>
    d.wbTurn n w ||
    (!(d.slices[n].waiters.any fun x => dsetOf x.kind.ga == dsetOf r.ga && d.wbTurn n x) &&
    !d.olderRetry n w.seq r.ga &&
    (match why with
    | .pinned => !(d.lookup n r.ga).1.pin
    | .fetch => !(d.slices[n].fetches.any fun f => f.ga == r.ga)
    | .spill => decide (d.slices[n].spill.length < 16)
    | .pins => decide (d.pinnedWays n r.ga < 14)
    | .noHte => decide (d.slices[n].htes.length < 128)
    | .hold x => decide (x ≤ d.now)
    | .holdFull => decide ((d.slices[n].holds.filter fun h => decide (d.now < h.expiry)).length < 256)
    | .budget _ => w.rel || !d.bud || d.dur.tr.isSome
    | .owed => decide (d.slices[n].owed.length < 256)
    | .salvage => !d.salvWait r.ga
    | .mirror => !d.mirrorSector (secOf r.ga)))
  | k, .retry why =>
    (match why with
    | .fetch => !(d.slices[n].fetches.any fun f => f.ga == k.ga)
    | .spill => decide (d.slices[n].spill.length < 16)
    | .pins => decide (d.pinnedWays n k.ga < 14)
    | .noHte => decide (d.slices[n].htes.length < 128)
    | .hold x => decide (x ≤ d.now)
    | .pinned => (let e := (d.lookup n k.ga).1; !e.pin || e.cns)
    | .mirror => !d.mirrorSector (secOf k.ga)
    | _ => true)
  | _, _ => false

/-- The oldest REQ of a directory set's retry queue whose condition has cleared re-enters. -/
def retryReenter (d : Data) (n : SliceId) (dset : Nat) : Data :=
  if !d.running n then d
  else
    match minBy (·.seq) (d.slices[n].waiters.filter fun w => dsetOf w.kind.ga = dset && d.cleared n w) with
    | none => d
    | some w => d.runWaiter n w

/-- Expired hold records go; the passes they blocked may re-enter (R153, R154). -/
def holdExpire (d : Data) (n : SliceId) : Data :=
  d.modSlice n fun s => { s with holds := s.holds.filter fun h => decide (d.now < h.expiry) }

/-! ## Backing returns (R99 to R102, R169) -/

/-- Latency and count of `k` completed backing reads of granules (R228, PMC480 + 6p + 3, 4). -/
def readDone (d : Data) (ga k : Nat) (issued : Option Nat) (poison : Bool) : Data :=
  let b := d.bkpOf ga
  let d := (d.tallySum (480 + 6 * b.val + 3) (k * (d.now - issued.getD d.now))).pmcBkp b 4 k
  if poison then d.evBkp b 7 else d

/-- FILL: data for an issued miss-tracker entry. -/
def fillArrive (d : Data) (n : SliceId) (i : Nat) (x : SecData) : Data :=
  if !d.running n then d
  else
    match d.slices[n].mt.find? fun e => e.idx == i && e.issued.isSome && !e.zero && !e.failed && e.got.isNone with
    | none => d
    | some e =>
      let x := x.zeroed e.zs
      d.withLookup n e.first fun d => ((d.pmcSlc n 1).readDone e.first (zsReads e.zs) e.issued (x.p0 || x.p1)).mtData n e x

/-- The data of a PEND entry arrives (R102, R118). -/
def sideArrive (d : Data) (n : SliceId) (i : Fin 32) (x : SecData) : Data :=
  let e := d.slices[n].side[i]
  if e.st ≠ .pend then d
  else
    let d := d.pmcSlc n 1
    let d := if e.cancel then d.modSide n i fun _ => {}
      else
        let y := d.mergeSec n e.sec x
        d.modSide n i fun s => { s with st := .ready, data := y, since := d.now, arrived := d.now, issued := none }
    d.wake n fun l => l == .onSide i.val

/-- PREFETCH_DATA: data for an issued PEND entry, zeros for the granules that R79 gives so. -/
def prefetchArrive (d : Data) (n : SliceId) (i : Fin 32) (x : SecData) : Data :=
  let e := d.slices[n].side[i]
  if !d.running n ∨ e.st ≠ .pend ∨ e.issued.isNone then d
  else
    let x := x.zeroed e.zs
    d.withLookup n (2 * e.sec) fun d => (d.readDone (2 * e.sec) (zsReads e.zs) e.issued (x.p0 || x.p1)).sideArrive n i x

/-- The zeros of never-touched granules and the failures of a failed port, which need no backing (R79, R229): since when the
oldest waits, its age and its pass. -/
def internalReturn (d : Data) (n : SliceId) : Option (Nat × Nat × (Data → Data)) :=
  match d.slices[n].mt.find? fun e => (e.zero || e.failed) && e.got.isNone with
  | some e => some (e.made, e.uid, fun d => d.withLookup n e.first fun d => if e.failed then d.mtFailed n e else d.mtData n e {})
  | none =>
    match (List.finRange 32).find? fun i => d.slices[n].side[i].st == .pend && d.slices[n].side[i].zero with
    | some i =>
      let e := d.slices[n].side[i]
      some (e.since, e.uid, fun d => d.withLookup n (2 * e.sec) fun d => d.sideArrive n i {})
    | none => none

/-- STORE_READ_RETURN: the oldest store read of the slice reaches its requester's port (R263, R462). -/
def storeReturn (d : Data) (n : SliceId) : Data :=
  match d.slices[n].stRd with
  | [] => d
  | r :: rs =>
    let d := d.modSlice n fun s => { s with stRd := rs }
    (d.toAgent r.port r.item).sampleEnd n r.port r.item.gaddr.toNat d.smpClock false

/-! ## Acknowledgements (R75, R100, R106, R107, R169, R217) -/

/-- A draining way has had its last acknowledgement (R75, R100, R169). -/
def drained (d : Data) (n : SliceId) (set way : Nat) : Data :=
  match d.slices[n].mt.find? fun e => e.alloc == some (set, way) with
  | none =>
    let d := d.wayInv n set way
    match d.slices[n].mnt.head? with
    | some o =>
      if o.op = 3 ∧ o.set = set ∧ o.way = way then
        (d.modSet n set fun w => { w with ret := setBit w.ret way true }).modStore fun s => { s with unsaved := true }
      else d
    | none => d
  | some e =>
    let d := d.wayFill n set way (e.sec / 16)
    match e.got with
    | none => d
    | some x =>
      let x := d.mergeSec n e.sec x
      ((d.wayPut n set way (e.sec % 16) x).mtEvents n e (some x)).mtFree n e

/-- The last VIC entry of a line is gone: the way that drained it. -/
def drainCheck (d : Data) (n : SliceId) (line : Nat) : Data :=
  let set := setOf line
  match (List.range 16).find? fun w =>
      (d.tagEnt n set w).st == .draining && (d.tagEnt n set w).tag == tagOf line with
  | none => d
  | some w => if d.slices[n].wb.any fun e => e.kind == .vic && lineOf e.ga == line then d else d.drained n set w

/-- The second acknowledgement of a cleaned sector; one that was written meanwhile joins the current dirty map again (R75, R106, R217, R268, R385). -/
def cleaned (d : Data) (n : SliceId) (e : WbEnt) : Data :=
  match d.hitWay n (lineOf e.ga) with
  | none => d
  | some w =>
    let set := setOf (lineOf e.ga)
    let t := d.tagEnt n set w
    let sec := secIn e.ga
    if t.st = .valid ∧ t.sd.getLsbD sec ∧ !e.redirty then
      let d := d.modTag n set w fun t => { t with sd := setBit t.sd sec false }
      let d := if e.dur then d.credit 2 else d
      let ga := 2 * secOf e.ga
      let d := (d.mclrSend ga).mclrSend (ga + 1)
      let d := d.pmcSlc n 16
      if (d.tagEnt n set w).sd = 0 ∧ (d.setWord n set).ps.getLsbD w ∧ d.slices[n].hints.length < 16 then
        d.modSlice n fun s => { s with hints := s.hints.concat (set, w) }
      else d
    else if t.st = .valid ∧ t.sd.getLsbD sec ∧ d.durable e.ga ∧ !d.bkpFailed e.ga then d.markDirty n set
    else d

/-- The last CLN entry of a CLINV line of operation `o`, in way `x.2.1` of set `x.1`, is acknowledged (R277, R278): the way
goes to INV with this pass; it stays VALID where a CLN of the line had REDIRTY set, and each sector that keeps its SD bit so
counts as skipped; where a sector has been written that had no CLN entry, a further step cleans it (assumption 68). -/
def clinvEnd (d : Data) (n : SliceId) (o : MntOp) (x : Nat × Nat × Nat) : Data :=
  let t := d.tagEnt n x.1 x.2.1
  let here := t.st == .valid && lineAt t.tag x.1 == x.2.2
  let kept := o.kept.filter fun y => y.1 == x.1 && y.2.1 == x.2.1
  let k := if here then (kept.filter fun y => t.sd.getLsbD y.2.2).length else 0
  let d := if here ∧ t.sd = 0 then d.wayInv n x.1 x.2.1 else d
  let stay := here && decide (0 < k) && decide (k = popcount t.sd)
  let f : MntOp → MntOp := fun y =>
    { y with
      inv := y.inv.filter (· != x)
      kept := if stay || !here then y.kept.filter fun z => !kept.contains z else y.kept
      seen := if stay then y.seen.concat (x.2.1, x.2.2) else y.seen
      skip := if stay then y.skip + k else y.skip }
  d.modSlice n fun s => { s with mnt := lmod (fun y => y.id == o.id) f s.mnt }

/-- What the acknowledgement of an entry means to the maintenance operations (R277, R278, R281): the last of a sector's CLN
entries with REDIRTY keeps the sector of a CLINV line; the last of a CLINV line ends it. -/
def mntAcked (d : Data) (n : SliceId) (e : WbEnt) : Data :=
  let line := lineOf e.ga
  let keep := fun (o : MntOp) => if e.kind = .cln ∧ e.redirty then
      (o.inv.filter fun x => x.2.2 == line).map fun x => (x.1, x.2.1, secIn e.ga) else []
  let d := d.modSlice n fun s => { s with mnt := s.mnt.map fun o =>
    { o with await := o.await.filter (· != e.uid), kept := o.kept ++ (keep o).filter fun y => !o.kept.contains y } }
  if e.kind != .cln || d.slices[n].wb.any fun x => x.kind == WbKind.cln && lineOf x.ga == line then d
  else
    d.slices[n].mnt.foldl (fun (d : Data) o =>
      (o.inv.filter fun x => x.2.2 == line).foldl (fun (d : Data) x => d.clinvEnd n o x) d) d

/-- Counts an acknowledged granule for BKPn_WRATE and for the losses of Persist (R236, R255). -/
def ackCount (d : Data) (ga : Nat) : Data :=
  let tr := d.dur.tr.isSome
  d.modBkp (d.bkpOf ga) fun b =>
    { b with wndCnt := b.wndCnt + 1, wndAck := b.wndAck.concat (d.now, 1), acked := if tr then insNat ga b.acked else b.acked }

/-- The device issues backing writes: not after the end of Drain (R235). -/
def mayWrite (d : Data) : Bool := d.dur.phase == .run || d.dur.phase == .recalling || d.dur.phase == .drain

/-- BACKING_WRITE_ACK of a sent entry; after the end of Drain it is abandoned (R235). -/
def wbAck (d : Data) (n : SliceId) (i : Nat) : Data :=
  if !d.mayWrite then d else
  match d.slices[n].wb.find? fun e => e.idx == i && e.sent.isSome with
  | none => d
  | some e =>
    d.withLookup n e.ga fun d =>
    let d := (d.pmcSlc n 1).modSlice n fun s => { s with wb := s.wb.filter fun x => x.uid != e.uid }
    let d := d.ackCount e.ga
    let d := match e.kind with
      | .cln =>
        if d.slices[n].wb.any fun x => x.kind == WbKind.cln && secOf x.ga == secOf e.ga then
          if e.redirty then d.modWb n (fun x => x.kind == WbKind.cln && secOf x.ga == secOf e.ga) fun x => { x with redirty := true } else d
        else d.cleaned n e
      | .vic =>
        let d := if e.dur then d.credit 1 else d
        (d.mclrSend e.ga).drainCheck n (lineOf e.ga)
      | _ =>
        let d := if e.dur then d.credit 1 else d
        if e.dur && d.mirrors e.ga then d.shdSend (.sclr n (BitVec.ofNat 6 e.idx)) else d
    ((d.mntAcked n e).issueReads n).ledgerSettle

/-- Entries that a port may take: ISSUED, bound for it, and held back by no older entry of the granule and no
outstanding read of the sector (R103, R107, R108). -/
def wbSendable (d : Data) (n : SliceId) (b : BkpId) : List WbEnt :=
  let s := d.slices[n]
  s.wb.filter fun e =>
    e.issued && e.sent.isNone && d.bkpOf e.ga == b &&
      !(s.wb.any fun x => x.ga == e.ga && decide (x.uid < e.uid)) &&
      !(s.mt.any fun m => m.sec == secOf e.ga && m.issued.isSome && m.got.isNone && !m.zero && !m.failed) &&
      !(s.side.toList.any fun x => x.st == .pend && x.sec == secOf e.ga && x.issued.isSome)

/-- WB_ENTRY_SEND (R107, R228). -/
def wbSend (d : Data) (b : BkpId) : Data :=
  if d.bkps[b].st ≠ .ready ∨ !d.mayWrite ∨ !d.domUp (bkpDom b) then d
  else
    let all := allSlices.flatMap fun n => (d.wbSendable n b).map fun e => (n, e)
    match minBy (fun x => x.2.uid) all with
    | none => d
    | some (n, e) =>
      let d := d.modWb n (fun x => x.uid == e.uid) fun x => { x with sent := some d.now }
      let d := d.pmcBkp b 1
      let d := if e.be = beAll then d else d.pmcBkp b 2
      if e.poison ∧ d.dur.tr.isSome then d.modDur fun u => { u with poisoned := u.poisoned + 1 } else d

/-- COMBINE_EXPIRY (R107). -/
def combineExpire (d : Data) (n : SliceId) (i : Nat) : Data :=
  let t := d.fld (Reg.slcWbCfg n.val) 0 8
  d.modWb n (fun e => e.idx == i && wbOpen e && decide (e.made + t ≤ d.now)) fun e => { e with issued := true }

/-! ## Prefetch (R116, R118) -/

/-- PREFETCH: the pass of the oldest candidate takes a side-buffer entry and reads the sector. -/
def pfStep (d : Data) (n : SliceId) : Data :=
  match d.slices[n].pf with
  | [] => d
  | (sec, _, age) :: rest =>
    d.withLookup n (2 * sec) fun d =>
    let d := (d.modSlice n fun s => { s with pf := rest }).pmcSlc n 1
    if d.pfDropped n sec then d
    else
      match d.sideTake n false with
      | none => d.fldCnt (Reg.slcPfStat n.val) 0 16 1
      | some i =>
        let (d, zs) := (d.sideFree n i).touchZero n sec
        let d := d.modSide n i fun _ => { st := .pend, uid := age, sec := sec, zs := zs, since := d.now }
        (d.pmcSlc n 29).issueReads n

/-- SIDE_BUFFER_AGE_OUT (R118). -/
def sideAge (d : Data) (n : SliceId) (i : Fin 32) : Data :=
  let age := d.fld (Reg.slcPfCfg n.val) 4 4
  let e := d.slices[n].side[i]
  if age ≠ 0 ∧ (e.st = .ready ∨ e.st = .used) ∧ e.since + age * 1024 ≤ d.now then d.sideFree n i else d

/-! ## Directory fetch, spill, back-invalidation (R136 to R138, R165 to R167, R396) -/

/-- DIRECTORY_FETCH_RETURN: the oldest fetch. -/
def fetchReturn (d : Data) (n : SliceId) : Data :=
  match d.slices[n].fetches with
  | [] => d
  | f :: fs =>
    let b := bsetOf f.ga
    let d := d.modSlice n fun s => { s with fetches := fs }
    match d.bstRead n b with
    | (d, none) => d.sliceFault n
    | (d, some es) =>
      match es.find? fun e => e.base != .i && e.ga == f.ga with
      | none => (d.dirPut n f.key {}).modSlice n fun s => { s with absent := s.absent.concat f.ga }
      | some e =>
        let d := d.bstWrite n b es (es.map fun x => if x.base != .i && x.ga == f.ga then {} else x)
        let d := if e.cns then d.modSlice n fun s => { s with cnsCnt := s.cnsCnt - 1 } else d
        let mark := e.cns && d.slices[n].cnsOpen.isSome
        d.dirPut n f.key { e with cns := mark, pin := mark }

/-- The class of R138 of an entry: lower is chosen first. -/
def binvClass (d : Data) (e : DirEnt) : Nat := (if e.base = .s then 0 else 2) + b2n (d.durable e.ga)

/-- The spill-buffer entry whose backstop write may be performed: the oldest that is not pinned, or carries only a
census mark, and whose set has no open fetch (R137, R166). -/
def spillNext (d : Data) (n : SliceId) : Option Spill :=
  d.slices[n].spill.find? fun x =>
    (!x.e.pin || x.e.cns) && !(d.slices[n].fetches.any fun f => bsetOf f.ga == bsetOf x.e.ga)

/-- Begins the back-invalidation of an entry that stands pinned in the spill buffer. -/
def binvBegin (d : Data) (n : SliceId) (old : Nat) (e : DirEnt) : Data :=
  let v : DirEnt := { e with pin := true, cns := false }
  let d := d.modSlice n fun s => { s with spill := lmod (fun x => x.e.ga == old) (fun _ => { e := v }) s.spill }
  ((((d.fldCnt (Reg.slcBinvCnt n.val) 0 32 1).evSlc n 7).pmcSlc n 27)).await n (.binv e.ga) .ready

/-- The backstop write of the next spill-buffer entry issues as soon as R166 lets it; its time runs from then (R172). -/
def spillIssue (d : Data) (n : SliceId) : Data :=
  match d.spillNext n with
  | some x =>
    if x.start.isSome then d
    else d.modSlice n fun s => { s with spill := lmod (fun y => y.e.ga == x.e.ga) (fun y => { y with start := some d.now }) s.spill }
  | none => d

/-- SPILL_BACKSTOP_WRITE: into the lowest-numbered empty way of the backstop set, of which R137 asks for any one (assumption
69), else in place of the entry that R138 chooses. -/
def spillWrite (d : Data) (n : SliceId) : Data :=
  match d.spillNext n with
  | none => d
  | some x =>
    let b := bsetOf x.e.ga
    match d.bstRead n b with
    | (d, none) => d.sliceFault n
    | (d, some es) =>
      let new : DirEnt := { x.e with pin := false }
      match es.findIdx? fun e => e.base == .i with
      | some w =>
        let d := (d.bstWrite n b es (es.set w new)).pmcSlc n 26
        let d := if new.cns then d.modSlice n fun s => { s with cnsCnt := s.cnsCnt + 1 } else d
        d.modSlice n fun s => { s with spill := s.spill.filter (fun y => y.e.ga != x.e.ga), absent := s.absent.filter (· != x.e.ga) }
      | none =>
        match minBy (d.binvClass ·) (x.e :: es) with
        | none => d
        | some v =>
          if v.ga = x.e.ga then d.binvBegin n x.e.ga x.e
          else
            let w := (es.findIdx? fun e => e.ga == v.ga).getD 0
            let d := (d.bstWrite n b es (es.set w new)).pmcSlc n 26
            let k := b2n new.cns
            let d := d.modSlice n fun s => { s with cnsCnt := s.cnsCnt + k - b2n v.cns, absent := s.absent.filter (· != x.e.ga) }
            d.binvBegin n x.e.ga v

/-- A back-invalidation pass that can run. -/
def binvReady (d : Data) (n : SliceId) (w : Waiter) : Bool :=
  match w.kind with
  | .binv _ => w.loc == .ready || d.cleared n w
  | _ => false

/-- BINV: the oldest back-invalidation pass that can run. -/
def binvRun (d : Data) (n : SliceId) : Data :=
  match minBy (·.seq) (d.slices[n].waiters.filter (d.binvReady n)) with
  | none => d
  | some w => d.runWaiter n w

/-! ## Timers (R172, R224) -/

/-- A snoop-answer or owed-answer timeout of `t` cycles: SLCn_TMO_CFG.SNP. -/
def snpTime (d : Data) (n : SliceId) : Nat := us (act1 (d.fld (Reg.slcTmoCfg n.val) 0 8))
def fillTime (d : Data) (n : SliceId) : Nat := us (act1 (d.fld (Reg.slcTmoCfg n.val) 8 8))
def wackTime (d : Data) (n : SliceId) : Nat := us (act1 (d.fld (Reg.slcTmoCfg n.val) 16 8))
def rtryTime (d : Data) (n : SliceId) : Nat := us (10 * act1 (d.fld (Reg.slcTmoCfg n.val) 24 8))

/-- SNOOP_ANSWER_TIMEOUT: every agent still in PENDING, and WBSRC, is isolated. One expiry raises event 16 once and captures
the lowest-numbered of them; one with nobody to isolate raises and captures nothing (assumption 70). -/
def snoopTimeout (d : Data) (n : SliceId) (ga : Nat) : Data :=
  match d.hteFind n ga with
  | none => d
  | some h =>
    let who := agents h.pend ++ (h.wbsrc.toList.filter fun a => !h.pend.getLsbD a.val)
    match who with
    | [] => d
    | a :: _ =>
      if h.start + 16 + d.snpTime n ≤ d.now then
        let d := ((d.tmoCap n a.val 0 ga).evSlc n 16).modHte n ga fun h => { h with start := d.now }
        who.foldl (fun d a => d.isolate a) d
      else d

/-- OWED_ANSWER_TIMEOUT: the marker's agent is isolated and the marker freed. -/
def owedTimeout (d : Data) (n : SliceId) (ga : Nat) (p : Agent) : Data :=
  match d.slices[n].owed.find? fun o => o.ga == ga && o.agent == p && o.timer.isSome with
  | none => d
  | some o =>
    if o.timer.getD 0 + 16 + d.snpTime n ≤ d.now then
      let d := ((d.tmoCap n p.val 1 ga).evSlc n 16).modSlice n fun s => { s with owed := s.owed.erase o }
      d.isolate p
    else d

/-- BACKING_READ_TIMEOUT of a miss-tracker entry or of a PEND side-buffer entry. -/
def readTimeout (d : Data) (n : SliceId) (side : Bool) (i : Nat) : Data :=
  if side then
    let k : Fin 32 := Fin.ofNat 32 i
    let e := d.slices[n].side[k]
    match e.issued with
    | some t =>
      if e.st = .pend ∧ t + d.fillTime n ≤ d.now then
        let b := d.bkpOf (2 * e.sec)
        let d := ((d.fldCnt (Reg.bkpErrCnt b.val) 0 16 1).evBkp b 2)
        let d := ((d.tmoCap n 0 2 (2 * e.sec)).evSlc n 17).modSide n k fun _ => {}
        d.wake n fun l => l == .onSide k.val
      else d
    | none => d
  else
    match d.slices[n].mt.find? fun e => e.idx == i && e.got.isNone && !e.zero && !e.failed with
    | none => d
    | some e =>
      match e.issued with
      | some t =>
        if t + d.fillTime n ≤ d.now then ((d.tmoCap n 0 2 e.first).evSlc n 17).mtFailed n e else d
      | none => d

/-- BACKING_WRITE_TIMEOUT: reissued once, then the port fails. Entries are abandoned at the end of Drain (R235). -/
def writeTimeout (d : Data) (n : SliceId) (i : Nat) : Data :=
  if !d.mayWrite then d else
  match d.slices[n].wb.find? fun e => e.idx == i with
  | none => d
  | some e =>
    match e.sent with
    | none => d
    | some t =>
      if t + d.wackTime n ≤ d.now then
        let b := d.bkpOf e.ga
        let d := (d.tmoCap n 0 3 e.ga).evSlc n 18
        if e.tries = 0 then
          let d := d.modWb n (fun x => x.uid == e.uid) fun x => { x with sent := some d.now, tries := 1 }
          ((d.fldCnt (Reg.bkpErrCnt b.val) 16 16 1).evBkp b 3).pmcBkp b 5
        else d.bkpFailPort b
      else d

/-- STORE_DIRECTORY_TIMEOUT: a backstop read or write of 20 µs is a slice fault. -/
def bstTimeout (d : Data) (n : SliceId) : Data :=
  let late := (d.slices[n].fetches.filter fun f => decide (f.start + us 20 ≤ d.now)).map (·.ga)
    ++ (match d.spillNext n with | some x => if (x.start.map fun t => decide (t + us 20 ≤ d.now)) = some true then [x.e.ga] else [] | none => [])
  match late with
  | [] => d
  | ga :: _ => ((d.tmoCap n 0 4 ga).evSlc n 19).sliceFault n

/-- A REQ has waited RTRY in a retry queue and has not been reported. -/
def retryDue (d : Data) (n : SliceId) (w : Waiter) : Bool :=
  match w.kind, w.enter with
  | .req _, some t => !w.reported && decide (t + d.rtryTime n ≤ d.now)
  | _, _ => false

/-- RETRY_WAIT_TIMEOUT: the oldest REQ that has waited RTRY is captured and reported. -/
def retryTimeout (d : Data) (n : SliceId) : Data :=
  match minBy (·.seq) (d.slices[n].waiters.filter (d.retryDue n)) with
  | none => d
  | some w =>
    let a := match w.kind with | .req r => r.agent.val | _ => 0
    ((d.tmoCap n a 5 w.kind.ga).evSlc n 20).putWaiter n { w with reported := true }

/-- A request has been stalled under the budget wait for 20 µs. -/
def budgetDue (d : Data) (w : Waiter) : Bool :=
  match w.loc with
  | .retry (.budget t) => !w.rel && decide (t + us 20 ≤ d.now)
  | _ => false

/-- BUDGET_WAIT_TIMEOUT: a request stalled for 20 µs is released and counted. -/
def budgetTimeout (d : Data) (n : SliceId) : Data :=
  match minBy (·.seq) (d.slices[n].waiters.filter d.budgetDue) with
  | none => d
  | some w =>
    ((d.fldCnt Reg.durStallCnt 0 32 1).evDur 3).putWaiter n { w with rel := true }

end Data

end Sys2Proof.Machine
end

