-- ==== Sys2Proof/Machine/Maintenance.lean ====
section
/-!
DEFINITION. Maintenance: the dispatcher (R282 to R286), the steps of an operation in a slice (R277 to R281, R287), and
completion (R125, R285, R286, R288).
-/

namespace Sys2Proof.Machine

/-- A maintenance item (R283). -/
structure MntItem where
  opc : Nat
  op : Nat
  scope : Nat
  tag : Word
  clean : Bool
  tgt : Nat
  words : Nat
  /-- A word of the item carries POISON (R292). -/
  psn : Bool := false
  /-- What the PERMS entries at the acceptance of its words grant in common (R62, R284). -/
  perm : Word := BitVec.allOnes 32
deriving DecidableEq, Repr

def mntItem (ws : List Dword) (psn : Bool := false) (perm : Word := BitVec.allOnes 32) : MntItem :=
  let h := (ws.getD 0 0).toNat
  { opc := bits h 0 8, op := bits h 8 3, scope := bits h 11 2, tag := BitVec.ofNat 32 (bits h 24 32),
    clean := bits h 13 11 == 0 && bits h 56 8 == 0, tgt := (ws.getD 1 0).toNat, words := ws.length, psn := psn, perm := perm }

/-- The PERMS entries of words, in common. -/
def permAll (l : List Word) : Word := l.foldl (· &&& ·) (BitVec.allOnes 32)

namespace MntItem
def line (i : MntItem) : Nat := bits i.tgt 0 31
def nline (i : MntItem) : Nat := bits i.tgt 31 33
def slice (i : MntItem) : SliceId := Fin.ofNat 8 (bits i.tgt 0 3)
def set (i : MntItem) : Nat := bits i.tgt 3 15
def way (i : MntItem) : Nat := bits i.tgt 18 4

/-- The FORMAT check of R284; an item with POISON fails it (R292). -/
def formed (i : MntItem) : Bool :=
  !i.psn && i.opc == 0x4D && i.clean && i.words == 2 && decide (i.op ≤ 4) && i.scope != 3 && (decide (i.op < 3) || i.scope == 2) &&
    (if i.scope = 0 then decide (1 ≤ i.nline ∧ i.line + i.nline ≤ 2 ^ 31)
     else if i.scope = 1 then i.nline == 0
     else bits i.tgt 22 42 == 0)
end MntItem

namespace Data

/-! ## Issue (R282 to R286) -/

/-- TOP_MAGQn of a requester. -/
def magq (d : Data) (r : Requester) : Nat := (d.reg (Reg.topMagq r.val)).toNat

/-- A requester owns a queue (R46): agents their own, the management cluster those with owner 0x10. -/
def owns (d : Data) (r : Requester) (q : Nat) : Bool := (d.qRec q).isSome && d.qOwner q == r.val

/-- The dispatcher serves the requester's command queue. -/
def mntServed (d : Data) (r : Requester) : Bool :=
  nbit (d.magq r) 14 && d.owns r (bits (d.magq r) 0 14) && d.owns r (bits (d.magq r) 16 14)

/-- The slices that an item names (R279); a RANGE names every slice in service. -/
def mntSlices (d : Data) (i : MntItem) : List SliceId :=
  if i.scope = 0 then d.serving else if i.scope = 1 then [d.homeOf (i.line * 32)] else [i.slice]

/-- The PERM check of R284. -/
def mntPerm (r : Requester) (i : MntItem) : Bool :=
  16 ≤ r.val || (if i.scope = 0 ∧ (i.op = 0 ∨ i.op = 2) then i.perm.getLsbD 3 else i.perm.getLsbD 4)

/-- The TARGET check of R284. -/
def mntTarget (d : Data) (i : MntItem) : Bool :=
  if i.scope = 1 then d.inMap (i.line * 32) && (d.homed (i.line * 32) || d.pair.takenOver)
  else if i.scope = 2 then d.serving.contains i.slice
  else true

/-- Pushes a completion; one dropped raises event 22 of the lowest slice named (R286). -/
def mntReply (d : Data) (r : Requester) (slices : List SliceId) (ws : List Nat) : Data :=
  let (d, lost) := d.qItem (bits (d.magq r) 16 14) (ws.map fun x => BitVec.ofNat 64 x)
  match lost, minBy (·.val) slices with
  | true, some n => d.evSlc n 22
  | true, none => d.evSlc 0 22
  | false, _ => d

/-- Word 0 of a completion. -/
def mntWord (status : Nat) (tag : Word) : Nat := 0xCD + at_ status 16 + at_ tag.toNat 24

/-- Accepts an operation into slices (R285). One of the device's own procedures joins the list of a slice that holds four already
and waits there for room: the slice runs its operations in order, one at a time (assumption 71). -/
def mntAccept (d : Data) (owner : MntOwner) (slices : List SliceId) (op scope line upto set way : Nat)
    (filt : Option (List Nat)) : Data :=
  let id := d.seq
  let d := { d with seq := d.seq + 1 }
  let t : MntTrack := { id := id, owner := owner, slices := slices, left := slices, op := op, scope := scope, line := line, upto := upto, since := d.now }
  let d := { d with mnts := d.mnts.concat t }
  let o : MntOp := { id := id, op := op, scope := scope, line := line, upto := upto, set := set, way := way, regs := d.regions, accepted := d.now, filt := filt }
  slices.foldl (fun d n => d.modSlice n fun s => { s with mnt := s.mnt.concat o }) d

/-- The requesters in the dispatcher's rotation. -/
def mntOrder (d : Data) : List Requester := (List.range 17).map fun i => Fin.ofNat 17 (d.mntTurn + i)

/-- The requester whose item the dispatcher takes next: served, with an item at its head that every named slice has
room for. -/
def mntNext (d : Data) : Option (Requester × MntItem) :=
  d.mntOrder.findSome? fun r =>
    if !d.mntServed r then none
    else
      match d.qHeadItem (bits (d.magq r) 0 14) with
      | none => none
      | some ws =>
        let i := mntItem (ws.map (·.data)) (ws.any fun w => w.poison || w.bad) (permAll (ws.map (·.perm)))
        if d.qHeadGap (bits (d.magq r) 0 14) then some (r, i)
        else if i.formed && mntPerm r i && d.mntTarget i &&
            (d.mntSlices i).any fun n => decide (4 ≤ d.slices[n].mnt.length) then none
        else some (r, i)

/-- The dispatcher takes the next item if its OP is `op`; one without a valid OP is handled by CLEAN. -/
def mntTake (d : Data) (op : Nat) : Data :=
  if !d.ready ∨ d.dur.tr.isSome then d
  else
    match d.mntNext with
    | none => d
    | some (r, i) =>
      if i.op ≠ op ∧ ¬(op = 0 ∧ 4 < i.op) then d
      else
        let q := bits (d.magq r) 0 14
        match { d with mntTurn := (r.val + 1) % 17 }.qTake q with
        | (d, none) => d
        | (d, some l) =>
          let i := mntItem (l.map (·.data)) (l.any (·.poison)) (permAll (l.map (·.perm)))
          if !i.formed then d.mntReply r [] [mntWord 1 i.tag]
          else if !mntPerm r i then d.mntReply r (d.mntSlices i) [mntWord 2 i.tag]
          else if !d.mntTarget i then d.mntReply r (d.mntSlices i) [mntWord 3 i.tag]
          else
            let upto := if i.scope = 0 then i.line + i.nline else i.line + 1
            if i.scope = 2 then d.mntAccept (.queue r i.tag) [i.slice] i.op 2 0 0 i.set i.way none
            else d.mntAccept (.queue r i.tag) (d.mntSlices i) i.op i.scope i.line upto 0 0 none

/-! ## Steps (R277 to R281) -/


end Data

/-- A line lies in the range that an operation acts on. -/
def MntOp.inRange (o : MntOp) (line : Nat) : Bool :=
  decide (o.line ≤ line ∧ line < o.upto) &&
    (match o.filt with | some bs => bs.contains (bucketOf line) | none => true)

namespace Data

def modMnt (d : Data) (n : SliceId) (id : Nat) (f : MntOp → MntOp) : Data :=
  d.modSlice n fun s => { s with mnt := lmod (fun o => o.id == id) f s.mnt }

/-- Dirty sectors of a way that no CLN entry covers. -/
def uncleaned (d : Data) (n : SliceId) (set way : Nat) : List Nat :=
  let t := d.tagEnt n set way
  let line := d.wayLine n set way
  (List.range 16).filter fun s =>
    t.sd.getLsbD s && !(d.slices[n].wb.any fun e => e.kind == .cln && secOf e.ga == line * 16 + s)

/-- A way needs action (R280); one that a step has left VALID for good does not. -/
def mntNeeds (d : Data) (n : SliceId) (o : MntOp) (set way : Nat) : Bool :=
  let t := d.tagEnt n set way
  let line := d.wayLine n set way
  let ret := (d.setWord n set).ret.getLsbD way
  let moving := t.st == .fill || t.st == .draining
  let here := match o.scope with
    | 0 => o.inRange line && !ret
    | 1 => line == o.line && !ret
    | _ => way == o.way
  if o.op = 4 then way == o.way && ret
  else if o.op = 3 then way == o.way && !ret && !o.seen.contains (way, line)
  else here && (moving || (t.st == .valid && !o.seen.contains (way, line) &&
    (o.op == 1 || o.op == 2 || (o.op == 0 && !(d.uncleaned n set way).isEmpty))))

/-- The ways that a step may act on. -/
def mntWays (d : Data) (n : SliceId) (o : MntOp) : Nat × List Nat :=
  match o.scope with
  | 0 => (o.set, (List.range 16).filter fun w => d.mntNeeds n o o.set w)
  | 1 => (setOf o.line, (List.range 16).filter fun w => d.mntNeeds n o (setOf o.line) w)
  | _ => (o.set, [o.way].filter fun w => d.mntNeeds n o o.set w)

/-- The miss-tracker entry that a step of age `age` waits on: one of an earlier pass that fills a line which the step acts on
(R170). -/
def mntFill (d : Data) (n : SliceId) (o : MntOp) (set age : Nat) : Option MtEnt :=
  d.slices[n].mt.find? fun e =>
    let line := e.sec / 16
    decide (e.uid < age) && e.use == .demand && setOf line == set &&
      (match o.scope with
        | 0 => o.inRange line && (e.alloc.isSome || e.fills)
        | 1 => line == o.line && (e.alloc.isSome || e.fills)
        | _ => (e.alloc == some (set, o.way) && (d.tagEnt n set o.way).st == .fill) ||
            (e.fills && line == d.wayLine n set o.way && (d.tagEnt n set o.way).st == .valid))

/-- A seal item has passed its durability step for a granule of the line and is not complete (R287). -/
def sealHolds (d : Data) (line : Nat) : Bool :=
  d.hlm.lanes.toList.any fun o =>
    match o with
    | none => false
    | some i =>
      let below := fun (k : Nat) => ((i.ranges.take k).map fun r => bits r.toNat 36 28).sum
      i.ranges.zipIdx.any fun r =>
        let g := bits r.1.toNat 0 36
        let k := min (bits r.1.toNat 36 28) (i.dn - below r.2)
        decide (g < line * 32 + 32 ∧ line * 32 < g + k)

/-- Sets RET of a way and empties it (R88, R75). -/
def wayRetire (d : Data) (n : SliceId) (set way : Nat) : Data :=
  ((d.wayInv n set way).modSet n set fun w => { w with ret := setBit w.ret way true }).modStore fun s => { s with unsaved := true }

/-- Frees or cancels the side-buffer entries of lines that satisfy `p`, as an invalidating operation does (R120, R278). -/
def mntSide (d : Data) (n : SliceId) (p : Nat → Bool) : Data :=
  (List.finRange 32).foldl (fun (d : Data) i =>
    let e := d.slices[n].side[i]
    if e.st ≠ .free ∧ p (e.sec / 16) then d.sideDrop n e.sec else d) d

/-- INV of a VALID way: its dirty sectors are discarded (R277, R278). -/
def mntDiscard (d : Data) (n : SliceId) (o : MntOp) (set way : Nat) : Data :=
  let t := d.tagEnt n set way
  let line := d.wayLine n set way
  let secs := (List.range 16).filter fun s => t.sd.getLsbD s
  let k := secs.length
  let dur := durIn o.regs (line * 32)
  let d := if dur && decide (0 < k) then ((d.credit (2 * k)).fldCnt (Reg.slcMntDisc n.val) 0 32 k).evSlc n 23 else d
  let d := secs.foldl (fun (d : Data) s => (d.mclrSend (line * 32 + 2 * s)).mclrSend (line * 32 + 2 * s + 1)) d
  let d := (d.wayInv n set way).settleDirty n set
  d.modMnt n o.id fun o => { o with disc := o.disc + k }

/-- Creates CLN entries for the sectors of a way that have none (R277). -/
def mntClean (d : Data) (n : SliceId) (o : MntOp) (set way : Nat) : Pass Data :=
  let secs := d.uncleaned n set way
  if d.wbFree n < 2 * secs.length then .error (.wb (2 * secs.length))
  else do
    let d ← secs.foldlM (fun (d : Data) s => d.cleanSector n set way s o.regs) d
    pure (d.settleDirty n set)

/-- One step on a way (R277, R278). A step on a way in DRAINING, on a line of a seal item between its two passes, or on a CLINV
line whose CLN entries are open comes later. -/
def mntAct (d : Data) (n : SliceId) (o : MntOp) (set way : Nat) : Pass Data :=
  let t := d.tagEnt n set way
  let line := d.wayLine n set way
  let left := fun (d : Data) (k : Nat) => d.modMnt n o.id fun o => { o with seen := o.seen.concat (way, line), skip := o.skip + k }
  let dead := t.sd != 0 && d.bkpFailed (line * 32)
  if t.st = .fill ∨ t.st = .draining then .error .later
  else if (o.op = 1 ∨ o.op = 2 ∨ o.op = 3) ∧ d.sealHolds line then .error .later
  else
    let d := if o.scope = 2 ∧ t.st = .valid then d.modMnt n o.id fun o => { o with line := line, upto := line + 1 } else d
    let d := if o.op = 1 ∨ o.op = 2 then d.mntSide n (· == line) else d
    match o.op with
    | 0 =>
      if dead then .ok (left d (popcount t.sd))
      else do
        let secs := d.uncleaned n set way
        let d ← d.mntClean n o set way
        let made := (d.slices[n].wb.filter fun e => e.kind == .cln && lineOf e.ga == line && secs.contains (secIn e.ga)).map (·.uid)
        pure (d.modMnt n o.id fun o => { o with await := o.await ++ made })
    | 1 => .ok (d.mntDiscard n o set way)
    | 2 =>
      if t.sd = 0 then .ok (d.wayInv n set way)
      else if dead then .ok (left d (popcount t.sd))
      else if (d.uncleaned n set way).isEmpty ∧ o.inv.contains (set, way, line) then .error .later
      else do
        let d ← d.mntClean n o set way
        pure (d.modMnt n o.id fun o => { o with inv := if o.inv.contains (set, way, line) then o.inv else o.inv.concat (set, way, line) })
    | 3 =>
      if t.st = .valid ∧ t.sd ≠ 0 then
        if dead then .ok (left d (popcount t.sd)) else d.drainWay n set way o.regs
      else .ok (d.wayRetire n set way)
    | _ => .ok ((d.modSet n set fun w => { w with ret := setBit w.ret way false }).modStore fun s => { s with unsaved := true })

/-- Every step of the operation is done: besides the CLN entries that CLEAN and CLINV made, it waits for the WT, NA and VIC
entries of its range (R281). -/
def mntSteps (d : Data) (n : SliceId) (o : MntOp) : Data :=
  d.modMnt n o.id fun o =>
    let waits := if o.op = 1 ∨ o.op = 4 then [] else
      (d.slices[n].wb.filter fun e => e.kind != .cln && o.inRange (lineOf e.ga)).map (·.uid)
    { o with done := true, await := o.await ++ waits }

/-- The operation that a slice runs: the oldest, unless its steps are done. -/
def mntRun (d : Data) (n : SliceId) : Option MntOp :=
  match d.slices[n].mnt with
  | o :: _ => if o.done ∨ d.dur.tr.isSome then none else some o
  | [] => none

/-- A maintenance step of age `age` (R170, R277 to R281). -/
def mntTry (d : Data) (n : SliceId) (o : MntOp) (age : Nat) : Pass Data :=
  let (set, ways) := d.mntWays n o
  match d.mntFill n o set age with
  | some e => .error (.onMt e.idx)
  | none =>
    let d := d.pmcSlc n 36
    let d := if o.begun then d
      else
        let d := d.modMnt n o.id fun o => { o with begun := true }
        if (o.op = 1 ∨ o.op = 2) ∧ o.scope ≠ 2 then d.mntSide n o.inRange else d
    match ways with
    | w :: _ => d.mntAct n o set w
    | [] =>
      .ok (if o.scope = 0 ∧ set < 32767 then d.modMnt n o.id fun o => { o with set := set + 1, seen := [] }
        else d.mntSteps n o)

/-- A maintenance step of a slice. -/
def mntStep (d : Data) (n : SliceId) (old : Option Nat) : Data :=
  match d.mntRun n with
  | none => d
  | some o =>
    let ga := match d.mntWays n o with | (set, w :: _) => some (d.wayLine n set w * 32) | _ => none
    (d.enginePass n 0 ga old (d.mntTry n o (old.getD d.seq))).ledgerSettle

/-- A slice has a maintenance step that would not only come later. -/
def mntWork (d : Data) (n : SliceId) : Bool :=
  match d.mntRun n with
  | none => false
  | some o => match d.mntTry n o d.seq with | .error .later => false | _ => true

/-! ## Completion (R125, R286, R288) -/

/-- A completed INV or CLINV of scope RANGE clears the stale bits of the disabled ranges it covers (R125), where it was accepted
after the disable: `t.id` and the ages kept with the disables are numbers of one count. -/
def mntStale (d : Data) (t : MntTrack) : Data :=
  if t.scope = 0 ∧ (t.op = 1 ∨ t.op = 2) ∧ !t.abort then
    let top := (d.usedBkps.foldl (fun a b => max a (d.bkps[b].mapGib * d.ways)) 0) * 2 ^ 19
    let d := allSlices.foldl (fun (d : Data) n =>
      if d.slices[n].cdis ∧ d.slices[n].cdisAt ≤ t.id ∧ t.line = 0 ∧ top ≤ t.upto then (d.flagSet (Reg.slcCdis n.val) 3 false).modCyc fun c => { c with gone := SMap.upd 0 c.gone (Reg.slcCdis n.val) (· ||| 8) }
      else d) d
    d.regions.zipIdx.foldl (fun (d : Data) x =>
      let lo := x.1.base / 2048
      if d.byp.getLsbD x.2 ∧ SMap.get 0 d.bypAt x.2 ≤ t.id ∧ t.line ≤ lo ∧ lo + x.1.size * 1024 ≤ t.upto then
        let b := if x.2 < 32 then Reg.topCbypStaleLo else Reg.topCbypStaleHi
        { d with bypStale := setBit d.bypStale x.2 false }.modCyc fun c =>
          { c with gone := SMap.upd 0 c.gone b (· ||| BitVec.twoPow 32 (x.2 % 32)) }
      else d) d
  else d

end Data

/-- The operation came through a queue. -/
def MntOwner.isQueue : MntOwner → Bool
  | .queue _ _ => true
  | _ => false

namespace Data

/-- The operations that have completed in a slice leave it (R281). -/
def mntLeave (d : Data) (n : SliceId) : Data :=
  (d.slices[n].mnt.filter fun o => o.done && o.await.isEmpty && o.inv.isEmpty).foldl (fun (d : Data) o =>
    let d := d.modSlice n fun s => { s with mnt := s.mnt.filter fun x => x.id != o.id }
    let f : MntTrack → MntTrack := fun t =>
      { t with left := t.left.filter (· != n), disc := satAdd 0xFFFFFFFF t.disc o.disc, skip := satAdd 0xFFFFFFFF t.skip o.skip }
    let d := { d with mnts := lmod (fun t => t.id == o.id) f d.mnts }
    d.tally 42 (d.mnts.filter fun t => t.id == o.id && t.left.isEmpty && !t.owner.isQueue).length) d

/-- Operations of requesters that have completed in every slice are answered; those of the device's own procedures stay
for the procedure to see. -/
def mntFinish (d : Data) : Data :=
  let ended := d.mnts.filter fun t => t.left.isEmpty
  ended.foldl (fun (d : Data) t =>
    match t.owner with
    | .queue r tag =>
      let d := { d with mnts := d.mnts.filter fun x => x.id != t.id }
      let d := d.tally 42
      if t.abort then d.mntReply r t.slices [mntWord 4 tag]
      else
        let d := d.mntStale t
        d.mntReply r t.slices [mntWord (if t.skip = 0 then 0 else 5) tag, t.disc + at_ t.skip 32]
    | .spare => { d with mnts := d.mnts.filter fun x => x.id != t.id }
    | _ => d) d

/-- The part of the operations in a slice that is fenced or no longer runs is abandoned (R288). -/
def mntDrop (d : Data) (n : SliceId) : Data :=
  { d.modSlice n fun s => { s with mnt := [] } with
    mnts := lmod (fun t => t.left.contains n) (fun t => { t with left := t.left.filter (· != n), abort := true }) d.mnts }

/-- Completion of maintenance operations. -/
def mntSettle (d : Data) : Data :=
  if d.mnts.isEmpty then d else (allSlices.foldl (fun d n => d.mntLeave n) d).mntFinish

end Data

end Sys2Proof.Machine
end

