-- ==== Sys2Proof/Machine/Hallmark.lean ====
section
/-!
DEFINITION. The hallmark engine (R243 to R250, R252, R253): taking a seal item, its durability and read steps, the
hallmark and the completion.
-/

namespace Sys2Proof.Machine

/-- Fields of a seal item's header (R244). -/
def hdrStream (h : Dword) : Nat := bits h.toNat 8 8
def hdrTag (h : Dword) : Nat := bits h.toNat 24 32
def rngFirst (r : Dword) : Nat := bits r.toNat 0 36
def rngCount (r : Dword) : Nat := bits r.toNat 36 28

/-- The FORMAT check of R245. -/
def sealFormed (ws : List Dword) : Bool :=
  match ws with
  | [] => false
  | h :: rs =>
    let x := h.toNat
    bits x 0 8 == 0x51 && bits x 20 4 == 0 && bits x 56 8 == 0 && decide (1 ≤ bits x 16 4) &&
      rs.length == bits x 16 4 && rs.all fun r => rngCount r != 0

/-- Granule number `k` of a list of ranges, in range order and granule order. -/
def rangeGran : List Dword → Nat → Nat
  | [], _ => 0
  | r :: rs, k => if k < rngCount r then rngFirst r + k else rangeGran rs (k - rngCount r)

/-- The preimage of a hallmark (R248). -/
def sealPreimage (stream flags seq sec ns : Nat) (devSer : BitVec 64) (prev : BitVec 256) (ranges : List Dword)
    (data : List Gran) : List Byte :=
  [0x4B, 0x48, 0x4C, 0x4D] ++ leBytes 2 1 ++ leBytes 1 stream ++ leBytes 1 flags ++ leBytes 8 seq ++ leBytes 8 sec
    ++ leBytes 4 ns ++ leBytes 1 ranges.length ++ leBytes 3 0 ++ leBytes 8 devSer.toNat ++ (leBytes 32 prev.toNat).reverse
    ++ ranges.flatMap (fun r => leBytes 8 r.toNat) ++ data.flatMap granBytes

namespace Data

/-- HLM_AGQn of an agent. -/
def agq (d : Data) (a : Agent) : Nat := (d.reg (Reg.hlmAgq a.val)).toNat

/-- The engine serves the agent's command queue (R243). -/
def sealServed (d : Data) (a : Agent) : Bool :=
  nbit (d.agq a) 14 && d.owns (Fin.castLE (by decide) a) (bits (d.agq a) 0 14)
    && d.owns (Fin.castLE (by decide) a) (bits (d.agq a) 16 14)

/-- The whole of a range lies in the backing map: its last granule on each port does (R22, R245). -/
def rangeMapped (d : Data) (first count : Nat) : Bool :=
  let last := first + count - 1
  let pages := ((List.range 4).map fun i => (last / 64 - i) * 64 + 63).filter fun g => decide (first ≤ g ∧ g < last)
  decide (last < 2 ^ 36) && (last :: pages).all d.inMap

/-- The NOSEAL check of R245. -/
def sealAllowed (d : Data) (rs : List Dword) : Bool :=
  rs.all fun r =>
    let a := rngFirst r
    let k := rngCount r
    d.rangeMapped a k &&
      (match regionIn d.regions a, regionIn d.regions (a + k - 1) with
      | some (i, x), some (j, _) => i == j && x.attr.getLsbD 5
      | _, _ => false)

/-- Pushes a completion (R249); one dropped raises event 5. -/
def sealReply (d : Data) (a : Agent) (ws : List Nat) (ok : Bool) : Data :=
  let (d, lost) := d.qItem (bits (d.agq a) 16 14) (ws.map fun x => BitVec.ofNat 64 x)
  let d := if lost then d.evHlm 5 else d
  d.tally (if ok then 14 else 15)

/-- Word 0 of a completion. -/
def sealWord (hdr : Dword) (status tflag restart : Nat) : Nat :=
  0xD1 + at_ (hdrStream hdr) 8 + at_ status 16 + at_ tflag 20 + at_ restart 22 + at_ (hdrTag hdr) 24

/-- Some lane holds an item of the stream. -/
def streamBusy (d : Data) (s : Nat) : Bool :=
  d.hlm.lanes.toList.any fun o => match o with | some i => hdrStream i.hdr == s | none => false

/-- The lane that takes the next item. -/
def sealLane (d : Data) : Option (Fin 8) := (List.finRange 8).find? fun k => d.hlm.lanes[k].isNone

/-- The engine can take the item at the head of the agent's command queue (R245, R246): an item that it accepts needs a lane and
its stream free. -/
def sealReady (d : Data) (a : Agent) : Bool :=
  d.sealServed a &&
    (match d.qHeadItem (bits (d.agq a) 0 14) with
    | none => false
    | some ws =>
      let l := ws.map (·.data)
      d.qHeadGap (bits (d.agq a) 0 14) || ws.any (fun w => w.poison || w.bad) || !sealFormed l || (!d.streamBusy (hdrStream (l.headD 0)) &&
        (d.sealLane.isSome || !d.sealAllowed (l.drop 1))))

/-- The agent whose item the engine takes next, in rotation. -/
def sealNext (d : Data) : Option Agent := ((List.range 16).map fun i => (Fin.ofNat 16 (d.hlm.turn + i) : Agent)).find? d.sealReady

/-- SEAL_ITEM: the engine takes the next item in rotation and checks it; one with POISON fails the FORMAT check (R245, R246, R292). -/
def sealTake (d : Data) : Data :=
  if !d.hlm.run ∨ !d.ready then d
  else
    match d.sealNext with
    | none => d
    | some a =>
      match (d.modHlm fun h => { h with turn := (a.val + 1) % 16 }).qTake (bits (d.agq a) 0 14) with
      | (d, none) => d
      | (d, some l) =>
        let ws := l.map (·.data)
        let hdr := ws.headD 0
        if !sealFormed ws ∨ l.any (·.poison) then (d.sealReply a [sealWord hdr 1 d.tflag 0] false).evHlm 0
        else if !d.sealAllowed (ws.drop 1) then (d.sealReply a [sealWord hdr 2 d.tflag 0] false).evHlm 0
        else
          match d.sealLane with
          | none => d
          | some k =>
            let i : SealItem := { agent := a, hdr := hdr, ranges := ws.drop 1, total := ((ws.drop 1).map rngCount).sum }
            d.modHlm fun h => { h with lanes := h.lanes.set k (some i) }

def modLane (d : Data) (k : Fin 8) (f : SealItem → SealItem) : Data :=
  d.modHlm fun h => { h with lanes := vmod h.lanes k fun o => o.map f }

/-- The item's clock is sampled once every covered granule is past its durability step (R247). -/
def sealSample (d : Data) (k : Fin 8) : Data :=
  let t := d.tflag
  let d := d.modLane k fun i => { i with sampled := true, sec := d.timeSec, ns := d.timeNsec, tflag := t }
  if t ≠ 0 then d.evHlm 2 else d

/-- The durability step of a granule at its home slice: whether it is past it (R247). -/
def sealDurable (d : Data) (n : SliceId) (ga : Nat) (age : Nat) : Pass (Data × Bool) :=
  match d.lookup n ga with
  | (e, .none) =>
    if !d.bocc n (bsetOf ga) then .ok (d, true)
    else
      match d.bstRead n (bsetOf ga) with
      | (d, none) => .ok (d.sliceFault n, false)
      | (d, some es) =>
        match es.find? fun x => x.base != .i && x.ga == ga with
        | none => .ok (d, true)
        | some x =>
          if x.base = .s then .ok (d, true)
          else if (d.slices[n].fetches.any fun f => f.ga == ga) || decide (14 ≤ d.pinnedWays n ga) then .error .later
          else do
            let (d, k) ← d.dirTake n ga
            let d := (d.dirPut n k { e with ga := ga, pin := true }).pmcSlc n 25
            pure (d.modSlice n fun s => { s with fetches := s.fetches.concat { ga := ga, key := k, start := d.now } }, false)
  | (e, _) =>
    if e.pin then .error .later
    else if e.base = .i ∨ e.base = .s then .ok (d, true)
    else do pure (← d.binvTry n ga age, false)

/-- The granule of a lane that waits for a step at slice `n`, with its stage: `false` durability, `true` read. -/
def sealWants (d : Data) (n : SliceId) (k : Fin 8) : Option (Bool × Nat) :=
  match d.hlm.lanes[k] with
  | none => none
  | some i =>
    if i.bad then none
    else if i.dn < i.total then
      let ga := rangeGran i.ranges i.dn
      if d.homeOf ga = n then some (false, ga) else none
    else if i.sampled ∧ !i.waiting ∧ i.rn < i.total then
      let ga := rangeGran i.ranges i.rn
      if d.homeOf ga = n then some (true, ga) else none
    else none

/-- SEAL_DURABILITY_STEP: the step of the lowest lane whose next granule this slice homes. -/
def sealStep (d : Data) (n : SliceId) (old : Option Nat) : Data :=
  match (List.finRange 8).find? fun k => (d.sealWants n k).isSome with
  | none => d
  | some k =>
    match d.sealWants n k with
    | none => d
    | some (false, ga) =>
      d.asOld (match d.hlm.lanes[k] with | some i => i.old | none => false) fun d => d.withLookup n ga fun d =>
      d.enginePass n 4 (some ga) old do
        let (d, ok) ← d.sealDurable n ga (old.getD d.seq)
        if !ok then pure d
        else
          let d := d.modLane k fun i => { i with dn := i.dn + 1 }
          pure (if (match d.hlm.lanes[k] with | some i => i.dn == i.total | none => false) then d.sealSample k else d)
    | some (true, ga) =>
      let seq := d.seq
      let d := d.modLane k fun i => { i with waiting := true }
      let w : Waiter := { seq := seq, since := d.now, kind := .hash k ga, loc := .ready }
      { d with seq := seq + 1 }.runWaiter n w

/-- A seal step waits at the slice. -/
def sealWork (d : Data) (n : SliceId) : Bool := (List.finRange 8).any fun k => (d.sealWants n k).isSome

/-- SEAL_HASH_COMPLETE: the chain advances and the completion is pushed, or the item ends with POISON (R247 to R249). -/
def sealDone (d : Data) (k : Fin 8) : Data :=
  match d.hlm.lanes[k] with
  | none => d
  | some i =>
    if i.bad then
      let d := d.modHlm fun h => { h with lanes := h.lanes.set k none }
      (d.sealReply i.agent [sealWord i.hdr 3 i.tflag 0] false).evHlm 1
    else if i.sampled ∧ i.rn = i.total then
      let s := hdrStream i.hdr
      let h := SMap.get {} d.hlm.heads s
      let seq := if h.restart then h.seq / 2 ^ 32 * 2 ^ 32 + 2 ^ 32 else h.seq + 1
      let seq := seq % 2 ^ 64
      let prev := if h.valid then h.hash else 0
      let pre := sealPreimage s (i.tflag + 4 * b2n h.restart) seq i.sec i.ns d.fuses.devSer prev i.ranges i.got
      let mark := sha256 pre
      let h' : Head := { hash := BitVec.ofNat 256 (beNat mark), seq := seq, sec := i.sec, valid := true }
      let d := d.modHlm fun x => { x with lanes := x.lanes.set k none, heads := SMap.set {} x.heads s h' }
      let ws := [sealWord i.hdr 0 i.tflag (b2n h.restart), seq, i.sec, i.ns] ++ (List.range 4).map fun j => leAt mark (8 * j) 8
      d.sealReply i.agent ws true
    else d

/-- A power failure stops the engine (R250). -/
def sealStop (d : Data) : Data :=
  let n := (d.hlm.lanes.toList.filter (·.isSome)).length
  let d := d.modHlm fun h => { h with run := false, lanes := Vector.replicate 8 none }
  let d := d.modDur fun u => { u with sealAbort := u.sealAbort + n }
  let d := allSlices.foldl (fun (d : Data) s => d.modSlice s fun x => { x with waiters := x.waiters.filter fun w => match w.kind with | .hash _ _ => false | _ => true }) d
  if n = 0 then d else d.evHlm 4

end Data

end Sys2Proof.Machine
end

