-- ==== Sys2Proof/Machine/Durability.lean ====
section
/-!
DEFINITION. The governor (R221 to R224), planish (R268, R269), the phases of a power failure (R232 to R238), the journal
(R239 to R242) and the events of backing ports (R231, R236, R255).
-/

namespace Sys2Proof.Machine

namespace Data

/-! ## Cleaning (R222, R223, R235, R386) -/

/-- The current dirty map advances on all slices (R222). -/
def epochAdvance (d : Data) : Data :=
  let len := ms (act1 (d.fld Reg.durCfg 8 8))
  allSlices.foldl (fun (d : Data) n =>
    let s := d.slices[n]
    if s.epoch + len ≤ d.now then
      let m := s.maps
      d.modSlice n fun s => { s with epoch := d.now, maps := #v[m[0].foldl (fun l x => insNat x l) m[1], m[2], m[3], []] }
    else d) d

/-- One cleaning step on a set: CLN entries for as many open sectors as the free entries allow (R223). -/
def cleanSet (d : Data) (n : SliceId) (set : Nat) : Pass Data :=
  let l := d.setOpen n set
  if l.isEmpty then .ok (d.settleDirty n set)
  else if d.wbFree n < 2 then .error (.wb 2)
  else do
    let d ← (l.take (d.wbFree n / 2)).foldlM (fun (d : Data) x => d.cleanSector n set x.1 x.2 d.regions) d
    pure (d.settleDirty n set)

/-- The lowest set of the oldest dirty map that is not empty. -/
def oldestDirty (d : Data) (n : SliceId) : Option Nat := (d.slices[n].maps.toList.flatten).head?

/-- The slice has a cleaning step to make: early cleaning runs, or the device drains (R223, R235). -/
def cleanWork (d : Data) (n : SliceId) : Bool :=
  (d.oldestDirty n).isSome &&
    (if d.dur.tr.isSome then d.dur.phase == .recalling || d.dur.phase == .drain else d.dur.cleaning)

/-- A cleaning or drain step. -/
def cleanStep (d : Data) (n : SliceId) (old : Option Nat) : Data :=
  match d.oldestDirty n with
  | none => d
  | some set =>
    let ga := ((d.setOpen n set).head?).map fun x => d.wayLine n set x.1 * 32
    d.enginePass n 1 ga old ((d.cleanSet n set).map fun d => if d.dur.tr.isSome then d else d.tally 12)

/-- The clean step that an MFULL calls for (R386). -/
def mfullStep (d : Data) (n : SliceId) (old : Option Nat) : Data :=
  match d.slices[n].mfull with
  | [] => d
  | sec :: rest =>
    let drop := fun (d : Data) => d.modSlice n fun s => { s with mfull := rest }
    match d.presentWay n (2 * sec) with
    | none => drop d
    | some w =>
      let set := setOf (sec / 16)
      if !(d.uncleaned n set w).contains (sec % 16) ∨ d.bkpFailed (2 * sec) then drop d
      else d.enginePass n 2 (some (2 * sec)) old ((d.cleanSector n set w (sec % 16) d.regions).map fun d => (drop d).settleDirty n set)

/-! ## Planish (R268, R269) -/

/-- The reads of a planish step and the parity that it computes of the line in a way (R268); a sector that a later fill brings
counts as absent (R269). -/
def plRead (d : Data) (n : SliceId) (set way : Nat) : Pass Data := do
  let t := d.tagEnt n set way
  let (d, ds) ← (List.range 32).foldlM (fun (a : Data × List GRead) g => do
    if t.sv.getLsbD (g / 2) then
      let (d, x, q) ← a.1.frameRead n set way g
      pure (d, a.2.concat { d := x, poison := q })
    else pure (a.1, a.2.concat {})) (d, [])
  let (p32, p33, psn) := frameParity ds
  let p : PlSlot := { set := set, way := way, sv := t.sv, p32 := p32, p33 := p33, psn := psn, at_ := d.now }
  pure ((d.modSlice n fun s => { s with plSlot := some p }).tally 31)

/-- The way of a set that a planish step takes. -/
def plWay (d : Data) (n : SliceId) (set : Nat) : Option Nat :=
  (List.range 16).find? fun w =>
    let t := d.tagEnt n set w
    t.st == .valid && t.sd == 0 && (d.setWord n set).ps.getLsbD w &&
      !(d.slices[n].mt.any fun e => e.sec / 16 == d.wayLine n set w) &&
      !(d.slices[n].plSlot.any fun p => p.set == set && p.way == w)

/-- A planish step is due. -/
def plWork (d : Data) (n : SliceId) : Bool :=
  let r := Reg.slcPlnCfg n.val
  d.flag r 0 && d.dur.tr.isNone && decide (d.slices[n].plLast + 64 * act1 (d.fld r 1 11) ≤ d.now)

/-- The set that a planish step serves: of the oldest hint, else the next of the walk. -/
def plSet (d : Data) (n : SliceId) : Data × Nat :=
  match d.slices[n].hints with
  | x :: xs => (d.modSlice n fun s => { s with hints := xs }, x.1)
  | [] =>
    let p := d.slices[n].plNext
    (d.modSlice n fun s => { s with plNext := (p + 1) % 32768 }, p)

/-- A planish step: the lowest stale clean way of its set goes into the slot, is read and its parity computed; the parity write
of the line before it has been made. -/
def plTry (d : Data) (n : SliceId) : Pass Data :=
  let d := (d.plCommit n).pmcSlc n 37
  let (d, set) := d.plSet n
  match d.plWay n set with
  | none => .ok d
  | some w => d.plRead n set w

def plStep (d : Data) (n : SliceId) (old : Option Nat) : Data :=
  let d := d.modSlice n fun s => { s with plLast := d.now }
  d.enginePass n 3 none old (d.plTry n)

/-- The parity write of a planish step follows it: it is made once time has passed, whatever comes first (assumption 18). -/
def plSettle (d : Data) (n : SliceId) : Data :=
  match d.slices[n].plSlot with
  | some p => if p.at_ < d.now then d.plCommit n else d
  | none => d

/-! ## Backing ports (R231, R236, R255) -/

/-- A used port that has not failed fails; `i` names the event of the cause, if it has one. -/
def bkpLose (d : Data) (b : BkpId) (i : Option Nat) : Data :=
  if !d.bkpUsed b ∨ d.bkps[b].st = .failed ∨ d.bkps[b].st = .down then d
  else
    let d := match i with | some k => d.evBkp b k | none => d
    d.bkpFailPort b

/-- A GPF failure: BKPn_STAT.GPF_ERR and event 6. -/
def gpfFailed (d : Data) (b : BkpId) : Data := (d.raise (Reg.bkpStat b.val) 7).evBkp b 6

/-- Entries that wait to issue to a port. -/
def wbWaiting (d : Data) (b : BkpId) : Nat :=
  (allSlices.map fun n => (d.slices[n].wb.filter fun e => e.issued && e.sent.isNone && d.bkpOf e.ga == b).length).sum

/-- The acknowledgements that a window ending now still takes in. -/
def Bkp.wndTrim (x : Bkp) (now : Nat) : Bkp :=
  let l := x.wndAck.takeWhile fun a => decide (a.1 + us 100 ≤ now)
  { x with wndAck := x.wndAck.drop l.length, wndCnt := x.wndCnt - l.length }

/-- BKPn_WRATE: the window of 100 µs that ends now, where 32 entries have waited throughout, and the lowest rate of any (R255). -/
def wrate (d : Data) (b : BkpId) : Data :=
  if d.bkps[b].st ≠ .ready ∨ d.wbWaiting b < 32 then
    if d.bkps[b].wndAt.isNone && d.bkps[b].wndCnt == 0 then d else d.modBkp b fun x => { x with wndAt := none, wndAck := [], wndCnt := 0 }
  else
    match d.bkps[b].wndAt with
    | none => d.modBkp b fun x => { x with wndAt := some d.now, wndAck := [], wndCnt := 0 }
    | some t =>
      let d := d.modBkp b fun x => Bkp.wndTrim x d.now
      if d.now < t + us 100 then d
      else
        let r := min 0xFFFF (d.bkps[b].wndCnt * 512 / 100000)
        let a := Reg.bkpWrate b.val
        if d.bkps[b].wndSeen ∧ d.fld a 0 16 ≤ r then d
        else ((d.keepWas a 0 (d.fld a 0 16)).fldSet a 0 16 r).modBkp b fun x => { x with wndSeen := true }

/-! ## The journal (R239 to R242) -/

/-- A chain head record (R241). -/
def headBytes (h : Head) : List Byte :=
  if h.valid then (leBytes 32 h.hash.toNat).reverse ++ leBytes 8 h.seq ++ leBytes 6 h.sec ++ leBytes 2 1
  else List.replicate 48 0

/-- A journal record of a STATE (R240), its CRC included. -/
def journalRecord (d : Data) (state jseq : Nat) (seqFrom : Bool) : List Byte :=
  let u := d.dur
  let z := fun (x : Nat) => if seqFrom then x else 0
  let ph := (List.range 4).map fun i => z (u.phEnd.getD i 0)
  let magic : List Byte := [0x4B, 0x4A, 0x52, 0x4E]
  let head := magic ++ leBytes 2 1 ++ leBytes 2 state ++ leBytes 4 jseq
    ++ leBytes 4 (match d.rig with | some r => r.seq | none => 0) ++ leBytes 8 d.fuses.devSer.toNat
    ++ leBytes 8 (z u.trSec) ++ leBytes 4 (z u.trNs) ++ leBytes 1 (z u.trFlag) ++ leBytes 1 (z u.gpfFail.toNat)
    ++ leBytes 1 (z u.portFailed.toNat) ++ leBytes 1 (z u.limits.toNat) ++ ph.flatMap (leBytes 4)
    ++ leBytes 4 (z u.bTR) ++ leBytes 4 (z u.eTR) ++ leBytes 4 (z u.rvTR) ++ leBytes 2 (z u.agUnans.toNat) ++ leBytes 2 0
    ++ leBytes 4 (z u.sealAbort) ++ leBytes 4 (z u.lateDisc) ++ leBytes 4 (z u.poisoned) ++ List.replicate 940 0
  let loss := (List.range 64).flatMap fun n =>
    let l : Loss := if seqFrom then SMap.get {} u.loss n else {}
    leBytes 4 l.agent ++ leBytes 4 l.drain ++ leBytes 4 l.persist
  let body := head ++ loss ++ List.replicate 2300 0
  let heads := (List.range 256).flatMap fun s => headBytes (SMap.get {} d.hlm.heads s)
  body ++ leBytes 4 (crc32 (body ++ heads)).toNat ++ heads

/-- MAGIC, VER, CRC and STATE of a record are correct (R242). -/
def journalValid (l : List Byte) : Bool :=
  let b := sub l 0 4092
  let h := sub l 4096 12288
  sub l 0 4 == [0x4B, 0x4A, 0x52, 0x4E] && leAt l 4 2 == 1 && (leAt l 6 2 == 1 || leAt l 6 2 == 2 || leAt l 6 2 == 3) &&
    leAt l 4092 4 == (crc32 (b ++ h)).toNat

/-- The heads that a record carries. -/
def journalHeads (l : List Byte) (restart : Bool) : SMap Head :=
  (List.range 256).foldl (fun m s =>
    let o := 4096 + 48 * s
    if leAt l (o + 46) 2 % 2 = 1 then
      let h : Head := { hash := BitVec.ofNat 256 (beNat (sub l o 32)), seq := leAt l (o + 32) 8, sec := leAt l (o + 40) 6, valid := true, restart := restart }
      SMap.set {} m s h
    else m) []

/-- CAP of a used port in GiB (R43). -/
def capGib (d : Data) (b : BkpId) : Nat :=
  match d.rig with
  | some r => bits (r.back.getD b.val 0).toNat 16 16
  | none => 0

/-- The decoder of a port covers the journal area (R227, R239). -/
def journalCovered (d : Data) (b : BkpId) : Bool :=
  let m := b2n d.member
  let cap := d.capGib b * 1024
  d.bkpUsed b && d.bkps[b].st == .ready && decide (cap + 4 * m + 4 ≤ min (cap + 256) d.bkps[b].capMib)

/-- The journal areas are lost: NOJRNL and event 10 (R239). -/
def journalGone (d : Data) : Data :=
  if d.dur.jA.isNone ∧ d.dur.jB.isNone ∧ !d.dur.nojrnl then (d.modDur fun u => { u with nojrnl := true }).evDur 10 else d

/-- The record with the highest JSEQ, the earlier in the list on a tie. -/
def newestRecord : List (List Byte) → Option (List Byte)
  | [] => none
  | l :: ls =>
    match newestRecord ls with
    | none => some l
    | some m => if leAt m 8 4 > leAt l 8 4 then some m else some l

/-- Step 7 of start-up (R239, R242): copies, the newest record, the restored heads, and the OPEN record to flush. -/
def journalStart (d : Data) (e : StartEnv) : Data :=
  let ports := (allBkps.filter d.journalCovered).take 2
  let d := d.modDur fun u => { u with jA := ports[0]?, jB := ports[1]?, pA := ports.getD 0 0, pB := ports.getD 1 0, nojrnl := false, lastLoss := false, unrec := false, flush := [], record := [] }
  let slots := (ports.flatMap fun b => (e.ports[b]).journal).filter journalValid
  let new := newestRecord slots
  let (d, jseq) := match new with
    | none => (d.modHlm fun h => { h with heads := [] }, 0)
    | some l =>
      let st := leAt l 6 2
      let d := d.modHlm fun h => { h with heads := journalHeads l (st == 1) }
      let d := d.stageWrite l
      let d := d.modDur fun u => { u with lastLoss := st == 3, unrec := st == 1 }
      let d := if st = 3 then d.evDur 8 else if st = 1 then d.evDur 9 else d
      let d := if st = 1 ∧ !(d.hlm.heads.isEmpty) then d.evHlm 3 else d
      (d, leAt l 8 4)
  let jseq := (jseq + 1) % 2 ^ 32
  let rec_ := if ports.isEmpty then [] else d.journalRecord 1 jseq false
  let d := d.modDur fun u => { u with jseq := jseq, record := rec_, flush := ports.map fun b => (b, d.now) }
  d.journalGone

/-- A journal copy is dropped (R242). -/
def journalDrop (d : Data) (b : BkpId) : Data :=
  let d := d.modDur fun u =>
    { u with jA := if u.jA = some b then none else u.jA, jB := if u.jB = some b then none else u.jB, flush := u.flush.filter fun x => x.1 != b }
  (d.evBkp b 6).journalGone

/-! ## The phases (R232 to R237) -/

/-- Deadline of a phase: TR and the limits up to and including it. -/
def phaseDue (d : Data) (k : Nat) : Bool :=
  match d.dur.tr with
  | none => false
  | some t => decide (t + us (100 * ((List.range (k + 1)).map fun i => act1 (d.fld Reg.durLim (8 * i) 8)).sum) ≤ d.now)

/-- Records the end of a phase in µs from TR. -/
def phaseEnd (d : Data) (next : DurPhase) : Data :=
  let t := (d.now - d.dur.tr.getD 0) / 1600
  d.modDur fun u => { u with phEnd := u.phEnd.concat t, phase := next }

/-- Clears LCH in every entry of a slice's directory. -/
def lchClear (d : Data) (n : SliceId) : Data :=
  let sets := d.bstSets n
  let d := d.modSlice n fun s =>
    { s with dir := s.dir.map (fun x => (x.1, { x.2 with lch := false }))
             spill := s.spill.map fun x => { x with e := { x.e with lch := false } } }
  sets.foldl (fun (d : Data) b =>
    match cwDecode (d.cwGet (bstKey n b)) with
    | .good g | .poison g | .fixed g _ =>
      let es := (List.range 8).map fun i => bstDec (bits g.toNat (64 * i) 64)
      if es.any fun e => e.lch then d.bstWrite n b es (es.map fun e => { e with lch := false }) else d
    | .bad _ => d) d

/-- The end of Recall (R234): agents that did not answer, and the exposure that they and others still hold. -/
def recallEnd (d : Data) (late : Bool) : Data :=
  let un := (allAgents.filter fun p => d.ports[p].recalling).foldl (fun s p => s ||| abit p) (0 : AgentSet)
  let d := d.modDur fun u => { u with agUnans := un, limits := if late then u.limits ||| 1 else u.limits }
  let d := if late then d.evDur 4 else d
  let d := allAgents.foldl (fun (d : Data) p => d.modPort p fun x => { x with recalling := false }) d
  let d := allSlices.foldl (fun (d : Data) n =>
    let d := d.dirCheck n
    let held := (d.dirAll n).filter (·.lch)
    let d := held.foldl (fun (d : Data) e => (d.lossAdd (d.rgnNo e.ga) { agent := 1 }).credit 1) d
    if held.isEmpty then d else d.lchClear n) d
  (d.phaseEnd .drain).ledgerSettle

/-- Of the two CLN entries of a dirty sector the granule's own is acknowledged, and nothing was written since. -/
def clnAcked (s : Slice) (ga : Nat) : Bool :=
  let c := s.wb.filter fun e => e.kind == .cln && e.ga / 2 == ga / 2
  !c.isEmpty && c.all fun e => e.ga != ga && !e.redirty

/-- Durable granules that no backing write has been acknowledged for. -/
def unacked (d : Data) : List Nat :=
  (allSlices.flatMap fun n =>
    let s := d.slices[n]
    let dirty := s.tags.flatMap fun x =>
      if x.2.st = .valid then
        let line := lineAt x.2.tag (x.1 / 16)
        if d.durable (line * 32) then
          (((List.range 16).filter fun i => x.2.sd.getLsbD i).flatMap fun i => [line * 32 + 2 * i, line * 32 + 2 * i + 1]).filter
            fun ga => !clnAcked s ga
        else []
      else []
    dirty ++ (s.wb.filter fun e => e.dur && e.kind != .cln).map (·.ga)).eraseDups

/-- Granules of the valid mirror entries. -/
def mirrorGas (d : Data) : List Nat :=
  d.store.cw.flatMap fun x =>
    let i := x.1 % pcCw
    if i < areaBase .mirror then []
    else
      let q := ((i - areaBase .mirror) / 16 * 32 + x.1 / pcCw) * 16 + i % 16
      if q % 16 = 0 then
        ((d.mirTags (q / 16)).2.filter fun t => nbit t 14).map fun t => mirGa (q / 16) (bits t 0 14)
      else []

/-- Drain is complete (R233): the maps are empty, every durable entry of a port in service is acknowledged, and what
R399 adds to the drain is done. -/
def drained? (d : Data) : Bool :=
  (allSlices.all fun n =>
    let s := d.slices[n]
    s.maps.toList.flatten.isEmpty && s.wb.all (fun e => !e.dur || d.bkpFailed e.ga) && s.salv.isNone) &&
    (!d.pair.takenOver || (d.pair.entries == 0 && d.pair.drainOut.isEmpty))

/-- The end of Drain (R235). -/
def drainEnd (d : Data) (late : Bool) : Data :=
  let d := d.modDur fun u => { u with limits := if late then u.limits ||| 2 else u.limits }
  let d := if late then d.evDur 5 else d
  let lost := d.unacked ++ (if d.pair.takenOver then d.mirrorGas else [])
  let d := lost.foldl (fun (d : Data) ga => d.lossAdd (d.rgnNo ga) { drain := 1 }) d
  let d := d.phaseEnd .persist
  d.usedBkps.foldl (fun (d : Data) b => if d.bkps[b].st = .ready then d.modBkp b fun x => { x with gpf := .phase1 } else d) d

/-- A port's Persist failed (R236): its acknowledged granules count as lost. -/
def persistFail (d : Data) (b : BkpId) : Data :=
  if d.dur.gpfFail.getLsbD b.val then d
  else
    let d := (d.modDur fun u => { u with gpfFail := setBit u.gpfFail b.val true }).gpfFailed b
    d.bkps[b].acked.foldl (fun (d : Data) x => d.lossAdd (d.rgnNo x) { persist := 1 }) d

/-- A port that fails with a response of Persist still due has failed its Persist (R236). -/
def persistLost (d : Data) : Data :=
  if d.dur.phase != .persist then d
  else allBkps.foldl (fun (d : Data) b =>
    match d.bkps[b].gpf with
    | .phase1 | .gotPhase1 | .phase2 =>
      if d.bkps[b].st = .failed then (d.persistFail b).modBkp b fun x => { x with gpf := .done } else d
    | _ => d) d

/-- GPF Phase 2 goes out once every Phase 1 response is in (R236). -/
def persistNext (d : Data) : Data :=
  if d.dur.phase == .persist && (allBkps.all fun b => d.bkps[b].gpf != .phase1) && (allBkps.any fun b => d.bkps[b].gpf == .gotPhase1) then
    allBkps.foldl (fun (d : Data) b => if d.bkps[b].gpf = .gotPhase1 then d.modBkp b fun x => { x with gpf := .phase2 } else d) d
  else d

/-- A record is LOSS (R240). -/
def lossy (d : Data) : Bool :=
  let u := d.dur
  u.loss.any (fun x => x.2.agent != 0 || x.2.drain != 0 || x.2.persist != 0) || u.agUnans != 0 || u.gpfFail != 0 ||
    u.portFailed != 0 || u.limits != 0

/-- The end of Persist, and the record of the Journal phase (R236, R237, R239). -/
def persistEnd (d : Data) (late : Bool) : Data :=
  let open_ := allBkps.filter fun b => match d.bkps[b].gpf with | .phase1 | .gotPhase1 | .phase2 => true | _ => false
  let d := if late then open_.foldl (fun (d : Data) b => d.persistFail b) d else d
  let d := d.modDur fun u => { u with limits := if late then u.limits ||| 4 else u.limits }
  let d := if late || d.dur.gpfFail != 0 then d.evDur 6 else d
  let d := allBkps.foldl (fun (d : Data) b => d.modBkp b fun x => { x with gpf := .idle }) (d.phaseEnd .journal)
  let d := d.modDur fun u => { u with phEnd := u.phEnd.concat ((d.now - u.tr.getD 0) / 1600) }
  let rec_ := d.journalRecord (if d.lossy then 3 else 2) d.dur.jseq true
  let copies := d.dur.jA.toList ++ d.dur.jB.toList
  if copies.isEmpty then d
  else (d.stageWrite rec_).modDur fun u => { u with record := rec_, flush := copies.map fun b => (b, d.now) }

/-- Set Shutdown State clean goes to the ports whose Persist succeeded (R237). -/
def shutdownClean (d : Data) : Data :=
  d.usedBkps.foldl (fun (d : Data) b =>
    if d.bkps[b].st = .ready ∧ !d.dur.gpfFail.getLsbD b.val ∧ d.bkps[b].dirtySet then d.modBkp b fun x => { x with cleanWait := true, gpf := .done }
    else d.modBkp b fun x => { x with gpf := .done }) d

/-- PFD is asserted and the sequence is done (R237). -/
def journalEnd (d : Data) : Data :=
  let d := (d.modDur fun u => { u with phase := .done, doneAt := some d.now, flush := [] }).evDur 7
  d.modPwr fun p => { p with pfd := true }

/-- The Journal phase has sent its Set Shutdown State commands. -/
def cleanSent (d : Data) : Bool := d.usedBkps.all fun b => d.bkps[b].gpf == .done

/-- A write of DUR_BUDGET has taken effect (R221, R352). -/
def budgetSettle (d : Data) : Data :=
  match d.dur.bPrev with
  | some (_, t) => if t < d.now then (d.modDur fun u => { u with bPrev := none }).ledgerSettle else d
  | none => d

/-- Phases that are complete end, and the next begin at once (R233). -/
def durSettle (d : Data) : Data :=
  if d.dur.tr.isNone then d
  else
    let d := if d.dur.phase = .recalling ∧ !(allAgents.any fun p => d.ports[p].recalling) then d.recallEnd false else d
    let d := if d.dur.phase = .drain ∧ d.drained? then d.drainEnd false else d
    let d := d.persistLost.persistNext
    let d := if d.dur.phase = .persist ∧ (d.usedBkps.all fun b => d.bkps[b].st != .ready || d.bkps[b].gpf == .done || d.bkps[b].gpf == .idle)
      then d.persistEnd false else d
    let d := if d.dur.phase = .journal ∧ d.dur.flush.isEmpty ∧ !d.cleanSent then d.shutdownClean else d
    if d.dur.phase = .journal ∧ d.dur.flush.isEmpty ∧ d.cleanSent ∧ (allBkps.all fun b => !d.bkps[b].cleanWait) then d.journalEnd
    else d

/-- GPF_PHASE1_RESPONSE. -/
def gpf1 (d : Data) (b : BkpId) (err : Bool) : Data :=
  if d.dur.phase = .persist ∧ d.bkps[b].gpf = .phase1 then
    let d := if err then d.persistFail b else d
    d.modBkp b fun x => { x with gpf := .gotPhase1 }
  else d

/-- GPF_PHASE2_RESPONSE: of Persist, or of the flush of a journal copy. -/
def gpf2 (d : Data) (b : BkpId) (err : Bool) : Data :=
  if d.dur.phase = .persist ∧ d.bkps[b].gpf = .phase2 then
    let d := if err then d.persistFail b else d
    d.modBkp b fun x => { x with gpf := .done }
  else if d.dur.flush.any fun x => x.1 == b then
    let d := if err then d.gpfFailed b else d
    d.modDur fun u => { u with flush := u.flush.filter fun x => x.1 != b }
  else d

/-- SET_SHUTDOWN_STATE_COMPLETE. -/
def shutdownDone (d : Data) (b : BkpId) : Data :=
  if d.bkps[b].cleanWait then d.modBkp b fun x => { x with cleanWait := false, dirtySet := false } else d

/-- RECALL_DEADLINE, DRAIN_DEADLINE, PERSIST_DEADLINE, JOURNAL_DEADLINE. -/
def deadline (d : Data) (p : DurPhase) : Data :=
  if d.dur.phase ≠ p then d
  else
    match p with
    | .recalling => if d.phaseDue 0 then d.recallEnd true else d
    | .drain => if d.phaseDue 1 then d.drainEnd true else d
    | .persist => if d.phaseDue 2 then d.persistEnd true else d
    | .journal =>
      if d.phaseDue 3 then
        let d := if d.cleanSent then d else d.shutdownClean
        d.journalEnd
      else d
    | _ => d

/-- JOURNAL_FLUSH_TIMEOUT: a start-up flush unanswered for 5 ms. -/
def flushTimeout (d : Data) (b : BkpId) : Data :=
  if d.pwr.boot = .flushing ∧ (d.dur.flush.any fun x => x.1 == b && decide (x.2 + ms 5 ≤ d.now)) then d.journalDrop b else d

/-- RECALL goes to the agents that can answer (R234). -/
def recallSend (d : Data) : Data :=
  let up := allAgents.filter fun p => !d.ports[p].iso && linkUp (d.links[aptLink p]).st
  up.foldl (fun (d : Data) p =>
    (d.toAgent p { cls := .snp, op := 4, gaddr := 0 }).modPort p fun x => { x with recalling := true }) d

/-- The domains that a power failure wakes: D2 to D10, D27 and D28 that hold a used resource (R232). -/
def tailWake (d : Data) : Data :=
  let used := allDoms.filter fun i =>
    i.val = 2 || (decide (3 ≤ i.val ∧ i.val ≤ 10) && d.active (Fin.ofNat 8 (i.val - 3))) ||
      ((i.val = 27 || i.val = 28) && d.usedBkps.any fun b => bkpDom b == i)
  let wake := fun (v : Vector DomSt 30) (i : Fin 30) =>
    match v[i] with
    | .reefed => v.set i (.waking d.now)
    | .reefing t _ => v.set i (.reefing t true)
    | _ => v
  d.modPwr fun p => { p with dom := used.foldl wake p.dom }

/-- A write-buffer entry whose DUR bit is 0 is discarded at TR; ways that drained through it are done (R232). -/
def dropVolatile (d : Data) (n : SliceId) : Data :=
  let gone := d.slices[n].wb.filter fun e => !e.dur
  let d := d.modSlice n fun s => { s with wb := (s.wb.filter (·.dur)).map fun e => { e with issued := true } }
  gone.foldl (fun (d : Data) e => if e.kind = .vic then d.drainCheck n (lineOf e.ga) else d) d

/-- The sequence starts after RDY (R232). -/
def failStart (d : Data) : Data :=
  let e := d.dur.e
  let rv := d.dur.rv
  let d := d.modDur fun u =>
    { u with tr := some d.now, trSec := d.timeSec, trNs := d.timeNsec, trFlag := d.tflag, eTR := e, rvTR := rv, bTR := d.budget,
             phase := .recalling, phEnd := [], agUnans := 0, loss := [], limits := 0, gpfFail := 0, lateDisc := 0, poisoned := 0, sealAbort := 0 }
  let d := allBkps.foldl (fun (d : Data) b => d.modBkp b fun x => { x with acked := [], gpf := .idle }) d
  let d := d.sealStop
  let d := allSlices.foldl (fun (d : Data) n => (d.modSlice n fun s => { s with mnt := [] }).dropVolatile n) { d with mnts := [] }
  ((d.evDur 0).tailWake.recallSend).ledgerSettle

/-- A power failure before RDY: PFD at once and no journal (R238). -/
def failEarly (d : Data) : Data :=
  let d := allBkps.foldl (fun (d : Data) b => if d.bkps[b].dirtySet then d.modBkp b fun x => { x with cleanWait := true } else d) d
  let d := (d.modDur fun u => { u with tr := some d.now, phase := .done, doneAt := some d.now }).ledgerSettle
  ((d.evDur 0).modPwr fun p => { p with pfd := true, boot := .stopped }).evDur 7

end Data

end Sys2Proof.Machine
end

