-- ==== Sys2Proof/Machine/Pairs.lean ====
section
/-!
DEFINITION. The pair (R379 to R394): states, witness, heartbeats, mirroring, takeover, handover and handback, and the
census that rebuilds a directory (R395, R396).
-/

namespace Sys2Proof.Machine

/-- SHD_STAT.STATE. -/
def PairSt.num : PairSt → Nat
  | .unpaired => 0
  | .wait => 1
  | .paired => 2
  | .detached => 3
  | .taken => 4
  | .yielded => 5
  | .join => 6
  | .mismatch => 7

namespace Data

/-! ## Items the device sends (R380, R382) -/

def pairId (d : Data) : Word := match d.rig with | some r => r.pairId | none => 0

/-- SUM: the CRC-32 over the stored CRC fields of every section except PAIR (R380). -/
def shroudSum (d : Data) : Word :=
  match d.rig with
  | some r => crc32 ((r.secs.filter fun s => s.1 ≠ 8).flatMap fun s => leBytes 4 s.2.2.2)
  | none => 0

def sendHello (d : Data) : Data := d.shdSend (.hello d.member (BitVec.ofNat 3 d.pair.st.num) d.pairId d.shroudSum)

/-- HB with the next HBSEQ (R389). -/
def sendHb (d : Data) : Data :=
  let p := d.pair
  let d := d.shdSend (.hb p.hbSeq (BitVec.ofNat 3 p.st.num) d.dur.tr.isSome p.msync (d.reg Reg.durBudget))
  d.modPair fun p => { p with hbSeq := p.hbSeq + 1, hbSent := d.now }

/-! ## The mirror and the shadow (R386 to R388) -/

/-- Discards every mirror and shadow entry held for the partner. -/
def mirrorDiscard (d : Data) : Data :=
  let d := d.modStore fun s => { s with cw := s.cw.filter fun x => decide (x.1 % pcCw < areaBase .mirror) }
  d.modPair fun p => { p with entries := 0, shadow := [], drainOut := [] }

/-- MIR items are processed. -/
def mirrorOn (d : Data) : Bool := d.pair.st == .paired && !d.pair.mirrorIgn

/-- MWR. -/
def mwrRecv (d : Data) (ga : Nat) (poison : Bool) (g : Gran) : Data :=
  if !d.mirrorOn then d
  else
    let d := d.tally 507
    match d.mirWrite ga g poison with
    | (d, true) => d
    | (d, false) => d.shdSend (.mfull (BitVec.ofNat 36 ga))

/-- MCLR. -/
def mclrRecv (d : Data) (ga : Nat) : Data := if d.mirrorOn then (d.mirClear ga).1 else d

/-- Index of a shadow entry. -/
def shadowKey (src : SliceId) (entry : Nat) : Nat := src.val * 64 + entry

/-- SWR. -/
def swrRecv (d : Data) (src : SliceId) (entry : Nat) (ga : Nat) (be : ByteEn) (g : Gran) (poison : Bool) (seq : BitVec 6) : Data :=
  if !d.mirrorOn then d
  else
    let k := shadowKey src entry
    let old := SMap.get {} d.pair.shadow k
    let born := if old.valid ∧ old.seq = seq then old.born else d.seq
    let e : Shadow := { ga := ga, be := be, data := g, poison := poison, seq := seq, born := born, valid := true }
    { d with seq := d.seq + 1 }.modPair fun p => { p with shadow := SMap.set {} p.shadow k e }

/-- SCLR. -/
def sclrRecv (d : Data) (src : SliceId) (entry : Nat) : Data :=
  if d.mirrorOn then d.modPair fun p => { p with shadow := SMap.set {} p.shadow (shadowKey src entry) {} } else d

/-- MRD (R388). -/
def mrdRecv (d : Data) (ga : Nat) (tag : Byte) : Data :=
  if !d.mirrorOn then d
  else
    match d.mirRead ga with
    | (d, some (g, p)) => d.shdSend (.mdat (BitVec.ofNat 36 ga) p true tag g)
    | (d, none) => d.shdSend (.mdat (BitVec.ofNat 36 ga) false false tag 0)

/-- The end of a mirror read: the granule restored, or poisoned by row 4 of R263, and its waiters readmitted. -/
def mirrorReadEnd (d : Data) (tag : Byte) (x : Option (Gran × Bool)) : Data :=
  match d.pair.reads3.find? fun r => r.1 == tag with
  | none => d
  | some r =>
    let n := r.2.2.1
    let ga := r.2.2.2
    let d := d.modPair fun p => { p with reads3 := p.reads3.filter fun y => y.1 != tag }
    let d := match d.hitWay n (lineOf ga) with
      | none => d
      | some w =>
        let k := frameKey n (setOf (lineOf ga)) w (granIn ga)
        match cwDecode (d.cwGet k) with
        | .bad old =>
          match x with
          | some (g, p) => (d.granPut (some n) k g p).stRecovered k 1
          | none => d.stPoisoned (some n) k old
        | _ => d
    let d := if x.isNone then d.evShd 10 else d
    d.wake n fun l => l == .onMirror tag

/-- MDAT. -/
def mdatRecv (d : Data) (ga : Nat) (poison hit : Bool) (tag : Byte) (g : Gran) : Data :=
  if d.pair.reads3.any fun r => r.1 == tag && r.2.2.2 == ga then d.mirrorReadEnd tag (if hit then some (g, poison) else none) else d

/-- MIRROR_READ_TIMEOUT. -/
def mirrorReadTimeout (d : Data) (tag : Byte) : Data :=
  if d.pair.reads3.any fun r => r.1 == tag && decide (r.2.1 + us 20 ≤ d.now) then d.mirrorReadEnd tag none else d

/-- MFULL: the sector is to be cleaned if it is still dirty (R386). -/
def mfullRecv (d : Data) (ga : Nat) : Data :=
  let d := (d.fldCnt Reg.shdMfullCnt 0 32 1).evShd 9
  let n := d.homeOf ga
  match d.presentWay n ga with
  | some w =>
    if (d.tagEnt n (setOf (lineOf ga)) w).sd.getLsbD (secIn ga) then
      d.modSlice n fun s => { s with mfull := if s.mfull.contains (secOf ga) then s.mfull else s.mfull.concat (secOf ga) }
    else d
  | none => d

/-- Resynchronisation of the mirror starts: every slice walks its dirty maps (R386). -/
def resyncStart (d : Data) : Data :=
  let d := d.modPair fun p => { p with msync := false }
  (d.serving).foldl (fun (d : Data) n => d.modSlice n fun s => { s with resync := some 0 }) d

/-- MIRROR_RESYNC_STEP: one set of the dirty maps, and after the last set the open durable WT and NA entries. -/
def resyncTry (d : Data) (n : SliceId) : Pass Data :=
  match d.slices[n].resync with
  | none => .ok d
  | some c =>
    match minBy id ((d.slices[n].maps.toList.flatten).filter fun s => decide (c ≤ s)) with
    | some set =>
      let d := d.modSlice n fun s => { s with resync := some (set + 1) }
      (List.range 16).foldlM (fun (d : Data) w =>
        let t := d.tagEnt n set w
        let line := d.wayLine n set w
        if (t.st = .valid ∨ t.st = .draining) ∧ d.durable (line * 32) ∧ mirrorIn d.regions (line * 32) then
          ((List.range 32).filter fun g => t.sd.getLsbD (g / 2)).foldlM (fun (d : Data) g => do
            let (d, x, p) ← d.frameRead n set w g
            pure (d.mwrSend (line * 32 + g) x p)) d
        else .ok d) d
    | none =>
      let d := (d.slices[n].wb.filter fun e => wbOpen e && e.dur).foldl (fun d e => d.swrSend n e) d
      let d := d.modSlice n fun s => { s with resync := none }
      .ok (if allSlices.any fun m => d.slices[m].resync.isSome then d else d.modPair fun p => { p with msync := true })

def resyncStep (d : Data) (n : SliceId) (old : Option Nat) : Data := d.enginePass n 7 none old (d.resyncTry n)

/-- The next mirror set with an entry to drain, from `drainNext` upward and around (R392). -/
def drainSet (d : Data) : Option (List Nat) :=
  let gas := d.mirrorGas.filter fun ga => !d.pair.drainOut.any fun x => x.1 == ga && x.2
  let sets := (gas.map mirSet)
  let pick := match minBy id (sets.filter fun s => decide (d.pair.drainNext ≤ s)) with
    | some s => some s
    | none => minBy id sets
  pick.map fun s => gas.filter fun ga => mirSet ga == s

/-- MIRROR_DRAIN_STEP: the valid entries of one set issue as writes. -/
def drainStep (d : Data) (n : SliceId) (_ : Option Nat) : Data :=
  if !d.pair.mirrorUse ∨ !d.mayWrite then d
  else
    match d.drainSet with
    | none => d
    | some gas =>
      let gas := gas.filter fun ga => !d.bkpFailed ga
      let d := gas.foldl (fun (d : Data) ga => d.pmcBkp (d.bkpOf ga) 1) d
      (d.pmcSlc n 1).modPair fun p =>
        { p with drainNext := (gas.map mirSet).headD p.drainNext + 1, drainOut := p.drainOut ++ gas.map fun ga => (ga, true) }

/-- The oldest mirror drain write is acknowledged: the entry is invalidated and credited, unless a write has merged
into it since it issued. -/
def drainAck (d : Data) : Data :=
  match d.pair.drainOut with
  | [] => d
  | (ga, live) :: rest =>
    let d := (d.modPair fun p => { p with drainOut := rest }).ackCount ga
    if !live then d
    else
      match d.mirClear ga with
      | (d, true) => (d.credit 1).ledgerSettle
      | (d, false) => d

/-! ## Census (R395, R396) -/

/-- CN_END on a marked entry (entry 117). -/
def cnEnd (d : Data) (n : SliceId) (ga : Nat) : Pass Data :=
  let (e, loc) := d.lookup n ga
  let c : Ctx := { n := n, ga := ga, p12 := true, req := none, census := true, cur := 14, c := d.conds ga e none none 0 none none }
  d.runPass c { d := d, e := e, loc := loc } evCnEnd

/-- The granules of a slice that carry the census mark on die or in the spill buffer. -/
def cnMarked (d : Data) (n : SliceId) : List Nat :=
  ((d.slices[n].dir.filter fun x => x.2.cns).map fun x => x.2.ga) ++ ((d.slices[n].spill.filter fun x => x.e.cns).map fun x => x.e.ga)

/-- Opens the census of a failed member or of a faulty slice. -/
def censusBegin (d : Data) (kind : Bool) (slice : SliceId) (buckets : List Nat) : Data :=
  let d := d.censusOpen kind (if kind then d.member else !d.member) slice.val buckets
  d.serving.foldl (fun (d : Data) n =>
    let d := if kind then d else d.evSlc n 25
    d.modSlice n fun s => { s with cnsOpen := some d.pair.cnum }) (if kind then d.evSlc slice 25 else d)

/-- The census closes: CN_END, and the walk of the backstop where marks stand there. -/
def censusClose (d : Data) : Data :=
  match d.pair.census with
  | none => d
  | some c =>
    let d := allSlices.foldl (fun (d : Data) n =>
      if d.slices[n].cnsOpen.isNone then d
      else
        let d := (d.cnMarked n).foldl (fun (d : Data) ga => d.must n (d.cnEnd n ga)) d
        d.modSlice n fun s => { s with cnsOpen := none, cnsWalk := if 0 < s.cnsCnt then some 0 else none }) d
    let d := allAgents.foldl (fun (d : Data) p => d.modPort p fun x => { x with census := none }) d
    let d := d.modPair fun p => { p with census := none, foDone := p.foDone || !c.kind }
    if c.kind then d.modSvc fun x => { x with cnsDone := setBit x.cnsDone (bits c.desc.toNat 10 3) true } else d

/-- Opens and closes censuses as their conditions come (R396). -/
def censusSettle (d : Data) : Data :=
  let d := match d.pair.census with
    | some c => if c.left = 0 then d.censusClose else d
    | none => d
  if d.pair.census.isSome ∨ (allSlices.any fun n => d.slices[n].cnsWalk.isSome) then d
  else if d.pair.foNeed then
    let bs := (List.range 256).filter fun b => (d.ilvAt b).getLsbD 3 != d.member
    ((d.modPair fun p => { p with foNeed := false }).censusBegin false 0 bs)
  else
    match allSlices.find? fun n => d.svc.need.getLsbD n.val with
    | some n => (d.modSvc fun x => { x with need := setBit x.need n.val false }).censusBegin true n d.svc.share[n]
    | none => d

/-- CENSUS_LIMIT_EXPIRY. -/
def censusLimit (d : Data) : Data :=
  match d.pair.census with
  | none => d
  | some c =>
    if c.start + us (10 * act1 (d.fld Reg.shdCfg 8 8)) ≤ d.now then
      (((agents c.left).foldl (fun d p => d.isolate p) d).evShd 14).censusClose
    else d

/-- CENSUS_CLOSE_WALK_STEP: the next occupied backstop set loses its marks. -/
def censusWalk (d : Data) (n : SliceId) (_ : Option Nat) : Data :=
  match d.slices[n].cnsWalk with
  | none => d
  | some c =>
    let d := d.pmcSlc n 1
    match minBy id ((d.bstSets n).filter fun b => decide (c ≤ b)) with
    | none => d.modSlice n fun s => { s with cnsWalk := none, cnsCnt := 0 }
    | some b =>
      match d.bstRead n b with
      | (d, none) => d.sliceFault n
      | (d, some es) =>
        let d := if es.any fun e => e.cns then d.bstWrite n b es (es.map fun e => { e with cns := false }) else d
        d.modSlice n fun s => { s with cnsWalk := some (b + 1) }

/-! ## The half of a handover or handback (R394) -/

/-- The FENCED bits of buckets that a slice fault still holds stay. -/
def faultFenced (d : Data) (b : Nat) : Bool :=
  allSlices.any fun n => d.svc.fault.getLsbD n.val && !d.svc.resumed.getLsbD n.val && d.svc.share[n].contains b

/-- The half of a handover or handback: the giver's own buckets, or those that the rig gives the partner. -/
def handHalf (d : Data) (back : Bool) : List Nat :=
  match d.rig with
  | some r => (List.range 256).filter fun b => (r.ilv.getD b 0).getLsbD 3 == (if back then !r.member else r.member)
  | none => []

def inHalf (bs : List Nat) (ga : Nat) : Bool := bs.contains (bucketOf (lineOf ga))

/-- A handover or handback starts: the half is fenced (R394). -/
def handStart (d : Data) (back : Bool) : Data :=
  let bs := d.handHalf back
  let d := d.ilvMod (fun b _ => bs.contains b) fun _ e => e ||| 0x10
  (d.modPair fun p => { p with hand := some { giver := true, back := back } }).evShd 12

/-- Removes the entry of a granule wherever it stands. -/
def dirRemove (d : Data) (n : SliceId) (ga : Nat) : Data :=
  match d.dirFind n ga with
  | some k => d.dirPut n k {}
  | none =>
    if d.slices[n].spill.any fun x => x.e.ga == ga then d.modSlice n fun s => { s with spill := s.spill.filter fun x => x.e.ga != ga }
    else
      match d.bstRead n (bsetOf ga) with
      | (d, some es) =>
        if es.any fun e => e.base != .i && e.ga == ga then
          d.bstWrite n (bsetOf ga) es (es.map fun e => if e.base != .i && e.ga == ga then {} else e)
        else d
      | (d, none) => d.sliceFault n

/-- Installs an entry received or moved, charging its LCH. -/
def dirInstall (d : Data) (n : SliceId) (e : DirEnt) (pay : Bool) : Data :=
  let d := if pay && e.lch then d.charge 1 else d
  match d.dirTake n e.ga with
  | .ok (d, k) => d.dirPut n k { e with pin := false }
  | .error _ => d.spillPut n { e with pin := false }

/-- A handover or handback is abandoned before step 5 (R394). -/
def handAbandon (d : Data) : Data :=
  match d.pair.hand with
  | none => d
  | some h =>
    let d := if h.giver then
        let bs := d.handHalf h.back
        let d := d.ilvMod (fun b _ => bs.contains b && !d.faultFenced b) fun _ e => e &&& 0xEF
        let mine := (d.mnts.filter fun t => t.owner == .handover || t.owner == .handback).map (·.id)
        let d := allSlices.foldl (fun (d : Data) n => d.modSlice n fun s => { s with mnt := s.mnt.filter fun o => !mine.contains o.id }) d
        { d with mnts := d.mnts.filter fun t => !mine.contains t.id }
      else
        h.installed.foldl (fun (d : Data) x =>
          let d := if (d.lookup x.1 x.2).1.lch then d.credit 1 else d
          d.dirRemove x.1 x.2) d
    ((d.modPair fun p => { p with hand := none }).evShd 13).ledgerSettle

/-! ## Takeover (R390 to R392) -/

/-- The shadow entries in order of slice and SEQ: merged into a mirror entry, or issued to backing (R392). -/
def shadowApply (d : Data) : Data :=
  let es := d.pair.shadow.filter fun x => x.2.valid
  let ordered := (List.range 8).flatMap fun s => (es.filter fun x => x.1 / 64 = s).mergeSort fun a b => decide (a.2.born ≤ b.2.born)
  let d := ordered.foldl (fun (d : Data) x =>
    let e := x.2
    match d.mirRead e.ga with
    | (d, some (old, p)) =>
      ((d.mirWrite e.ga (mergeBytes old e.data e.be) (e.poison || (p && e.be != beAll))).1).credit 1
    | (d, none) => (d.pmcBkp (d.bkpOf e.ga) 1).modPair fun p => { p with shadowOut := p.shadowOut.concat e.ga }) d
  d.modPair fun p => { p with shadow := [] }

/-- The device begins failover: every operation's part in every slice is abandoned (R288). -/
def mntAbandon (d : Data) : Data :=
  allSlices.foldl (fun (d : Data) n => d.modSlice n fun s => { s with mnt := [] })
    { d with mnts := d.mnts.map fun t => if t.left.isEmpty then t else { t with left := [], abort := true } }

/-- The partner's half is taken over from the fence step, with or without its mirror. A handover or handback ends with the partner:
it has no one to end with (assumption 80). -/
def takeover (d : Data) (usable : Bool) (h : Nat) : Data :=
  let d := d.handAbandon.mntAbandon.reloadCut
  let d := d.ilvMod (fun _ e => e.getLsbD 3 != d.member) fun _ e => e ||| 0x10
  let d := d.modPair fun p => { p with st := .taken, failover := some h, foNeed := true, foDone := false, out := [], mirrorUse := usable, deciding := false, reads := [], msync := false }
  if !usable then d.mirrorDiscard
  else
    let b := satAdd 0xFFFFFFFF (d.reg Reg.durBudget).toNat d.pair.pBudget.toNat
    let d := d.regSet Reg.durBudget (BitVec.ofNat 32 b)
    let k := d.pair.entries + (d.pair.shadow.filter fun x => x.2.valid).length
    ((d.charge k).shadowApply).ledgerSettle

/-- The oldest write of the shroud unit's shadow entries is acknowledged. -/
def shadowAck (d : Data) : Data :=
  match d.pair.shadowOut with
  | [] => d
  | ga :: rest => (((d.modPair fun p => { p with shadowOut := rest }).ackCount ga).credit 1).ledgerSettle

/-- Resume of a takeover: the half is this member's, and its held REQs go on (R391). -/
def foResume (d : Data) : Data :=
  match d.pair.failover with
  | none => d
  | some h =>
    let me := d.member
    let d := d.ilvMod (fun _ e => e.getLsbD 3 != me) fun b e =>
      let e := if d.faultFenced b then e else e &&& 0xEF
      setBit e 3 me
    let us_ := (d.now - h) / 1600
    let d := d.modPair fun p => { p with failover := none, foNeed := false, foDone := false, takenOver := true, foUs := min 0xFFFF us_, foKind := false }
    d.evShd 6

/-- FAILOVER_RESUME: after the census and the acknowledgements of the shadow writes. -/
def foResumeDue (d : Data) : Data :=
  if d.pair.failover.isSome ∧ d.pair.foDone ∧ d.pair.shadowOut.isEmpty then d.foResume else d

/-- DETACHED is entered: mirror and shadow contents are discarded. -/
def detach (d : Data) : Data :=
  let d := d.handAbandon.mirrorDiscard
  (d.modPair fun p => { p with st := .detached, out := [], msync := false, deciding := false, reads := [], detSame := 0, detLast := none }).evShd 8

/-! ## The witness (R383, R384) -/

/-- Port-local address of the witness of a member. -/
def witAddr (d : Data) (b : BkpId) (member : Bool) : Nat := d.capGib b * 2 ^ 30 + 8 * 2 ^ 20 + 64 * b2n member

/-- The witness granule. -/
def witGran (d : Data) (p : Pair) : Gran :=
  BitVec.ofNat 512 (p.wcnt.toNat + at_ p.st.num 64 + at_ (b2n d.member) 72 + at_ d.pairId.toNat 96)

/-- Writes the witness granule: WCNT advances. -/
def witWrite (d : Data) : Data :=
  match d.dur.jA with
  | none => d
  | some b =>
    if d.dur.tr.isSome then d
    else
      d.modPair fun p =>
        let p := { p with wcnt := p.wcnt + 1, witAt := d.now, witSent := some (p.witSent.getD d.now) }
        { p with witLast := some (b, d.witAddr b d.member, d.witGran p) }

/-- YIELDED is entered: every transaction is abandoned, and no backing write goes out any more (R382). -/
def yield_ (d : Data) : Data :=
  let d := allSlices.foldl (fun (d : Data) n =>
    let rsv := (d.slices[n].htes.map (·.rsv)).sum
    let d := (d.samplesCut n fun _ => true).modDur fun u => { u with rv := u.rv - rsv }
    d.modSlice n fun s => { s with htes := [], waiters := [], mt := [], side := Vector.replicate 32 {}, stRd := [], fetches := [], owed := [], pf := [] }) d.handAbandon
  let d := (d.modPair fun p => { p with st := .yielded, out := [], deciding := false, reads := [], failover := none, foNeed := false }).evShd 7
  d.witWrite

/-- The decision of two reads (R384): `some true` dead, `some false` alive, nothing unknown. -/
def witDecision (d : Data) (l : List WitRead) : Option Bool :=
  match l with
  | [a, b] =>
    if a.ok && b.ok && a.pairId == d.pairId && b.pairId == d.pairId then some (a.wcnt == b.wcnt || b.pstate == 5) else none
  | _ => none

/-- Acts on a decision that is due. -/
def decide_ (d : Data) : Data :=
  if !d.pair.deciding ∨ d.pair.witOpen ≠ 0 then d
  else
    let dead := d.witDecision d.pair.reads == some true
    match d.pair.st with
    | .paired => if dead then d.takeover (d.pair.pMsync && !d.pair.pFail && !d.pair.mirrorIgn) d.pair.hbAt else d.detach
    | .wait => if dead then d.takeover false d.now else d.detach
    | _ => d.modPair fun p => { p with deciding := false, reads := [] }

/-- A read of the partner's witness is issued; without a journal port it counts as failed. -/
def witReadIssue (d : Data) : Data :=
  if d.dur.jA.isNone then d.modPair fun p => { p with reads := p.reads.concat ⟨false, 0, 0, 0⟩, wit := false }
  else d.modPair fun p => { p with witOpen := p.witOpen + 1 }

/-- WITNESS_READ_COMPLETE. -/
def witReadDone (d : Data) (r : WitRead) : Data :=
  if d.pair.st = .detached then
    let good := r.ok && r.pairId == d.pairId
    let same := good && (match d.pair.detLast with | some l => l.wcnt == r.wcnt | none => false)
    let k := if same then d.pair.detSame + 1 else if good then 1 else 0
    let d := d.modPair fun p => { p with detSame := k, detLast := if good then some r else none, wit := r.ok }
    if 3 ≤ k then d.takeover false d.now else d
  else if d.pair.witOpen = 0 then d
  else (d.modPair fun p => { p with witOpen := p.witOpen - 1, reads := p.reads.concat r, wit := r.ok }).decide_

/-! ## Heartbeats and HELLO (R382, R389, R390) -/

/-- PAIRED is entered. -/
def pairUp (d : Data) (sync : Bool) : Data :=
  (d.modPair fun p => { p with st := .paired, hbAt := d.now, miss := 0, msync := sync, pFail := false, pfailRx := false, mirrorIgn := false, witOpen := 0, reads := [], deciding := false }).evShd 2

/-- Step 5 at the giver: the partner has the half. -/
def handDone (d : Data) (h : Hand) : Data :=
  let bs := d.handHalf h.back
  let d := h.sent.foldl (fun (d : Data) x => (if x.2.lch then d.credit 1 else d).dirRemove x.1 x.2.ga) d
  let d := d.ilvMod (fun b _ => bs.contains b) fun b e => setBit (if d.faultFenced b then e else e &&& 0xEF) 3 (!d.member)
  let d := (d.modPair fun p => { p with hand := none, st := if h.back then .paired else .yielded, takenOver := false, mirrorUse := false }).evShd 13
  let d := if h.back then d.pairUp true else (d.evShd 7).witWrite
  d.ledgerSettle

/-- Nothing of the half is open in any slice, and no REQ that sampled its bucket before the fence is on its way (R21). -/
def halfQuiet (d : Data) (bs : List Nat) : Bool :=
  (allAgents.all fun p => d.ports[p].held.all fun r => !(r.dst.isSome && inHalf bs r.ga)) &&
  allSlices.all fun n =>
    let s := d.slices[n]
    s.htes.all (fun h => !inHalf bs h.ga) && s.waiters.all (fun w => !inHalf bs w.kind.ga) && s.fetches.all fun f => !inHalf bs f.ga

/-- Lines and write-buffer entries of the half that the slices still hold. -/
def halfLeft (d : Data) (bs : List Nat) : Bool :=
  allSlices.any fun n =>
    let s := d.slices[n]
    (s.tags.any fun x => x.2.st != .inv && bs.contains (bucketOf (lineAt x.2.tag (x.1 / 16)))) || s.wb.any fun e => inHalf bs e.ga

/-- Runs clean-and-invalidate over the lines of the buckets in the slices, until none is left: whether it is done. -/
def cleanOut (d : Data) (own : MntOwner) (slices : List SliceId) (bs : List Nat) : Data × Bool :=
  if d.mnts.any fun t => t.owner == own && !t.left.isEmpty then (d, false)
  else
    let d := { d with mnts := d.mnts.filter fun t => t.owner != own }
    if !d.halfQuiet bs then (d, false)
    else if d.halfLeft bs then (d.mntAccept own slices 2 0 0 (2 ^ 31) 0 0 (some bs), false)
    else (d, true)

/-- Steps 2 and 3 at the giver: once its lines and mirror entries are gone, every entry of the half is sent (R394). -/
def handSettle (d : Data) : Data :=
  match d.pair.hand with
  | none => d
  | some h =>
    let st := d.links[shdLink].st
    if d.dur.tr.isSome ∨ (st ≠ .active ∧ st ≠ .recover) then d.handAbandon
    else if !h.giver ∨ h.ended then d
    else
      let bs := d.handHalf h.back
      match d.cleanOut (if h.back then .handback else .handover) d.serving bs with
      | (d, false) => d
      | (d, true) =>
        if h.back && d.pair.entries != 0 then d
        else
          let d := d.serving.foldl (fun (d : Data) n => d.dirCheck n) d
          let es := d.serving.flatMap fun n => ((d.dirAll n).filter fun e => inHalf bs e.ga).map fun e => (n, e)
          let d := es.foldl (fun (d : Data) x => d.shdSend (.dxf (BitVec.ofNat 64 (bstEnc { x.2 with cns := false })))) d
          let d := d.shdSend (.dxfEnd (BitVec.ofNat 32 es.length))
          d.modPair fun p => { p with hand := some { h with sent := es, ended := true } }

/-- DXF. -/
def dxfRecv (d : Data) (e : Dword) : Data :=
  if d.pair.st ≠ .paired ∧ d.pair.st ≠ .join then d
  else
    let h : Hand := d.pair.hand.getD { giver := false, back := d.pair.st == .join }
    if h.giver then d
    else
      let x := bstDec e.toNat
      let n := d.homeOf x.ga
      let d := d.dirInstall n x true
      (d.modPair fun p => { p with hand := some { h with installed := h.installed.concat (n, x.ga), count := h.count + 1 } }).ledgerSettle

/-- DXF_END: the count agrees, and the receiver takes the half (R394). -/
def dxfEndRecv (d : Data) (k : Nat) : Data :=
  if d.pair.st ≠ .paired ∧ d.pair.st ≠ .join then d
  else
    let h : Hand := d.pair.hand.getD { giver := false, back := d.pair.st == .join }
    if h.giver ∨ h.count ≠ k then d
    else
      let me := d.member
      let d := d.modPair fun p => { p with hand := none }
      let d := if d.pair.st = .join then d.pairUp true
        else
          let d := d.ilvMod (fun _ _ => true) fun _ e => setBit e 3 me
          d.modPair fun p => { p with st := .taken, takenOver := true }
      (d.evShd 13).sendHb

/-- HELLO of the partner (R382). -/
def helloRecv (d : Data) (member : Bool) (pstate : BitVec 3) (pid sum : Word) : Data :=
  if !d.paired then d
  else
    let ok := pid == d.pairId && sum == d.shroudSum && member != d.member
    let d := d.modPair fun p => { p with pst := pstate }
    match d.pair.st with
    | .wait =>
      if !ok then (d.modPair fun p => { p with st := .mismatch }).evShd 3
      else if pstate = 1 ∨ pstate = 2 then (d.pairUp true).sendHello
      else if pstate = 4 then (d.modPair fun p => { p with st := .join }).sendHello
      else d
    | .detached => if ok ∧ d.links[shdLink].st = .active then ((d.pairUp false).resyncStart).sendHello else d
    | .taken =>
      if ok ∧ pstate = 6 ∧ d.flag Reg.shdCfg 16 ∧ d.pair.hand.isNone ∧ d.pair.failover.isNone then d.handStart true else d
    | _ => d

/-- HB of the partner (R388 to R390, R394). -/
def hbRecv (d : Data) (pstate : BitVec 3) (pfail msync : Bool) (budget : Word) : Data :=
  if !d.paired then d
  else
    let first := pfail && !d.pair.pfailRx
    let d := d.modPair fun p => { p with hbAt := d.now, miss := 0, pst := pstate, pFail := pfail, pMsync := msync, pBudget := budget, pfailRx := p.pfailRx || pfail, witOpen := if p.deciding then p.witOpen else 0, reads := if p.deciding then p.reads else [] }
    let d := if first then
        let d := (d.modPair fun p => { p with mirrorIgn := true }).evShd 11
        if d.pair.takenOver then d else d.mirrorDiscard
      else d
    match d.pair.hand with
    | some h =>
      if h.giver ∧ h.ended ∧ pstate.toNat = (if h.back then 2 else 4) then d.handDone h else d
    | none =>
      if d.pair.st = .taken ∧ pstate = 6 ∧ d.flag Reg.shdCfg 16 ∧ d.pair.failover.isNone then d.handStart true else d

/-- HEARTBEAT_MISSED. -/
def hbMissed (d : Data) : Data :=
  if d.pair.st ≠ .paired ∨ 3 ≤ d.pair.miss ∨ d.now < d.pair.hbAt + us (50 * (d.pair.miss + 1)) then d
  else
    let m := d.pair.miss + 1
    let d := ((d.modPair fun p => { p with miss := m }).evShd 4).tally 508
    if m = 1 then (d.modPair fun p => { p with reads := [] }).witReadIssue
    else if m = 3 then ((d.evShd 5).witReadIssue.modPair fun p => { p with deciding := true }).decide_
    else d

/-- HEARTBEAT_SEND: not before PAIRED has been entered. -/
def hbSend (d : Data) : Data :=
  match d.pair.st with
  | .unpaired | .wait | .mismatch => d
  | _ => if d.links[shdLink].st = .active ∧ d.pair.hbSent + us 50 ≤ d.now then d.sendHb else d

/-- WITNESS_WRITE. -/
def witWriteDue (d : Data) : Data :=
  match d.pair.st with
  | .unpaired | .mismatch | .yielded => d
  | _ => if d.pair.witAt + us 50 ≤ d.now then d.witWrite else d

/-- WITNESS_WRITE_TIMEOUT. -/
def witWriteTimeout (d : Data) : Data :=
  match d.pair.witSent with
  | none => d
  | some t =>
    if d.paired ∧ d.pair.st ≠ .yielded ∧ t + us 100 ≤ d.now ∧ (0 < d.pair.miss ∨ d.pair.st = .detached) then d.yield_ else d

/-- WAIT_WITNESS_READ: 100 µs before JOINW. -/
def waitWitRead (d : Data) : Data :=
  let w := ms (act1 (d.fld Reg.shdCfg 0 8))
  if d.pair.st = .wait ∧ d.pair.reads.isEmpty ∧ d.pair.witOpen = 0 ∧ d.pair.waitAt + w ≤ d.now + us 100 then d.witReadIssue else d

/-- JOINW_EXPIRY: the second read, and the decision once it has completed. -/
def joinwExpiry (d : Data) : Data :=
  let w := ms (act1 (d.fld Reg.shdCfg 0 8))
  if d.pair.st = .wait ∧ !d.pair.deciding ∧ d.pair.waitAt + w ≤ d.now then
    (d.witReadIssue.modPair fun p => { p with deciding := true }).decide_
  else d

/-- HANDOVER. -/
def handover (d : Data) : Data :=
  if d.pair.st = .paired ∧ d.pair.hand.isNone ∧ d.dur.tr.isNone then d.handStart false else d

/-- HANDBACK. -/
def handback (d : Data) : Data :=
  if d.pair.st = .taken ∧ d.pair.pst = 6 ∧ d.pair.hand.isNone ∧ d.pair.failover.isNone ∧ d.dur.tr.isNone then d.handStart true else d

/-- What a power failure of this device means to the pair (R388, R394, R399). -/
def pairTr (d : Data) : Data :=
  let d := d.handAbandon
  let d := if d.pair.failover.isSome then
      let d := d.modPair fun p => { p with foLate := true, foNeed := false }
      (if d.pair.census.isSome then d.censusClose else d).foResume
    else d
  let d := d.modPair fun p => { p with mirrorIgn := true }
  if d.pair.takenOver then d else d.mirrorDiscard

end Data

end Sys2Proof.Machine
end

