-- ==== Sys2Proof/Machine/Domains.lean ====
section
/-!
DEFINITION. Power domains as operations (R406 to R410): waking, reefing, what a slice keeps, and the backing-port step
of start-up (R227).
-/

namespace Sys2Proof.Machine

namespace Data

/-! ## Domains -/

def domAt (d : Data) (i : Fin 30) : DomSt := d.pwr.dom[i]
def domSet (d : Data) (i : Fin 30) (s : DomSt) : Data := d.modPwr fun p => { p with dom := p.dom.set i s }

/-- POWER entry of a domain (R47). -/
def powerWord (d : Data) (i : Fin 30) : Nat :=
  match d.rig with
  | some r => (r.power.getD i.val 0).toNat
  | none => 0

/-- The slice, port or backing port of a domain. -/
def domSlice (i : Fin 30) : Option SliceId := if 3 ≤ i.val ∧ i.val ≤ 10 then some (Fin.ofNat 8 (i.val - 3)) else none
def domAgent (i : Fin 30) : Option Agent := if 11 ≤ i.val ∧ i.val ≤ 26 then some (Fin.ofNat 16 (i.val - 11)) else none
def domBkps (i : Fin 30) : List BkpId := if i.val = 27 then [0, 1] else if i.val = 28 then [2, 3] else []

/-- The rig uses a domain: those of inactive slices and ports stay reefed (R47, R408). -/
def domUsed (d : Data) (i : Fin 30) : Bool :=
  match domSlice i, domAgent i with
  | some n, _ => d.active n
  | _, some p => d.portEn p
  | _, _ => if i.val = 29 then d.paired else if 27 ≤ i.val then (domBkps i).any d.bkpUsed else true

/-- The domain that another one needs (R409). -/
def domNeeds (i : Fin 30) : Option (Fin 30) :=
  if (3 ≤ i.val ∧ i.val ≤ 10) ∨ i.val = 27 ∨ i.val = 28 then some 2 else none

/-- A wake source of one domain: a reefed domain begins to wake, one that is being reefed wakes when the reef ends, and one whose
reef was decided in this cycle stays up (R410). A domain whose PLL has failed wakes no more (R412). -/
def domWake1 (d : Data) (i : Fin 30) : Data :=
  if d.pwr.pllBad.getLsbD i.val then d
  else match d.domAt i with
  | .reefed => d.domSet i (.waking d.now)
  | .reefing t _ => d.domSet i (if t = d.now then .up else .reefing t true)
  | .up => d.modPwr fun p => { p with wokeAt := p.wokeAt.set i (some d.now) }
  | .waking _ => d

/-- A wake source: the domain and the one that it needs (R409). -/
def domWake (d : Data) (i : Fin 30) : Data :=
  if !d.domUsed i then d
  else match domNeeds i with
  | some j => (d.domWake1 j).domWake1 i
  | none => d.domWake1 i

/-- The pseudo-channels are out of self-refresh (R408). -/
def storeAwake (d : Data) : Bool :=
  (d.pwr.boot == .flushing || d.pwr.boot == .rdy) &&
    ((allSlices.any fun n => d.domAt (slcDom n) != .reefed) || d.pair.st == .paired || d.pair.st == .detached || d.pair.st == .taken ||
      d.flag Reg.pwrKeep 30)

/-- PWR_DOM_CTL.GO has acted on a domain. -/
def domCtl (d : Data) (i : Nat) : Data := d.modPwr fun p => { p with ctl := some i }

/-- The power manager decides to reef a domain; a wake source of the same cycle leaves it up (R407, R410). -/
def domReef (d : Data) (i : Fin 30) : Data :=
  if d.domAt i = .up ∧ d.pwr.wokeAt[i] ≠ some d.now then d.domSet i (.reefing d.now false) else d

/-! ## What a slice keeps -/

end Data

/-- What a reefed slice keeps (R406): tag entries, set words, directory, spill buffer, BOCC, hold table; dirty maps stand
in D2. -/
def Slice.reefed (s : Slice) : Slice :=
  { tags := s.tags, sets := s.sets, dir := s.dir, bocc := s.bocc, bstUsed := s.bstUsed, spill := s.spill, holds := s.holds
    wbSeq := s.wbSeq, maps := s.maps, epoch := s.epoch, cdis := s.cdis, cdisAt := s.cdisAt, arb := s.arb, arbAt := s.arbAt, latent := s.latent, arts := s.arts, redirty := s.redirty
    perrGa := s.perrGa, tmoGa := s.tmoGa, mnt := s.mnt }

/-- A slice come back clean (R416): nothing held but the retirement of its ways. -/
def Slice.clean (s : Slice) : Slice :=
  { sets := s.sets.filterMap fun x => if x.2.ret = 0 then none else some (x.1, { ret := x.2.ret })
    cdis := s.cdis, cdisAt := s.cdisAt, perrGa := s.perrGa, tmoGa := s.tmoGa, epoch := s.epoch, arb := s.arb, arbAt := s.arbAt }

namespace Data

/-- The state that a domain loses when its reef ends; of the delivery list the AON keeps the first 64 entries (R319). -/
def domLose (d : Data) (i : Fin 30) : Data :=
  if i.val = 2 then d.modEvt fun e => { e with list := e.list.take 64 }
  else match domSlice i with
  | some n => d.modSlice n Slice.reefed
  | none => d

/-- The codewords of a slice's frames and backstop read as zero. -/
def sliceStoreClear (d : Data) (n : SliceId) : Data :=
  d.modStore fun s => { s with cw := s.cw.filter fun x => !(x.1 / pcCw / 4 == n.val && decide (x.1 % pcCw < areaBase .touch)) }

/-! ## The link step of a backing port (R227) -/

/-- Runs R227 on a port with what its expander reports. -/
def bkpLink (d : Data) (b : BkpId) (e : PortEnv) (mhd : Bool) : Data :=
  let cap := d.capGib b
  if !e.trained then d.bkpFailPort b
  else
    let gib := e.capMib / 1024
    let short := decide (gib < cap)
    let bad := mhd && !e.mhd
    let d := d.modBkp b fun x =>
      { x with rate := e.rate, p2dur := e.p2dur, capMib := e.capMib, capGib := gib, mapGib := min cap gib, capshort := short, mhderr := bad }
    let d := if short || bad then d.evBkp b 5 else d
    if bad then d.bkpFailPort b
    else (d.modBkp b fun x => { x with st := .ready, dirtySet := true, cleanWait := false }).evBkp b 0

/-- PORTp.MHD of the rig (R43). -/
def bkpMhd (d : Data) (b : BkpId) : Bool :=
  match d.rig with
  | some r => (r.back.getD b.val 0).getLsbD 1
  | none => false

end Data

end Sys2Proof.Machine
end

