-- ==== Sys2Proof/Machine/Service.lean ====
section
/-!
DEFINITION. Fault handling and test in service (R397 to R402): salvage and resume of a slice fault, slices taken out and
returned, the assay, the return of an agent and of a backing port, and what a power failure means to these (R399).
-/

namespace Sys2Proof.Machine

namespace Data

/-! ## Salvage (R398) -/

/-- Dirty sectors of the readable ways of a set in a faulty slice: (way, sector). -/
def salvDirty (d : Data) (n : SliceId) (set : Nat) : List (Nat × Nat) :=
  (List.range 16).flatMap fun w =>
    let t := d.tagEnt n set w
    if t.st = .valid then ((List.range 16).filter fun s => t.sd.getLsbD s).map fun s => (w, s) else []

/-- The entry that SLCn_TAG_ERR names as uncorrectable, if it is a tag entry (R89). -/
def salvBad (d : Data) (n : SliceId) : Option (Nat × Nat) :=
  let r := Reg.slcTagErr n.val
  if d.flag r 21 ∧ !d.flag r 19 then some (d.fld r 0 15, d.fld r 15 4) else none

/-- The dirty sectors of a way are lost. -/
def salvLose (d : Data) (n : SliceId) (set way : Nat) : Data :=
  let t := d.tagEnt n set way
  let k := if d.durable (d.wayLine n set way * 32) then popcount t.sd else 0
  let d := d.wayInv n set way
  if k = 0 then d.evSlc n 28 else ((d.credit (2 * k)).fldCnt Reg.topSlcLost 0 32 k).evSlc n 28

/-- The write of a dirty sector to backing: both granules, read as R263 lays down. -/
def salvSector (d : Data) (n : SliceId) (set way sec : Nat) : Pass Data := do
  let (d, _, _) ← d.frameRead n set way (2 * sec)
  let (d, _, _) ← d.frameRead n set way (2 * sec + 1)
  let ga := d.wayLine n set way * 32 + 2 * sec
  let d := (d.pmcBkp (d.bkpOf ga) 1).pmcBkp (d.bkpOf ga) 1
  pure (d.modSlice n fun s => { s with salv := s.salv.map fun x => { x with await := x.await ++ [(set, ga), (set, ga + 1)] } })

/-- The set that salvage takes next: one that a pass waits for, else the next with a dirty sector. -/
def salvSet (d : Data) (n : SliceId) (x : Salvage) : Option Nat :=
  let open_ := fun (set : Nat) => decide (x.next ≤ set) && !x.extra.contains set
  let waited := (allSlices.flatMap fun m => d.slices[m].waiters.filterMap fun w =>
    match w.loc with
    | .retry .salvage =>
      let line := lineOf w.kind.ga
      if d.svc.share[n].contains (bucketOf line) && open_ (setOf line) then some (setOf line) else none
    | _ => none)
  match waited with
  | s :: _ => some s
  | [] => minBy id ((d.slices[n].tags.filter fun t => t.2.sd != 0 && open_ (t.1 / 16)).map fun t => t.1 / 16)

/-- SALVAGE_STEP: once every write-buffer entry has been sent, the next set. -/
def salvStep (d : Data) (n : SliceId) : Data :=
  match d.slices[n].salv with
  | none => d
  | some x =>
    if d.slices[n].wb.any fun e => e.sent.isNone && !d.bkpFailed e.ga then d
    else
      match d.salvSet n x with
      | none => d.modSlice n fun s => { s with salv := some { x with next := 32768 } }
      | some set =>
        let d := match d.salvBad n with
          | some (s, w) => if s = set ∧ (d.tagEnt n set w).sd ≠ 0 then d.salvLose n set w else d
          | none => d
        let dead := ((d.salvDirty n set).filter fun y => d.bkpFailed (d.wayLine n set y.1 * 32)).map (·.1)
        let d := dead.eraseDups.foldl (fun (d : Data) w => d.salvLose n set w) d
        match (d.salvDirty n set).foldlM (fun (d : Data) y => d.salvSector n set y.1 y.2) d with
        | .ok d =>
          let waited := decide (set ≠ (minBy id ((d.slices[n].tags.filter fun t => t.2.sd != 0 && decide (x.next ≤ t.1 / 16)).map fun t => t.1 / 16)).getD set)
          d.modSlice n fun s => { s with salv := s.salv.map fun y =>
            if waited then { y with extra := y.extra.concat set } else { y with next := set + 1 } }
        | .error b => d.readBlock n b

/-- The oldest salvage write of a slice is acknowledged: with both granules of its sector, SD clears and the ledger is
credited. -/
def salvAck (d : Data) (n : SliceId) : Data :=
  match d.slices[n].salv with
  | none => d
  | some x =>
    match x.await with
    | [] => d
    | (_, ga) :: rest =>
      let d := (d.modSlice n fun s => { s with salv := some { x with await := rest } }).ackCount ga
      if rest.any fun y => secOf y.2 = secOf ga then d
      else
        match d.hitWay n (lineOf ga) with
        | none => d
        | some w =>
          let set := setOf (lineOf ga)
          if (d.tagEnt n set w).sd.getLsbD (secIn ga) then
            let d := d.modTag n set w fun t => { t with sd := setBit t.sd (secIn ga) false }
            let d := if d.durable ga then d.credit 2 else d
            ((d.mclrSend (2 * secOf ga)).mclrSend (2 * secOf ga + 1)).ledgerSettle
          else d

/-- Salvage ends: nothing is left to write or to be acknowledged (R398). -/
def salvSettle (d : Data) (n : SliceId) : Data :=
  match d.slices[n].salv with
  | none => d
  | some x =>
    if 32768 ≤ x.next ∧ x.await.isEmpty ∧ d.slices[n].wb.all (fun e => d.bkpFailed e.ga) then
      let d := (d.modSvc fun y => { y with salv := setBit y.salv n.val false }).evSlc n 27
      (d.modSlice n fun s => { s with salv := none, tags := [], sets := s.sets.filterMap fun x => if x.2.ret = 0 then none else some (x.1, { ret := x.2.ret }) }).domReef (slcDom n)
    else d

/-! ## Resume of a slice fault (R397, R399) -/

/-- A bucket that another procedure holds fenced. -/
def otherFenced (d : Data) (b : Nat) : Bool :=
  (d.pair.failover.isSome && (d.ilvAt b).getLsbD 3 != d.member) ||
    (match d.pair.hand with | some h => h.giver && (d.handHalf h.back).contains b | none => false) ||
    (match d.svc.proc with | some (_, n) => d.svc.share[n].contains b | none => false)

/-- The share resumes at its new homes. -/
def slcResume (d : Data) (n : SliceId) : Data :=
  let bs := d.svc.share[n]
  let d := d.modSvc fun x => { x with resumed := setBit x.resumed n.val true }
  let keep := (List.range 256).filter fun b => d.otherFenced b || d.faultFenced b
  let d := d.ilvMod (fun b _ => bs.contains b && !keep.contains b) fun _ e => e &&& 0xEF
  let t := min 0xFFFF ((d.now - d.svc.faultAt) / 1600)
  (d.modPair fun p => { p with foUs := t, foKind := true }).evSlc n 26

/-- SLICE_FAULT_RESUME: after the census and the acknowledgement of the slice's write-buffer entries. -/
def slcResumeDue (d : Data) (n : SliceId) : Data :=
  let x := d.svc
  if x.fault.getLsbD n.val ∧ x.cnsDone.getLsbD n.val ∧ !x.resumed.getLsbD n.val ∧ d.slices[n].wb.all (fun e => d.bkpFailed e.ga) then
    d.slcResume n
  else d

/-- What a power failure means to a slice fault that has not resumed: its census closes and it resumes at once. -/
def svcTr (d : Data) : Data :=
  let open_ := allSlices.filter fun n => d.svc.fault.getLsbD n.val && !d.svc.resumed.getLsbD n.val
  if open_.isEmpty then d
  else
    let d := if d.pair.census.isSome then d.censusClose else d
    open_.foldl (fun (d : Data) n =>
      (d.modSvc fun x => { x with need := setBit x.need n.val false, cnsDone := setBit x.cnsDone n.val true, late := x.late ++ x.share[n] }).slcResume n) d

/-! ## Out of service and back (R400) -/

/-- DRAIN of TOP_SLC_CTL. -/
def slcDrain (d : Data) (n : SliceId) : Data :=
  let d := (d.fldSet Reg.topSlcCtl 0 3 n.val).flagSet Reg.topSlcCtl 3 false
  let settled := !d.svc.fault.getLsbD n.val || (d.svc.resumed.getLsbD n.val && d.slices[n].salv.isNone)
  if !d.active n ∨ d.svc.out.getLsbD n.val ∨ d.svc.proc.isSome ∨ !settled ∨ (d.serving.filter (· != n)).isEmpty ∨ d.dur.tr.isSome ∨ !d.ready then
    d.raise Reg.topSlcCtl 5
  else
    let bs := (List.range 256).filter fun b => (d.ilvAt b).toNat % 8 = n.val
    let d := (d.mntDrop n).reloadCut.ilvMod (fun b _ => bs.contains b) fun _ e => e ||| 0x10
    d.modSvc fun x => { x with proc := some (false, n), share := vmod x.share n fun _ => bs }

/-- RETURN of TOP_SLC_CTL. -/
def slcReturn (d : Data) (n : SliceId) : Data :=
  let d := (d.fldSet Reg.topSlcCtl 0 3 n.val).flagSet Reg.topSlcCtl 3 true
  if !d.svc.out.getLsbD n.val ∨ !d.svc.passed.getLsbD n.val ∨ d.svc.proc.isSome ∨ d.svc.assay = some n ∨ d.dur.tr.isSome then
    d.raise Reg.topSlcCtl 5
  else
    let bs := match d.rig with
      | some r => (List.range 256).filter fun b => (r.ilv.getD b 0).toNat % 8 = n.val
      | none => []
    let d := d.ilvMod (fun b _ => bs.contains b) fun _ e => e ||| 0x10
    (d.modSvc fun x => { x with proc := some (true, n), share := vmod x.share n fun _ => bs }).domWake (slcDom n)

/-- Moves the directory entries of buckets from the slices `src` to their new homes. -/
def dirMove (d : Data) (src : List SliceId) (bs : List Nat) (dst : Nat → SliceId) : Data :=
  let d := src.foldl (fun (d : Data) n => d.dirCheck n) d
  let es := src.flatMap fun n => ((d.dirAll n).filter fun e => inHalf bs e.ga).map fun e => (n, e)
  es.foldl (fun (d : Data) x =>
    let home := dst (bucketOf (lineOf x.2.ga))
    if home = x.1 then d else (d.dirRemove x.1 x.2.ga).dirInstall home x.2 false) d

/-- The last steps of DRAIN and RETURN, once the lines are gone. -/
def procSettle (d : Data) : Data :=
  match d.svc.proc with
  | none => d
  | some (back, n) =>
    if d.dur.tr.isSome then d
    else
      let bs := d.svc.share[n]
      let rest := d.serving.filter (· != n)
      match d.cleanOut (if back then .ret n else .drain n) (if back then rest else [n]) bs with
      | (d, false) => d
      | (d, true) =>
        let home : Nat → SliceId := fun b => if back then n else rest.getD (b % rest.length) n
        if back ∧ !d.domUp (slcDom n) then d
        else
          let d := d.dirMove (if back then rest else [n]) bs home
          let d := d.modSvc fun x =>
            { x with proc := none, out := setBit x.out n.val (!back), fault := if back then setBit x.fault n.val false else x.fault,
                     passed := setBit x.passed n.val false }
          let keep := (List.range 256).filter fun b => d.otherFenced b || d.faultFenced b
          let d := d.ilvMod (fun b _ => bs.contains b) fun b e =>
            ((if keep.contains b then e else e &&& 0xEF) &&& 0xF8) ||| BitVec.ofNat 8 (home b).val
          if back then d.evSlc n 30
          else ((d.modSlice n Slice.clean).domReef (slcDom n)).evSlc n 29

/-- ASSAY: GO of TST_ASSAY_CTL. -/
def assayGo (d : Data) (n : SliceId) : Data :=
  let d := d.fldSet Reg.tstAssayCtl 0 3 n.val
  if d.svc.out.getLsbD n.val ∧ d.svc.assay.isNone ∧ d.svc.proc.isNone then d.modSvc fun x => { x with assay := some n, struct := 0 }
  else d.raise Reg.tstAssayStat 2

/-- ASSAY_COMPLETE: the slice and its part of the store are left clean. -/
def assayDone (d : Data) (struct : BitVec 3) : Data :=
  match d.svc.assay with
  | none => d
  | some n =>
    let ok := struct == 0
    let d := d.modSvc fun x =>
      { x with assay := none, assayPass := ok, assayFail := !ok, struct := struct, passed := setBit x.passed n.val ok }
    let d := (d.modSlice n Slice.clean).sliceStoreClear n
    if ok then d else d.evSlc n 31

/-! ## Return of an agent (R401) -/

/-- GO of TOP_ARTS. -/
def artsGo (d : Data) (p : Agent) : Data :=
  let d := d.fldSet Reg.topArts 0 4 p.val
  if d.ports[p].iso ∧ d.svc.arts.isNone then
    d.serving.foldl (fun (d : Data) n => d.modSlice n fun s => { s with arts := some (p, 0) }) (d.modSvc fun x => { x with arts := some p })
  else d.raise Reg.topArts 5

/-- An entry that names the agent. -/
def artsHas (p : Agent) (e : DirEnt) : Bool := e.base != .i && (e.own == some p || e.shr.getLsbD p.val)

/-- An entry without the agent's SHR bit. -/
def artsClear (p : Agent) (e : DirEnt) : DirEnt :=
  let e := { e with shr := e.shr &&& ~~~(abit p) }
  if e.derive = .i then {} else { e with base := e.derive }

/-- A step of the agent's removal from the directory of a slice: one entry, or the end of the slice's part (R401). -/
def artsTry (d : Data) (n : SliceId) (p : Agent) (age : Nat) : Pass Data :=
  let near := (d.slices[n].dir.map (·.2)) ++ d.slices[n].spill.map (·.e)
  match near.find? fun e => artsHas p e && !e.pin with
  | some e =>
    if e.own = some p then d.binvTry n e.ga age
    else
      match d.dirFind n e.ga with
      | some k => .ok (d.dirPut n k (artsClear p e))
      | none => .ok (d.modSlice n fun s =>
          { s with spill := s.spill.filterMap fun x =>
              if x.e.ga = e.ga then (if (artsClear p e).base = .i then none else some { x with e := artsClear p e }) else some x })
  | none =>
    let hit := fun (b : Nat) =>
      match cwDecode (d.cwGet (bstKey n b)) with
      | .good g | .poison g | .fixed g _ => (List.range 8).any fun i => artsHas p (bstDec (bits g.toNat (64 * i) 64))
      | .bad _ => true
    match (d.bstSets n).find? hit with
    | none => if near.any (artsHas p) then .error .later else .ok (d.modSlice n fun s => { s with arts := none })
    | some b =>
      match d.bstRead n b with
      | (d, none) => .ok (d.sliceFault n)
      | (d, some es) =>
        match es.find? fun e => artsHas p e with
        | none => .ok d
        | some e =>
          if e.own = some p then
            if 16 ≤ d.slices[n].spill.length then .error .later
            else
              let d := d.bstWrite n b es (es.map fun x => if x.base != .i && x.ga == e.ga then {} else x)
              let d := d.modSlice n fun s => { s with cnsCnt := s.cnsCnt - b2n e.cns }
              (d.spillPut n { e with cns := false }).binvTry n e.ga age
          else .ok (d.bstWrite n b es (es.map fun x => if x.base != .i && x.ga == e.ga then artsClear p x else x))

def artsStep (d : Data) (n : SliceId) (old : Option Nat) : Data :=
  match d.slices[n].arts with
  | none => d
  | some (p, _) => d.enginePass n 8 none old (d.artsTry n p (old.getD d.seq))

/-- The agent returns once every slice is done with it. -/
def artsSettle (d : Data) : Data :=
  match d.svc.arts with
  | none => d
  | some p =>
    if allSlices.any fun n => d.slices[n].arts.isSome then d
    else (d.modPort p fun x => { x with iso := false }).modSvc fun x => { x with arts := none }

/-! ## Return of a backing port (R402) -/

/-- RETURN of BKPn_CTL. -/
def bkpReturn (d : Data) (b : BkpId) : Data :=
  if d.bkps[b].st = .failed ∧ d.bkps[b].returning.isNone then
    (d.modBkp b fun x => { x with returning := some d.now }).domWake (bkpDom b)
  else if d.bkps[b].returning.isSome then d
  else d.raise (Reg.bkpCtl b.val) 2

/-- The end of RETURN. -/
def bkpReturned (d : Data) (b : BkpId) (e : PortEnv) : Data :=
  if d.bkps[b].returning.isNone then d
  else
    let d := d.modBkp b fun x => { x with returning := none, st := .training }
    let d := d.bkpLink b e (d.bkpMhd b)
    if d.bkps[b].st = .ready then
      let d := d.modDur fun u => { u with portFailed := setBit u.portFailed b.val false }
      allSlices.foldl (fun (d : Data) n => d.modSlice n fun s =>
        { s with wb := s.wb.map fun e => if d.bkpOf e.ga = b then { e with sent := none, tries := 0 } else e
                 redirty := if d.active n then s.redirty.filter (fun x => x.1 != b) ++ [(b, 0)] else [] }) d
    else d.raise (Reg.bkpCtl b.val) 2

/-- A step of the walk that puts the sets with dirty sectors of a returned port back into the current dirty map (R222); the
walks of several returned ports follow one another. -/
def redirtyStep (d : Data) (n : SliceId) (_ : Option Nat) : Data :=
  match d.slices[n].redirty with
  | [] => d
  | (b, c) :: rest =>
    let d := d.pmcSlc n 1
    let sets := (d.slices[n].tags.filter fun x =>
      x.2.st == .valid && x.2.sd != 0 && decide (c ≤ x.1 / 16) && d.durable (lineAt x.2.tag (x.1 / 16) * 32) &&
        !d.bkpFailed (lineAt x.2.tag (x.1 / 16) * 32) &&
        (List.range 16).any fun j => x.2.sd.getLsbD j && d.bkpOf (lineAt x.2.tag (x.1 / 16) * 32 + 2 * j) == b).map fun x => x.1 / 16
    match minBy id sets with
    | none => d.modSlice n fun s => { s with redirty := rest }
    | some set => (d.markDirty n set).modSlice n fun s => { s with redirty := (b, set + 1) :: rest }

/-- What follows of itself in these procedures. -/
def svcSettle (d : Data) : Data :=
  let d := allSlices.foldl (fun (d : Data) n => d.salvSettle n) d
  (d.procSettle).artsSettle

end Data

end Sys2Proof.Machine
end

