-- ==== Sys2Proof/Machine/Ports.lean ====
section
/-!
DEFINITION. What an agent port does with an item from its agent: the checks of R191, holding (R21, R61, R409, R418),
tagging (R330), RECALL (R171, R234), census ends (R396) and the way on to a slice, an agent or a held list (R190).
-/

namespace Sys2Proof.Machine

/-- A step of the sampling LFSR: taps of x^32, x^22, x^2 and x at bits 31, 21, 1 and 0, shifted in at bit 0 (R330). -/
def lfsrNext (x : Word) : Word :=
  (x <<< 1) ||| (if (((x.getLsbD 31 ^^ x.getLsbD 21) ^^ x.getLsbD 1) ^^ x.getLsbD 0) then 1 else 0)

/-- The LFSR of port `p` as a seed loads it (R330). -/
def lfsrLoad (seed : Word) (p : Agent) : Word :=
  let x := seed ^^^ BitVec.ofNat 32 (p.val * 0x9E37)
  if x = 0 then 1 else x

namespace Data

/-! ## Credits toward the agent's transmitter (R196) -/

/-- Returns a credit of class `c` (0 REQ, 1 SNP, 2 RSP, 3 DAT, 4 MGQ). -/
def creditBack (d : Data) (l : LinkId) (c : Fin 5) : Data :=
  d.modLink l fun x => { x with grant := vmod x.grant c (· + 1) }

/-- Returns the credits that a REQ holds. -/
def reqCredit (d : Data) (p : Agent) (r : Req) : Data :=
  if !r.cred then d
  else
    let d := if r.op = 6 then d.modLink (aptLink p) fun x => { x with grantWb := vmod x.grantWb r.ch (· + 1) } else d.creditBack (aptLink p) 0
    if r.op = 4 ∨ r.op = 6 then d.creditBack (aptLink p) 3 else d

/-! ## Malformed messages (R191, R215) -/

/-- The malformed-message event with its capture: class, opcode, the row of R191, GADDR. -/
def msgErr (d : Data) (p : Agent) (cls opc row : Nat) (g : BitVec 40) : Data :=
  let d := d.evApt p 11
  let r := Reg.aptMsgErr p.val
  let d' := d.capture r 11 (some 12) (cls + at_ opc 3 + at_ row 8) (64 * g.toNat)
  if d.flag r 11 then d' else d'.modPort p fun x => { x with errGaddr := g ++ (0 : BitVec 6) }

/-! ## Agents' requests -/

/-- The port takes items of its agent: start-up is complete, the port is enabled and the agent is not isolated. -/
def portOpen (d : Data) (p : Agent) : Bool := d.ready && d.portEn p && !d.ports[p].iso

/-- The granule lies in a range that a reload in progress holds (R61, step 5). -/
def reloadHeld (d : Data) (ga : Nat) : Bool :=
  match d.reload with
  | some r => r.hold.any fun x => decide (x.1 ≤ ga ∧ ga < x.2)
  | none => false

/-- Where the crossbar takes an accepted REQ: the slice that its port sampled, or, where it sampled FENCED and FENCED has
cleared, the slice named since (R21). -/
def reqDst (d : Data) (r : Req) : Option SliceId := if r.dst.isSome then r.dst else d.sampled r.ga

/-- A port holds the REQ, with its credit: a bucket that it sampled fenced, a reload, pair state WAIT, or a slice that is not up
(R21, R61, R418, R409). -/
def reqHeld (d : Data) (r : Req) : Bool :=
  d.reloadHeld r.ga || d.pair.st == .wait ||
    (match d.reqDst r with | none => true | some n => !d.domUp (slcDom n))

/-- A held REQ wakes its slice (R409). -/
def reqWake (d : Data) (r : Req) : Data :=
  match d.reqDst r with
  | none => d
  | some n => if d.domUp (slcDom n) then d else d.domWake (slcDom n)

/-- REDIRECT naming a member (R24, R192). -/
def redirect (d : Data) (p : Agent) (ga : Nat) (m : Bool) : Data :=
  (d.rspTo p 0x1F (gaddr ga) (if m then 1 else 0)).evApt p 10

/-- A slot of the REQ input buffer of slice `n` is free for a REQ of agent `p` (R158): one that only a WB can occupy, and as many
others as a port has REQ credits (assumption 72). -/
def reqSlot (d : Data) (n : SliceId) (p : Agent) (wb : Bool) : Bool :=
  let count := fun (f : Req → Bool) => (d.slices[n].waiters.filter fun w => match w.kind with | .req r => r.agent == p && f r | _ => false).length
  let o := count fun r => r.op != 6
  let w := count fun r => r.op == 6
  if wb then w == 0 || decide (o + w < 65) else decide (o + (w - 1) < 64)

/-- A REQ that has passed the checks is counted and sampled (R330): the state, and the request with its instant and tag. -/
def reqTag (d : Data) (p : Agent) (r : Req) : Data × Req :=
  let d := d.pmcApt p 4
  let smp := d.flag Reg.pmcSmpCfg 0
  let n := min 20 (max 6 (d.fld Reg.pmcSmpCfg 1 5))
  let d := if smp then d.modPort p fun x => { x with lfsr := lfsrNext x.lfsr } else d
  let tag : Bool := smp && d.ports[p].lfsr.toNat % 2 ^ n == 0
  (if tag then d.tally 7 else d, { r with t0 := d.smpClock, tagged := tag })

/-- A REQ that has passed the checks: counted and tagged, its interleave entry sampled, and ready for the crossbar. The record of
the RSP_I_WB that announced a WB ends here: the WB is no longer on its way to the port (R173). -/
def reqAccept (d : Data) (p : Agent) (r : Req) : Data :=
  let (d, r) := d.reqTag p r
  let r := { r with dst := d.sampled r.ga }
  let d := if r.op == 6 then d.modPort p fun x => { x with wbs := x.wbs.erase r.ga } else d
  (d.reqWake r).modPort p fun x => { x with held := x.held.concat r }

/-- WB and EVICT that reach the port after the Recall phase (R171). -/
def reqLate (d : Data) (r : Req) : Bool :=
  (r.op == 5 || r.op == 6) &&
    (match d.dur.phase with | .run | .recalling => false | _ => true)

/-- A REQ whose form is good: the last checks of R191 (R16, R24). -/
def reqChecked (d : Data) (p : Agent) (g : BitVec 40) (r : Req) : Data :=
  if d.reqLate r then (d.modDur fun u => { u with lateDisc := u.lateDisc + 1 }).reqCredit p r
  else if 2 ^ 36 ≤ g.toNat ∨ !d.inMap r.ga then ((d.rspTo p 0x1E g).evApt p 9).reqCredit p r
  else if d.pairMute then (d.redirect p r.ga (!d.member)).reqCredit p r
  else if !d.homed r.ga ∧ !d.fencedAt r.ga then (d.redirect p r.ga (d.memberOf r.ga)).reqCredit p r
  else d.reqAccept p r

/-- A REQ item of an agent: taken whole, checked, answered, held or passed on. `bef`: a byte-enable slot came with it. -/
def reqItem (d : Data) (p : Agent) (g : BitVec 40) (bef : Bool) (r : Req) : Data :=
  if !d.portOpen p then d
  else if bef ∧ r.be = 0 then ((d.msgErr p 0 r.op.toNat 3 g).rspTo p 0x16 g).reqCredit p r
  else d.reqChecked p g r

/-- The record of a request without data. -/
def reqOf (p : Agent) (op : Nat) (g : BitVec 40) : Req := { agent := p, op := BitVec.ofNat 5 op, ga := g.toNat }

/-! ## Agents' answers -/

/-- The granule of an RSP or DAT lies in the backing map (R191). -/
def ansInMap (d : Data) (g : BitVec 40) : Bool := decide (g.toNat < 2 ^ 36) && d.inMap g.toNat

/-- An answer goes to its home slice and is processed there (R92, R144). -/
def answerRun (d : Data) (m : Answer) : Data :=
  let n := d.homeOf m.ga
  let w : Waiter := { seq := d.seq, since := d.now, kind := .answer m, loc := .ready }
  let d := { d with seq := d.seq + 1 }.putWaiter n w
  if d.running n then d.runWaiter n w else d

/-- The record of a delivered snoop is answered (R173). -/
def snpAnswered (d : Data) (p : Agent) (ga : Nat) : Data :=
  d.modPort p fun x => { x with snps := x.snps.eraseP fun s => s.ga == ga }

/-- An RSP item of an agent other than RSP_RECALL. -/
def rspItem (d : Data) (p : Agent) (op : Nat) (g : BitVec 40) : Data :=
  if !d.portOpen p ∨ d.pairMute then d
  else if !d.ansInMap g then d.evApt p 11
  else
    let ga := g.toNat
    let d := if op ≤ 5 then d.snpAnswered p ga else d
    let d := if op = 5 then d.modPort p fun x => { x with wbs := x.wbs.concat ga } else d
    d.answerRun { agent := p, dat := false, op := BitVec.ofNat 5 op, ga := ga }

/-- RSP_RECALL: the end of an agent's answer to RECALL, which the port takes itself in every pair state (R234), or to a census
(R395). -/
def rspRecall (d : Data) (p : Agent) (g : BitVec 40) : Data :=
  if !d.portOpen p then d
  else if d.ports[p].recalling ∧ g = 0 then d.modPort p fun x => { x with recalling := false }
  else if d.pairMute then d
  else if d.ports[p].census = some g then
    (d.modPort p fun x => { x with census := none }).modPair fun y =>
      { y with census := y.census.map fun c => { c with left := c.left &&& ~~~(abit p) } }
  else d.evApt p 11

/-- Data of an owner for another agent: steered to the port that PEER names (R190). -/
def datPeer (d : Data) (p : Agent) (op : Nat) (g : BitVec 40) (peer : Agent) (poison : Bool) (x : Gran) : Data :=
  if !d.portOpen p ∨ d.pairMute then d
  else if peer = p ∨ !d.portEn peer then d.msgErr p 3 op 3 g
  else if !d.ansInMap g then d.evApt p 11
  else
    let d := d.toAgent peer { cls := .dat, op := BitVec.ofNat 5 op, gaddr := g, peer := BitVec.ofNat 4 p.val, poison := poison, data := some x }
    d.sampleFwd (d.homeOf g.toNat) peer g.toNat true

/-- Snoop data of an agent for the home (R151). -/
def datHome (d : Data) (p : Agent) (op : Nat) (g : BitVec 40) (poison : Bool) (x : Gran) : Data :=
  if !d.portOpen p ∨ d.pairMute then d
  else if !d.ansInMap g then d.evApt p 11
  else (d.snpAnswered p g.toNat).answerRun { agent := p, dat := true, op := BitVec.ofNat 5 op, ga := g.toNat, poison := poison, data := x }

/-! ## The crossbar toward the slices (R15) -/

/-- The REQ of port `p` that the crossbar may grant to slice `n`: the oldest that nothing holds and that has a slot there; a WB
may overtake (R158). -/
def reqNext (d : Data) (n : SliceId) (p : Agent) : Option Req :=
  d.ports[p].held.find? fun r => !d.reqHeld r && d.reqDst r == some n && d.reqSlot n p (r.op == 6)

/-- Grants a REQ to its slice: its credit returns, and it waits for admission. -/
def reqGrant (d : Data) (n : SliceId) (p : Agent) (r : Req) : Data :=
  let d := d.modPort p fun x => { x with held := x.held.erase r }
  let d := (d.reqCredit p r).modSlice n fun s => { s with arb := (p.val + 1) % 16, arbAt := some d.now }
  d.await n (.req r) .input

/-- The grant of a slice in a cycle: at most one REQ, round-robin over the ports that have one ready. -/
def arbitrate (d : Data) (n : SliceId) : Data :=
  if d.slices[n].arbAt = some d.now then d
  else
    let order : List Agent := (List.range 16).map fun i => Fin.ofNat 16 (d.slices[n].arb + i)
    match order.findSome? fun p => (d.reqNext n p).map fun r => (p, r) with
    | some (p, r) => d.reqGrant n p r
    | none => d

/-- REQs that go to no slice: redirected in a pair state that serves none, or once their bucket has moved (R24, R382). -/
def reqAway (d : Data) (p : Agent) : Data :=
  let away := fun (r : Req) => d.pairMute || (!d.reqHeld r && r.dst.isNone && !d.homed r.ga)
  let go := d.ports[p].held.filter away
  if go.isEmpty then d
  else
    let mute := d.pairMute
    go.foldl (fun (d : Data) r => (d.redirect p r.ga (if mute then !d.member else d.memberOf r.ga)).reqCredit p r)
      (d.modPort p fun x => { x with held := x.held.filter fun r => !away r })

/-- What becomes of accepted REQs once a command has taken effect. -/
def heldSettle (d : Data) : Data :=
  if allAgents.all fun p => d.ports[p].held.isEmpty then d
  else
    let d := allAgents.foldl (fun (d : Data) p => d.reqAway p) d
    let d := d.serving.foldl (fun (d : Data) n => d.arbitrate n) d
    allAgents.foldl (fun (d : Data) p => d.ports[p].held.foldl (fun (d : Data) r => d.reqWake r) d) d

end Data

end Sys2Proof.Machine
end

