-- ==== Sys2Proof/Machine/Controls.lean ====
section
/-!
DEFINITION. Disabling the cache of a slice or a region (R121 to R127), patrol scrub (R270, R271), the scrub period
(R270, R272) and the flip-mask (R274).
-/

namespace Sys2Proof.Machine

namespace Data

/-! ## Cache disable (R121 to R127) -/

/-- Lines of slice `n` that a range takes in: every line, or those of a region. -/
def rangeHas (d : Data) (rgn : Option Nat) (ga : Nat) : Bool :=
  match rgn with
  | some r => d.rgnNo ga == r
  | none => true

/-- A dirty tag entry of the range, or a write admitted while the cache was enabled that may still make one (R123). -/
def rangeDirty (d : Data) (n : SliceId) (rgn : Option Nat) : Bool :=
  let s := d.slices[n]
  (s.tags.any fun x => x.2.sd != 0 && d.rangeHas rgn (lineAt x.2.tag (x.1 / 16) * 32)) ||
    s.waiters.any fun w =>
      match w.kind, w.loc with
      | .req _, .input => false
      | .req r, _ => (r.op == 4 || r.op == 6) && w.cdis == some false && d.rangeHas rgn r.ga
      | _, _ => false

/-- The side-buffer entries of the range go at once (R121). -/
def rangeSide (d : Data) (n : SliceId) (rgn : Option Nat) : Data :=
  (List.finRange 32).foldl (fun (d : Data) i =>
    let e := d.slices[n].side[i]
    if e.st = SideSt.free ∨ !d.rangeHas rgn (2 * e.sec) then d
    else if e.st = SideSt.pend then d.modSide n i fun e => { e with cancel := true }
    else d.sideFree n i) d

/-- DIS_GO of SLCn_CDIS (R122, R123). -/
def slcDis (d : Data) (n : SliceId) : Data :=
  if d.slices[n].cdis then d
  else if d.rangeDirty n none then (d.raise (Reg.slcCdis n.val) 4).evSlc n 10
  else ((d.modSlice n fun s => { s with cdis := true, cdisAt := d.seq }).rangeSide n none).evSlc n 8

/-- EN_GO of SLCn_CDIS (R125). -/
def slcEn (d : Data) (n : SliceId) : Data :=
  if !d.slices[n].cdis then d
  else if d.flag (Reg.slcCdis n.val) 3 then (d.raise (Reg.slcCdis n.val) 4).evSlc n 10
  else (d.modSlice n fun s => { s with cdis := false }).evSlc n 9

/-- Raises a slice event on every active slice. -/
def evSlices (d : Data) (i : Nat) : Data := d.activeSlices.foldl (fun (d : Data) n => d.evSlc n i) d

/-- DIS_GO of TOP_CBYP_CTL: every slice decides in the same cycle (R122, R123, R127). -/
def bypDis (d : Data) (r : Fin 64) : Data :=
  if d.byp.getLsbD r.val then d
  else if d.reload.isSome ∨ (d.activeSlices.any fun n => d.rangeDirty n (some r.val)) then (d.raise Reg.topCbypCtl 8).evSlices 10
  else
    let d := { d with byp := setBit d.byp r.val true, bypAt := SMap.set 0 d.bypAt r.val d.seq }
    (d.activeSlices.foldl (fun (d : Data) n => d.rangeSide n (some r.val)) d).evSlices 8

/-- EN_GO of TOP_CBYP_CTL (R125). -/
def bypEn (d : Data) (r : Fin 64) : Data :=
  if !d.byp.getLsbD r.val then d
  else if d.bypStale.getLsbD r.val then (d.raise Reg.topCbypCtl 8).evSlices 10
  else { d with byp := setBit d.byp r.val false }.evSlices 9

/-! ## Scrub (R270 to R272) -/

/-- A codeword of the frame area outside any line is rewritten as zeros (R271). -/
def stZeroed (d : Data) (k : Nat) : Data := ((d.granPut none k 0 false).evSto 1).stCapture k 127 1

/-- An uncorrectable codeword of the frame area with its stored payload (R271). Its data granules are read as R263 lays down; a
parity granule is rebuilt under row 1, else poisoned. -/
def scrubFrame (d : Data) (k : Nat) (x : Gran) : Data :=
  let pc := k / pcCw
  let i := k % pcCw
  let n : SliceId := Fin.ofNat 8 (pc / 4)
  let f := i / 34 * 4 + pc % 4
  let g := i % 34
  let set := f / 16
  let way := f % 16
  let t := d.tagEnt n set way
  if d.active n ∧ (t.st = .valid ∨ t.st = .draining) then
    if g < 32 then
      match d.frameRead n set way g with
      | .ok (d, _, _) => d
      | .error b => d.readBlock n b
    else
      match d.frameSolve n set way t.sv ((d.setWord n set).ps.getLsbD way) g { d := x, bad := true } with
      | (d, some l) => d.frameRestore n set way l
      | (d, none) => d.stPoisoned (some n) k x
  else d.stZeroed k

/-- An uncorrectable codeword of mirror staging (R387). -/
def scrubMirror (d : Data) (k : Nat) : Data :=
  let i := k % pcCw - areaBase .mirror
  let q := (i / 16 * 32 + k / pcCw) * 16 + i % 16
  let s := q / 16
  if q % 16 = 0 then (d.mirTags s).1
  else
    let (d, ts) := d.mirTags s
    let t := ts.getD (q % 16 - 1) 0
    if nbit t 14 then (d.mirRead (mirGa s (bits t 0 14))).1 else d.stOutside none k (cwMake 0 true)

/-- An uncorrectable codeword, by its area (R271). -/
def scrubBad (d : Data) (k : Nat) (g : Gran) : Data :=
  let n : SliceId := Fin.ofNat 8 (k / pcCw / 4)
  match areaOf (k % pcCw) with
  | 0 => d.scrubFrame k g
  | 1 =>
    if d.active n && d.svc.fault.getLsbD n.val then d.granPut none k 0 false
    else
      let d := ((d.evSto 6).stCapture k 127 3).granPut none k 0 false
      if d.active n then d.sliceFault n else d
  | 2 => d.stOutside none k (cwMake (BitVec.allOnes 512) false)
  | 5 => d.scrubMirror k
  | _ => d.stOutside none k (cwMake g true)

/-- A codeword reads uncorrectable. -/
def cwBad (d : Data) (k : Nat) : Bool := match cwDecode (d.cwGet k) with | .bad _ => true | _ => false

/-- SCRUB_READ: the next codeword of a pseudo-channel, which may have suffered an upset. -/
def scrubRead (d : Data) (pc : Fin 32) (upset : BitVec 544) : Data :=
  let n : SliceId := Fin.ofNat 8 (pc.val / 4)
  let i := d.store.scrub[pc]
  if !d.ready ∨ !d.flag Reg.stoEccCfg 0 ∨ d.dur.tr.isSome ∨ !d.domUp 2 ∨ !d.storeAwake ∨ pcCw ≤ i ∨ (d.active n && !d.domUp (slcDom n)) then d
  else
    let k := cwKey pc.val i
    let d := d.modStore fun s => { s with cw := SMap.set 0 s.cw k (SMap.get 0 s.cw k ^^^ upset) }
    let (d, r) := (d.tally 29).cwRead none k
    let d := if r.bad then d.scrubBad k r.d else d
    if d.cwBad k then d else d.modStore fun s => { s with scrub := s.scrub.set pc (i + 1) }

/-- A row called for sparing is replaced once each uncorrectable codeword that touches it has been recovered (R272). -/
def rowSettle (d : Data) : Data :=
  if d.pwr.boot != .rdy then d
  else d.store.calls.foldl (fun (d : Data) x =>
    let d := (d.rowBad x.1 x.2).foldl (fun (d : Data) y => if d.cwBad y.1 then d.scrubBad y.1 y.2 else d) d
    if (d.rowBad x.1 x.2).isEmpty then d.rowSwitch x.1 x.2 else d) d

/-- Slice cycles in a scrub period. -/
def scrubPeriod (d : Data) : Nat := act1 (d.fld Reg.stoEccCfg 1 8) * 3600 * 1600000000

/-- The scrub period of a pseudo-channel ends (R270, R272): its walk is late, or it is complete and starts again; its table of
rows is cleared. -/
def scrubEnd (d : Data) (pc : Fin 32) : Data :=
  let late := decide (d.store.scrub[pc] < pcCw)
  let d := if late then (d.raise Reg.stoScrubStat 23).evSto 5 else d
  d.modStore fun s =>
    { s with rowCe := s.rowCe.filter fun x => x.1 != pc.val
             periodAt := s.periodAt.set pc d.now
             scrub := if late then s.scrub else s.scrub.set pc 0
             walked := if late then s.walked else setBit s.walked pc.val true }

/-- SCRUB_PERIOD_END: for each pseudo-channel whose unreefed time makes up its period. A period in which every pseudo-channel
has completed its walk is counted (R276). -/
def scrubPeriodEnd (d : Data) : Data :=
  if !d.ready ∨ !d.flag Reg.stoEccCfg 0 ∨ d.dur.tr.isSome then d
  else
    let ended := (List.finRange 32).filter fun pc => decide (d.store.periodAt[pc] + d.scrubPeriod ≤ d.now)
    let d := ended.foldl (fun (d : Data) pc => d.scrubEnd pc) d
    if d.store.walked = BitVec.allOnes 32 then (d.modStore fun s => { s with walked := 0 }).fldCnt Reg.stoScrubStat 0 16 1 else d

/-- A write of STO_FLIP_HI: the fields, and the arming (R274). -/
def flipWrite (d : Data) (v : Word) (en : Word) : Data :=
  let old := d.reg Reg.stoFlipHi
  let keep := old &&& (0x00040000 : Word)
  let m := en &&& 0x0003FFFF
  let d := d.regSet Reg.stoFlipHi ((old &&& ~~~m &&& 0x0003FFFF) ||| (v &&& m) ||| keep)
  if v.getLsbD 18 ∧ en.getLsbD 18 then d.flagSet Reg.stoFlipHi 18 true else d

end Data

end Sys2Proof.Machine
end

