-- ==== Sys2Proof/Machine/Events.lean ====
section
/-!
DEFINITION. The event engine and the counters' tick (R311 to R329): severities, routing, ticks, deliveries, the delivery
list, ALERT_N, forced events, snapshots and counter loads.
-/

namespace Sys2Proof.Machine

/-! ## Sources (R311 to R314, R172, R214, R254, R275, R289, R309, R377, R404, R421): 0 FATAL to 4 INFO, 5 undefined -/

def sevAon : List Nat := [4, 3, 1, 2, 0, 1, 1, 1, 4, 4, 0, 5, 5, 5, 5, 4, 1]
def sevDur : List Nat := [1, 2, 4, 4, 1, 1, 1, 3, 1, 1, 2, 3]
def sevSto : List Nat := [4, 3, 1, 3, 2, 2, 1, 4]
def sevMgt : List Nat := [3, 3, 1, 4, 2, 4, 2, 3, 3, 4, 1, 4, 1, 3, 3, 3, 1, 3, 1, 1, 1, 4, 2, 3, 1, 4, 3]
def sevEvt : List Nat := [4, 4, 2, 4]
def sevQue : List Nat := [3, 1, 3, 4, 4, 3, 3, 3]
def sevSlc : List Nat :=
  [0, 4, 0, 4, 0, 1, 0, 3, 3, 3, 3, 2, 4, 4, 4, 4, 1, 1, 1, 0, 2, 3, 3, 3] ++
  [3, 3, 3, 3, 1, 3, 3, 1, 3, 3, 3, 3, 3, 3, 3, 3, 4, 4, 4, 4, 4, 4, 4, 4]
def sevApt : List Nat := [4, 1, 1, 2, 3, 4, 3, 4, 2, 3, 4, 1, 3, 1, 4, 4, 3, 3, 3, 3, 1, 1, 1, 1]
def sevBkp : List Nat := [4, 1, 1, 3, 1, 2, 1, 3]
def sevShd : List Nat := [4, 1, 4, 1, 3, 1, 3, 1, 2, 2, 3, 3, 3, 3, 1, 1]
def sevHlm : List Nat := [3, 1, 2, 3, 3, 3]

/-- Severity of a source (0 FATAL to 4 INFO); 5 for a number that no table defines. -/
def severity (s : Nat) : Nat :=
  if s < 32 then sevAon.getD s 5
  else if s < 48 then sevDur.getD (s - 32) 5
  else if s < 64 then sevSto.getD (s - 48) 5
  else if s < 100 then sevMgt.getD (s - 64) 5
  else if s < 128 then sevEvt.getD (s - 100) 5
  else if s < 192 then sevQue.getD (s - 128) 5
  else if s < 576 then sevSlc.getD ((s - 192) % 48) 5
  else if s < 960 then sevApt.getD ((s - 576) % 24) 5
  else if s < 992 then sevBkp.getD ((s - 960) % 8) 5
  else if s < 1008 then sevShd.getD (s - 992) 5
  else if s < 1024 then sevHlm.getD (s - 1008) 5
  else 5

/-- The event item of a source at a tick (R300). -/
def evItem (src sev tick : Nat) : Dword :=
  BitVec.ofNat 64 (0xE7 + at_ src 8 + at_ sev 18 + at_ (tick % 2 ^ 40) 24)

namespace Data

/-! ## Routing (R318, R320) -/

/-- The built-in entry of a source, in force until an EVENTS section is applied. -/
def evBuiltin (src : Nat) : Nat :=
  let v := severity src
  1 + (if v ≤ 2 then 2 else 0) + (if v ≤ 1 then 8 else 0)

/-- The EVENTS entry of a source (R50). -/
def evEntry (d : Data) (src : Nat) : Nat :=
  match d.rig with
  | some r => (r.events.getD src 0).toNat
  | none => evBuiltin src

/-- The source is delivered to the management cores. -/
def evCores (d : Data) (src : Nat) : Bool :=
  severity src == 0 || (nbit (d.evEntry src) 0 && nbit (d.evEntry src) 1)
/-- The source asserts ALERT_N. -/
def evAlert (d : Data) (src : Nat) : Bool := nbit (d.evEntry src) 0 && nbit (d.evEntry src) 3

/-- The sources whose bit is set in a set of 1,024, in the order of R317. -/
def evOrder (x : BitVec 1024) : List Nat :=
  if x = 0 then []
  else
    let l := (List.range 1024).filter fun s => x.getLsbD s
    (List.range 5).flatMap fun v => l.filter fun s => severity s == v

/-- The interrupt line of a severity to the management cores (R320). -/
def intLine (d : Data) (sev : Nat) : Bool :=
  d.evt.pend != 0 && (List.range 1024).any fun s => d.evt.pend.getLsbD s && severity s == sev && d.evCores s

/-- ALERT_N is asserted (R320, R413, R419). -/
def alert (d : Data) : Bool :=
  d.pwr.xfail || d.pwr.boot == .halted ||
    (d.evt.pend != 0 && (List.range 1024).any fun s => d.evt.pend.getLsbD s && d.evAlert s)

/-! ## Deliveries (R318, R319) -/

/-- A push joins the delivery list, or is lost where the list is full. -/
def evList (d : Data) (q : Nat) (item : Dword) : Data :=
  let cap := if d.domUp 2 then 2048 else 64
  if d.evt.list.length < cap then
    let d := d.modEvt fun e => { e with list := e.list.concat (q, item) }
    if d.domUp 2 ∨ d.pwr.boot ≠ .rdy then d else d.domWake 2
  else
    let d := (d.fldCnt Reg.evtDlossCnt 0 32 1).raise Reg.evtStat 1
    (d.tally 6).ev 102

/-- Delivers one event of the tick. -/
def evDeliver (d : Data) (src : Nat) : Data :=
  let v := severity src
  let d := if v = 0 then d.modEvt fun e => { e with fatalSeen := true } else d
  let x := d.evEntry src
  let en := nbit x 0
  let cores := d.evCores src
  let d := if cores || (en && nbit x 3) then
      (d.modEvt fun e => { e with pend := setBit e.pend src true }).stamp (Reg.evtPend (src / 32)) (BitVec.twoPow 32 (src % 32))
    else d
  let d := if cores && d.pwr.boot == .rdy && !d.domUp 1 then d.domWake 1 else d
  let item := evItem src v d.evt.tick.toNat
  let d := if en && nbit x 2 then d.evList (bits x 8 14) item else d
  if en && nbit x 4 then d.evList (d.fld Reg.evtCfg 0 14) item else d

/-- EVENT_QUEUE_PUSH: up to 32 pushes of the list into their queues. -/
def evPush (d : Data) : Data :=
  if !d.domUp 2 then d
  else
    let l := d.evt.list
    let d := d.modEvt fun e => { e with list := e.list.drop 32 }
    (l.take 32).foldl (fun (d : Data) x => (d.qItem x.1 [x.2]).1) d

/-! ## Snapshots and counter edges (R323 to R329) -/

/-- Copies the counters into their shadows: at a tick edge. -/
def snapTake (d : Data) : Data :=
  let sec := d.timeSec
  let ns := d.timeNsec
  (d.modPmc fun p =>
    { p with shadow := p.cnt, snapChain := p.chain, snap := false, seq := p.seq + 1, snapTick := d.evt.tick, lastSnap := d.evt.tick,
             snapSec := sec, snapNs := ns }).ev 101

/-- The snapshot that is pending at a tick edge. -/
def snapEdge (d : Data) : Data := if d.pmc.snap && d.domUp 2 then d.snapTake else d

/-- SNAPSHOT: the snapshot that is pending is taken where the current cycle is that of a tick edge, of the counters as they stood
there (R328, R329). -/
def snapshot (d : Data) : Data :=
  if d.pmc.snap && d.domUp 2 && d.pmc.edgeAt == some d.now then
    let n := d.pmc.cnt
    (({ d with pmc := { d.pmc with cnt := d.pmc.edge } }).snapTake).modPmc fun p => { p with cnt := n }
  else d

/-- SNAPSHOT_PERIOD_EXPIRY: SNAP_PER × 1,024 ticks have passed since the previous snapshot. -/
def snapExpiry (d : Data) : Data :=
  let n := d.fld Reg.pmcCtl 16 16
  if n ≠ 0 ∧ d.domUp 2 ∧ d.pmc.lastSnap.toNat + n * 1024 ≤ d.evt.tick.toNat then d.modPmc fun p => { p with snap := true } else d

/-- The counters at a tick edge: a pending snapshot, a pending clear, the chain bits, the live values. -/
def pmcEdge (d : Data) : Data :=
  if !d.domUp 2 then d
  else
    let d := d.snapEdge
    let loads := d.cycNow.loads
    let d := if d.pmc.clr then
        (d.modPmc fun p => { p with cnt := p.cnt.filter fun x => loads.contains x.1, ovf := 0, clr := false }).modCyc fun c =>
          { c with base := none, adds := [] }
      else d
    d.modPmc fun p => { p with chain := p.chainNew, edge := p.cnt, edgeAt := some d.now }

/-- EVENT_TICK. -/
def eventTick (d : Data) : Data :=
  if d.pwr.boot = .off then d
  else
    let x := d.evt.latch
    let n : Nat := if d.domUp 2 then 1 else 100
    let d := d.modEvt fun e => { e with latch := 0, goUntil := false, tick := e.tick + BitVec.ofNat 64 n }
    let d := d.pmcEdge
    let d := if d.domUp 2 then d.tally 0 else d
    let l := evOrder x
    let d := (List.range 5).foldl (fun (d : Data) v => d.tally (1 + v) (l.filter fun s => severity s == v).length) d
    l.foldl (fun (d : Data) s => d.evDeliver s) d

/-- EVT_FORCE: GO with a source (R321). -/
def evForce (d : Data) (src : BitVec 10) : Data :=
  let d := (d.fldSet Reg.evtForce 0 10 src.toNat).modEvt fun e => { e with goUntil := true }
  if severity src.toNat ≤ 4 then d.ev src.toNat else d

/-- Software events of a port (R313). -/
def swev (d : Data) (p : Agent) (v : Byte) : Data :=
  (List.range 8).foldl (fun (d : Data) k => if v.getLsbD k then d.evApt p (16 + k) else d) d

/-- The counters as before the cycle, with counter `c` at `v`, take the additions of the cycle again (R327). -/
def pmcRedo (d : Data) (c v : Nat) : Data :=
  let y := d.cycNow
  let (cnt, ovf, latch) := y.base.getD (d.pmc.cnt, d.pmc.ovf, d.evt.latch.getLsbD 100)
  let cnt := SMap.set 0 cnt c v
  let d := d.modCyc fun y => { y with base := some (cnt, ovf, latch), loads := insNat c y.loads }
  let d := (d.modPmc fun p => { p with cnt := cnt, ovf := ovf }).modEvt fun e => { e with latch := setBit e.latch 100 (latch && e.latch.getLsbD 100) }
  y.adds.foldl (fun (d : Data) x => d.cntAdd x.1 x.2) d

/-- Loads the counter that PMC_WSEL names with the latched value: the additions of the cycle come on top (R327). -/
def pmcLoad (d : Data) : Data :=
  d.pmcRedo (d.fld Reg.pmcWsel 0 9) ((d.reg Reg.pmcWvalLo).toNat + d.fld Reg.pmcWvalHi 0 16 * 2 ^ 32)

/-- The LFSRs take their start values (R330). -/
def lfsrSeed (d : Data) : Data :=
  let s := d.reg Reg.pmcSmpSeed
  allAgents.foldl (fun (d : Data) p => d.modPort p fun x => { x with lfsr := lfsrLoad s p }) d

end Data

end Sys2Proof.Machine
end

