-- ==== Sys2Proof/Machine/Rig.lean ====
section
/-!
DEFINITION. The flash as bytes (R367) and the rig image (R34 to R60): layout, checks in the order of R55, migration,
application, and the default rig (R52).
-/

namespace Sys2Proof.Machine

/-! ## The flash (R367): bytes that are not 0xFF, addresses rising -/

/-- A byte of the flash; an erased byte is 0xFF. -/
def flashGet (f : List Host.Cell) (a : Nat) : Byte := SMap.get (0xFF : Byte) f a

/-- `n` bytes from offset `o`. -/
def flashRead (f : List Host.Cell) (o n : Nat) : List Byte :=
  let w := f.filter fun c => decide (o ≤ c.1 ∧ c.1 < o + n)
  if w.isEmpty then List.replicate n 0xFF
  else (List.range n).map fun i => flashGet w (o + i)

/-- Programs bytes: a NOR cell goes from 1 to 0 only (assumption 24). -/
def flashProg (f : List Host.Cell) (o : Nat) (l : List Byte) : List Host.Cell :=
  l.zipIdx.foldl (fun f x => SMap.set (0xFF : Byte) f (o + x.2) (flashGet f (o + x.2) &&& x.1)) f

/-- Erases `n` bytes from offset `o`. -/
def flashErase (f : List Host.Cell) (o n : Nat) : List Host.Cell := f.filter fun c => !decide (o ≤ c.1 ∧ c.1 < o + n)

/-- Areas of the flash (R367). -/
def flGolden : Nat := 0x0000000
def flActive : Nat := 0x0800000
def flBackup : Nat := 0x1000000
def flCrucible : Nat := 0x1800000
def flRig (slot : Bool) : Nat := if slot then 0x2100000 else 0x2000000
def flSettings (slot : Bool) : Nat := if slot then 0x2300000 else 0x2200000
def flRecord (copy : Nat) : Nat := 0x2400000 + 0x10000 * (copy % 2)
def flLog : Nat := 0x2500000
def flBlock : Nat := 0x10000
def flImage : Nat := 0x800000

/-- The key of a signature block is accepted: its slot is not revoked and its hash is the slot's fused hash (R39). -/
def keyAccepted (fu : Fuses) (slot : Nat) (qxy : List Byte) : Bool :=
  decide (slot < 4) && !fu.revoked.getLsbD slot &&
    fu.keyHash[Fin.ofNat 4 slot] == BitVec.ofNat 384 (beNat (sha384 qxy))

/-! ## Image layout (R34 to R40) -/

/-- A directory entry with its section: TYPE, OFFSET, LENGTH, SVER, BODY_LEN, CRC, body. -/
structure RigSec where
  type : Nat
  off : Nat
  len : Nat
  htype : Nat
  sver : Nat
  blen : Nat
  crc : Nat
  body : List Byte
deriving DecidableEq, Repr

/-- A failed check: its code and the section type (R56). -/
abbrev RigErr := Nat × Nat

/-- Fails with a code and a section unless `b`. -/
def need (b : Bool) (code sec : Nat) : Except RigErr Unit := if b then .ok () else .error (code, sec)

def allZero (l : List Byte) : Bool := l.all fun b => b == 0

/-- Reads the directory: `rd o n` gives image bytes. -/
def rigDir (rd : Nat → Nat → List Byte) (dirOff cnt : Nat) : List RigSec :=
  (List.range cnt).map fun i =>
    let e := rd (dirOff + 16 * i) 16
    let off := leAt e 4 4
    let len := leAt e 8 4
    let h := rd off 16
    { type := leAt e 0 2, off := off, len := len, htype := leAt h 0 2, sver := leAt h 2 2, blen := leAt h 4 4, crc := leAt h 8 4
      body := if 16 ≤ len ∧ len ≤ 0x100000 then rd (off + 16) (len - 16) else [] }

/-- Section types, with their accepted versions (R40). -/
def rigTypes : List (Nat × List Nat × Bool) :=
  [(1, [1], true), (2, [1], true), (3, [1], true), (4, [1, 2], true), (5, [1], true), (6, [1], true), (7, [1], true), (8, [1], false),
   (0x10, [1], true), (0x11, [1, 2], true), (0x12, [1, 2], true)]

/-- The body length R40 states. -/
def rigBodyLen (s : RigSec) : Nat :=
  if s.type = 1 then 260 else if s.type = 2 then 64 else if s.type = 3 then 20
  else if s.type = 4 then (if s.sver = 1 then 4 else 8)
  else if s.type = 5 then 16 + 16 * leAt s.body 0 2
  else if s.type = 6 then 4 + 8 * leAt s.body 0 2
  else if s.type = 7 then 120 else if s.type = 8 then 8
  else if s.type = 0x10 then 4 + 16 * leAt s.body 0 1
  else if s.type = 0x11 then 4096 else 64

def pad16 (n : Nat) : Nat := (n + 15) / 16 * 16

/-- The body of the section of a type; empty where it is absent. -/
def secBody (l : List RigSec) (t : Nat) : List Byte := match l.find? fun s => s.type == t with | some s => s.body | none => []
def secVer (l : List RigSec) (t : Nat) : Nat := match l.find? fun s => s.type == t with | some s => s.sver | none => 0

/-- Words of a body. -/
def words4 (b : List Byte) (o n : Nat) : List Word := (List.range n).map fun i => BitVec.ofNat 32 (leAt b (o + 4 * i) 4)

/-- The rig that the sections of an image make, migrated to the native layout (R54). -/
def rigOf (slot : Bool) (fmt seq : Nat) (l : List RigSec) : Rig :=
  let b := secBody l
  let coh := b 4
  let ev := (words4 (b 0x11) 0 1024).map fun w => if secVer l 0x11 = 1 then setBit w 4 false else w
  let pm := (words4 (b 0x12) 0 16).map fun w => if secVer l 0x12 = 1 then setBit w 5 (w.getLsbD 3) else w
  { slot := slot, fmt := BitVec.ofNat 16 fmt, seq := seq
    active := BitVec.ofNat 8 (leAt (b 1) 0 1), repl := BitVec.ofNat 8 (leAt (b 1) 1 1), ilv := sub (b 1) 4 256
    ports := words4 (b 2) 0 16
    ways := leAt (b 3) 0 1, back := words4 (b 3) 4 4
    fpm := nbit (leAt coh 0 1) 0, hold := leAt coh 2 2, budgetAct := secVer l 4 = 2 && nbit (leAt coh 4 1) 0
    table := (List.range (leAt (b 5) 0 2)).map fun i => BitVec.ofNat 128 (leAt (b 5) (16 + 16 * i) 16)
    tstates := leAt (b 5) 2 1
    queues := (List.range (leAt (b 6) 0 2)).map fun i =>
      let o := 4 + 8 * i
      { first := leAt (b 6) o 2 % 16384, num := leAt (b 6) (o + 2) 2, owner := leAt (b 6) (o + 4) 1
        policy := leAt (b 6) (o + 5) 1 == 1, depth := leAt (b 6) (o + 6) 2 }
    power := words4 (b 7) 0 30
    paired := nbit (leAt (b 8) 0 1) 0, member := nbit (leAt (b 8) 0 1) 1, shroudSpd := BitVec.ofNat 2 (leAt (b 8) 1 1)
    pairId := BitVec.ofNat 32 (leAt (b 8) 4 4)
    regions := (List.range (leAt (b 0x10) 0 1)).map fun i =>
      let o := 4 + 16 * i
      { base := leAt (b 0x10) o 8, size := leAt (b 0x10) (o + 8) 4, attr := BitVec.ofNat 32 (leAt (b 0x10) (o + 12) 4) }
    events := ev, perms := pm
    secs := l.map fun s => (s.type, s.sver, s.blen, s.crc) }

/-! ## Field checks, error 0x0B (R55) -/

/-- A port that R22 uses. -/
def rigUses (r : Rig) (p : Nat) : Bool := decide (p < r.ways)
def rigCap (r : Rig) (p : Nat) : Nat := bits (r.back.getD p 0).toNat 16 16

/-- Regions [x, x + n) and [y, y + m) overlap. -/
def overlap (x n y m : Nat) : Bool := decide (x < y + m ∧ y < x + n)

/-- No two of a list stand in a relation. -/
def pairless {α : Type} (p : α → α → Bool) : List α → Bool
  | [] => true
  | x :: xs => !(xs.any fun y => p x y) && pairless p xs

/-- Reserved bytes and bits of the section bodies (R34): the section that breaks them, if one does. -/
def rigReserved (l : List RigSec) : Option Nat :=
  let b := secBody l
  let w := fun (t o n m : Nat) => (words4 (b t) o n).any fun x => decide (x.toNat &&& m ≠ 0)
  let bad : List (Nat × Bool) :=
    [(1, !allZero (sub (b 1) 2 2) || (sub (b 1) 4 256).any fun x => decide (32 ≤ x.toNat)),
     (2, w 2 0 16 0xFFFFFFC0),
     (3, !allZero (sub (b 3) 1 3) || w 3 4 4 0x0000FFFC),
     (4, decide (2 ≤ leAt (b 4) 0 1) || decide (leAt (b 4) 1 1 ≠ 0) || (secVer l 4 == 2 && !allZero (sub (b 4) 5 3))),
     (5, !allZero (sub (b 5) 3 13)),
     (6, !allZero (sub (b 6) 2 2) || (List.range (leAt (b 6) 0 2)).any fun i => decide (16384 ≤ leAt (b 6) (4 + 8 * i) 2)),
     (7, w 7 0 30 0x0000FFFC),
     (8, decide (4 ≤ leAt (b 8) 0 1) || decide (4 ≤ leAt (b 8) 1 1) || !allZero (sub (b 8) 2 2)),
     (0x10, !allZero (sub (b 0x10) 1 3) || (List.range (leAt (b 0x10) 0 1)).any fun i => decide (512 ≤ leAt (b 0x10) (4 + 16 * i + 12) 4)),
     (0x11, w 0x11 0 1024 (if secVer l 0x11 = 1 then 0xFFC000F0 else 0xFFC000E0)),
     (0x12, w 0x12 0 16 (if secVer l 0x12 = 1 then 0xFFFFFFE0 else 0xFFFFFFC0))]
  (bad.find? (·.2)).map (·.1)

/-- The checks of code 0x0B in the table's order; `ev`: code and section. -/
def rigFields (r : Rig) (l : List RigSec) : Except RigErr Unit := do
  -- SLICES
  need (r.active != 0) 0x0B 1
  need (r.ilv.all fun e => r.active.getLsbD (e.toNat % 8) && !e.getLsbD 4) 0x0B 1
  need (r.paired || r.ilv.all fun e => !e.getLsbD 3) 0x0B 1
  need (!r.paired || (r.ilv.any fun e => e.getLsbD 3) && r.ilv.any fun e => !e.getLsbD 3) 0x0B 1
  -- BACKING
  need (r.ways == 1 || r.ways == 2 || r.ways == 4) 0x0B 3
  need ((List.range 4).all fun p => rigUses r p == ((r.back.getD p 0).getLsbD 0 && decide (1 ≤ rigCap r p))) 0x0B 3
  need (!r.paired || (List.range 4).all fun p => !rigUses r p || (r.back.getD p 0).getLsbD 1) 0x0B 3
  -- field values
  need (r.ports.all fun x => bits x.toNat 1 2 != 3 && bits x.toNat 3 2 != 3) 0x0B 2
  need (r.shroudSpd != 3) 0x0B 8
  need ((List.range 4).all fun p => decide (rigCap r p ≤ 1024)) 0x0B 3
  need ((List.range r.queues.length).all fun i => decide (leAt (secBody l 6) (9 + 8 * i) 1 ≤ 1)) 0x0B 6
  need (r.queues.all fun x => decide (1 ≤ x.num ∧ x.owner ≤ 0x11 ∧ 2 ≤ x.depth)) 0x0B 6
  need (decide (r.regions.length ≤ 64) && r.regions.all fun x => decide (1 ≤ x.size)) 0x0B 0x10
  match rigReserved l with
  | some t => .error (0x0B, t)
  | none => .ok ()
  -- COHERENCE
  need (!r.fpm || decide (16 ≤ r.hold ∧ r.hold ≤ 1024)) 0x0B 4
  need (secVer l 4 == 1 || decide (leAt (secBody l 4) 4 1 ≤ 1)) 0x0B 4
  -- PROTOCOL
  need (decide (1 ≤ r.table.length ∧ r.table.length ≤ 4096 ∧ 1 ≤ r.tstates ∧ r.tstates ≤ 32)) 0x0B 5
  need (r.table.all fun e => decide ((pent e).cur < 4 + r.tstates ∧ ((pent e).nxt ≤ 35 → (pent e).nxt < 4 + r.tstates))) 0x0B 5
  need (coverage r.table) 0x0B 5
  -- QUEUES
  need (r.queues.all fun x => decide (x.first + x.num ≤ 16384)) 0x0B 6
  need (pairless (fun x y => overlap x.first x.num y.first y.num) r.queues) 0x0B 6
  need (decide ((r.queues.map fun x => x.num * x.depth).sum ≤ 524288)) 0x0B 6
  -- POWER
  need (r.power.getD 0 0 == 0) 0x0B 7
  -- REGIONS
  let top := r.ways * ((List.range r.ways).map (rigCap r)).foldl min 1024 * 2 ^ 30
  need (r.regions.all fun x => decide (x.base % 2097152 = 0 ∧ x.base + x.size * 2097152 ≤ top)) 0x0B 0x10
  need (pairless (fun x y => overlap x.base (x.size * 2097152) y.base (y.size * 2097152)) r.regions) 0x0B 0x10
  need (r.regions.all fun x => !x.attr.getLsbD 6 || (x.attr.getLsbD 2 && r.paired)) 0x0B 0x10
  need (r.regions.all fun x => !x.attr.getLsbD 5 || x.attr.getLsbD 2) 0x0B 0x10
  need (r.regions.all fun x => !x.attr.getLsbD 8) 0x0B 0x10
  -- EVENTS
  need (r.events.all fun x => !x.getLsbD 2 || r.queues.any fun q =>
    decide (q.first ≤ bits x.toNat 8 14 ∧ bits x.toNat 8 14 < q.first + q.num ∧ (q.owner < 16 ∨ q.owner = 0x11))) 0x0B 0x11

/-- Every check of R55 on the image whose bytes `rd` gives; `loaded`: the rig in force, for a reload. -/
def rigCheck (fu : Fuses) (slot : Bool) (rd : Nat → Nat → List Byte) (loaded : Option Rig) : Except RigErr Rig := do
  let h := rd 0 64
  need (h.take 4 == [0x4B, 0x52, 0x59, 0x54]) 0x01 0
  let fmt := leAt h 4 2
  let known := fmt == 2 || fmt == 3
  let hl := if fmt = 2 then 48 else 64
  let total := leAt h 8 4
  let cnt := leAt h 12 2
  let dirOff := if fmt = 2 then leAt h 20 4 else leAt h 24 4
  let sigOff := if fmt = 2 then leAt h 24 4 else leAt h 28 4
  need (!known || (leAt h 6 2 == hl && dirOff == hl && sigOff % 16 == 0 && total == sigOff + 208 && decide (total ≤ 0x100000 ∧ hl ≤ sigOff))) 0x02 0
  need (leAt h 16 4 == 0x6416) 0x03 0
  need known 0x04 0
  need (allZero (sub h 14 2) && (if fmt = 2 then allZero (sub h 32 16) else allZero (sub h 36 28))) 0x05 0
  need (decide (1 ≤ cnt ∧ cnt ≤ 16 ∧ dirOff + 16 * cnt ≤ sigOff)) 0x05 0
  let l := rigDir rd dirOff cnt
  need ((List.range cnt).all fun i => let e := rd (dirOff + 16 * i) 16; allZero (sub e 2 2) && allZero (sub e 12 4)) 0x05 0
  need ((l.zip l.tail).all fun x => decide (x.1.type < x.2.type ∧ x.1.off < x.2.off)) 0x05 0
  need (l.all fun s => decide (16 ≤ s.len ∧ s.off % 16 = 0 ∧ s.off + s.len ≤ sigOff)) 0x05 0
  need ((((dirOff + 16 * cnt) :: l.map fun s => pad16 (s.off + s.len)).zip (l.map (·.off) ++ [sigOff])).all fun x => x.1 == x.2) 0x05 0
  match l.find? fun s => !(s.htype == s.type && s.blen + 16 == s.len && allZero (rd (s.off + 12) 4) &&
      allZero (rd (s.off + s.len) (pad16 (s.off + s.len) - (s.off + s.len)))) with
  | some s => .error (0x05, s.type)
  | none => .ok ()
  let sig := rd sigOff 208
  need (allZero (sub sig 1 15)) 0x05 0
  match l.find? fun s => !(rigTypes.any fun t => t.1 == s.type) with
  | some s => .error (0x06, s.type)
  | none => .ok ()
  match rigTypes.find? fun t => t.2.2 && !(l.any fun s => s.type == t.1) with
  | some t => .error (0x06, t.1)
  | none => .ok ()
  match l.find? fun s => !((rigTypes.any fun t => t.1 == s.type && t.2.1.contains s.sver) && s.blen == rigBodyLen s) with
  | some s => .error (0x07, s.type)
  | none => .ok ()
  match l.find? fun s => (crc32 s.body).toNat != s.crc with
  | some s => .error (0x08, s.type)
  | none => .ok ()
  need (keyAccepted fu (leAt sig 0 1) (sub sig 16 96)) 0x09 0
  need (ecdsaVerify (leAt sig 16 48) (leAt sig 64 48) (leAt sig 112 48) (leAt sig 160 48) (sha384 (rd 0 sigOff))) 0x0A 0
  let r := rigOf slot fmt (if fmt = 2 then 0 else leAt h 20 4) l
  rigFields r l
  match loaded with
  | none => .ok ()
  | some o => do
    need (decide (o.seq < r.seq)) 0x0C 0
    let struct := fun (x : Rig) => x.secs.filter fun s => !decide (0x10 ≤ s.1 ∧ s.1 ≤ 0x1F)
    match (struct r ++ struct o).find? fun s => !((struct r).contains s && (struct o).contains s) with
    | some s => .error (0x0D, s.1)
    | none => .ok ()
  pure r

/-! ## Start-up load (R57 to R59) -/

/-- The candidates in the order they are tried: area, image bytes. -/
def rigCandidates (f : List Host.Cell) : List Bool :=
  let rank := fun (s : Bool) =>
    let h := flashRead f (flRig s) 64
    if leAt h 4 2 = 3 then leAt h 20 4 else 0
  let c := [false, true].filter fun s => flashRead f (flRig s) 4 == [0x4B, 0x52, 0x59, 0x54]
  match c with
  | [a, b] => if rank a < rank b then [b, a] else [a, b]
  | l => l

namespace Data

/-- Puts the sections of a loaded rig in force (R58). -/
def rigApply (d : Data) (r : Rig) : Data :=
  { d with
    rig := some r
    ilv := Vector.ofFn fun i : Fin 256 => r.ilv.getD i.val 0
    touchDem := (List.range 64).foldl (fun (m : BitVec 64) n =>
      match r.regions[n]? with
      | some x => setBit m n (bits x.attr.toNat 7 2 == 1 && decide (2048 < x.size))
      | none => m) 0 }

/-- Records a failed load or reload (R56). -/
def rigFail (d : Data) (e : RigErr) (ev : Nat) : Data :=
  { d with rigErr := e.1, rigErrSec := e.2 }.ev ev

/-- Tries the candidates at start-up: the first to pass is loaded. -/
def rigTry (f : List Host.Cell) : List Bool → Data → Data
  | [], d => d
  | s :: rest, d =>
    match rigCheck d.fuses s (fun o n => flashRead f (flRig s + o) n) none with
    | .ok r => d.rigApply r
    | .error e =>
      let d := d.rigFail e 80
      rigTry f rest { d with rigFallback := d.rigFallback || !rest.isEmpty }

/-- The start-up load of the rig: EV0080 for each candidate that fails and where none passes (R56, R59). -/
def rigLoad (d : Data) (f : List Host.Cell) : Data :=
  let d := rigTry f (rigCandidates f) { d with rig := none, rigErr := 0, rigErrSec := 0, rigFallback := false }
  if d.rig.isNone then d.ev 80 else d

end Data

/-! ## The default rig (R52, R20, R294) -/

/-- The default rig: `cap` is the author's CAP of each backing port in GiB. -/
def defaultRig (cap : Vector Nat 4) : Rig :=
  { seq := 1, active := 0xFF
    ilv := (List.range 256).map fun b => BitVec.ofNat 8 (b % 8)
    ports := List.replicate 16 0x21
    ways := 4, back := cap.toList.map fun c => BitVec.ofNat 32 (1 + c * 65536)
    fpm := true, hold := 64
    table := defaultTable, tstates := 11
    queues := ((List.range 16).flatMap fun n =>
        [{ first := 960 * n, num := 896, owner := n, policy := false, depth := 32 },
         { first := 960 * n + 896, num := 64, owner := n, policy := true, depth := 32 }]) ++
      [{ first := 15360, num := 512, owner := 0x10, policy := false, depth := 32 },
       { first := 15872, num := 512, owner := 0x11, policy := true, depth := 32 }]
    power := (List.range 30).map fun i =>
      if i = 0 ∨ i = 29 then 0 else if i = 1 ∨ i = 27 ∨ i = 28 then 1 + 100 * 65536 else 1 + 10 * 65536
    regions := [{ base := 0, size := 4 * (cap.toList.foldl min cap[0]) * 512, attr := 0x2F }]
    events := (List.range 1024).map fun s =>
      let v := severity s
      BitVec.ofNat 32 (1 + (if v ≤ 2 then 2 else 0) + (if v ≤ 1 then 8 else 0) + (if v ≤ 3 then 16 else 0))
    perms := List.replicate 16 0x2D }

end Sys2Proof.Machine
end

