-- ==== Sys2Proof/Machine/Reload.lean ====
section
/-!
DEFINITION. Reloading the runtime sections (R61 to R66, R127): start, ranges, readiness, switch and abandonment.
-/

namespace Sys2Proof.Machine

/-- What the region tables say of an address: the attribute word, or nothing in no region. -/
def attrOpt (rs : List Region) (ga : Nat) : Option Word := (regionIn rs ga).map fun x => x.2.attr

/-- Granules at which some region begins or ends, rising. -/
def regionEdges (rs : List Region) : List Nat :=
  rs.foldl (fun l r => insNat (r.base / 64) (insNat (r.base / 64 + r.size * 32768) l)) []

/-- Granule ranges on which `p` holds of the two tables. -/
def regionDiff (p : Option Word → Option Word → Bool) (old new : List Region) : List (Nat × Nat) :=
  let e := regionEdges (old ++ new)
  (e.zip e.tail).filter fun x => p (attrOpt old x.1) (attrOpt new x.1)

/-- An affected range (R61, step 4). -/
def affected (a b : Option Word) : Bool := a != b
/-- A range that step 6 cleans: more differs than ALLOC_RD, STREAM and SEAL. -/
def cleansed (a b : Option Word) : Bool :=
  match a, b with
  | some x, some y => ((x ^^^ y) &&& 0xFFFFFFC7) != 0
  | none, none => false
  | _, _ => true

namespace Data

/-- Ends a reload that has not switched, with an error (R63). -/
def reloadAbandon (d : Data) (code : Nat) : Data :=
  match d.reload with
  | none => d
  | some _ =>
    let mine := (d.mnts.filter fun t => t.owner == .reload).map (·.id)
    let d := allSlices.foldl (fun (d : Data) n => d.modSlice n fun s => { s with mnt := s.mnt.filter fun o => !mine.contains o.id }) d
    let d := { d with reload := none, mnts := d.mnts.filter fun t => !mine.contains t.id }
    (d.modPair fun p => { p with rld := none }).rigFail (code, 0) 82

/-- Some granule of the ranges is in state X or O, on die, in the spill buffer or in the backstop (R61, step 6). -/
def rangeOwned (d : Data) (rs : List (Nat × Nat)) : Bool :=
  !rs.isEmpty && d.serving.any fun n => (d.dirAll n).any fun e =>
    (e.base == .x || e.base == .o) && rs.any fun x => decide (x.1 ≤ e.ga ∧ e.ga < x.2)

/-- GO of RIG_RELOAD: `f` is the flash. -/
def reloadGo (d : Data) (f : List Host.Cell) : Data :=
  if d.reload.isSome then { d with rigBusyGo := true }.stamp Reg.rigStat 0x10
  else if d.byp ≠ 0 then d.rigFail (0x12, 0) 82
  else
    let d := { d with rigErr := 0, rigErrSec := 0 }
    let o : Rig := d.rig.getD {}
    let slot := !(d.rig.isSome && o.slot)
    match rigCheck d.fuses slot (fun a n => flashRead f (flRig slot + a) n) (some o) with
    | .error e => d.rigFail e 82
    | .ok r =>
      let clean := regionDiff cleansed o.regions r.regions
      let d := { d with reload := some { rig := r, start := d.now, hold := regionDiff affected o.regions r.regions, clean := clean } }
      if d.rangeOwned clean then d.reloadAbandon 0x0E
      else clean.foldl (fun (d : Data) x => d.mntAccept .reload d.serving 2 0 (x.1 / 32) (x.2 / 32) 0 0 none) d

/-- No transaction accepted before the hold is open in an affected range (R61, step 7). -/
def reloadQuiet (d : Data) (r : Reload) : Bool :=
  let inR := fun (ga : Nat) => r.hold.any fun x => decide (x.1 ≤ ga ∧ ga < x.2)
  allSlices.all fun n => d.slices[n].htes.all (fun h => !inR h.ga) && d.slices[n].waiters.all fun w => !inR w.kind.ga

/-- Puts the three sections in force in one cycle (R61, R62, R80, R81). -/
def reloadApply (d : Data) (r : Rig) : Data :=
  let o : Rig := d.rig.getD {}
  let diff := (List.range 64).filter fun n =>
    match o.regions[n]?, r.regions[n]? with
    | some x, some y => x.base != y.base || x.size != y.size || bits x.attr.toNat 7 2 != bits y.attr.toNat 7 2
    | none, none => false
    | _, _ => true
  let mine := fun (x : Nat × BitVec 544) => match touchWin x.1 with | some w => diff.contains w | none => false
  let prev : OldRegions := { regions := o.regions, diff := diff, touch := d.store.cw.filter mine, dem := d.touchDem }
  let d := diff.foldl (fun (d : Data) n => d.touchClear n) d
  let ilv := d.ilv
  let d := { d.rigApply { o with slot := r.slot, fmt := r.fmt, seq := r.seq, regions := r.regions, events := r.events, perms := r.perms, secs := r.secs } with ilv := ilv }
  let ageW : Waiter → Waiter := fun w => { w with old := w.loc != .input }
  let ageH : Hte → Hte := fun h => { h with old := true }
  let ageS : Slice → Slice := fun s => { s with waiters := s.waiters.map ageW, htes := s.htes.map ageH }
  let ageI : SealItem → SealItem := fun i => { i with old := true }
  let d : Data := { d with prev := some prev, slices := d.slices.map ageS }
  let d := d.modHlm fun h => { h with lanes := h.lanes.map fun l => l.map ageI }
  ({ d with reload := none, mnts := d.mnts.filter fun (t : MntTrack) => t.owner != MntOwner.reload }.modPair fun p => { p with rld := none }).ev 81

/-- Something accepted before the last switch cycle is still open. -/
def oldOpen (d : Data) : Bool :=
  (allSlices.any fun n => (d.slices[n].waiters.any fun w => w.old) || d.slices[n].htes.any fun h => h.old) ||
    d.hlm.lanes.toList.any fun l => match l with | some i => i.old | none => false

/-- The table before the last switch cycle goes with the last of them. -/
def prevSettle (d : Data) : Data := if d.prev.isSome && !d.oldOpen then { d with prev := none } else d

/-- The partner has reported readiness for the image that this device staged, and its own reload has not run out since (R65): the
two images agree where their RIG_SEQ do, which is what RLD carries (assumption 76). -/
def reloadMate (d : Data) (r : Reload) : Bool :=
  d.pair.st != .paired || (d.pair.rld == some (BitVec.ofNat 32 r.rig.seq) && decide (r.readyAt < d.pair.rldAt + ms 10))

/-- RELOAD_SWITCH. -/
def reloadSwitch (d : Data) : Data :=
  match d.reload with
  | none => d
  | some r => if r.ready && d.reloadQuiet r && d.reloadMate r then d.reloadApply r.rig else d

/-- Step 6 ends once every clean-and-invalidate has completed; in a pair readiness is reported (R65). What abandons a
reload is acted on (R63). -/
def reloadSettle (d : Data) : Data :=
  match d.reload with
  | none => d
  | some r =>
    if d.dur.tr.isSome || r.cut then d.reloadAbandon 0x0F
    else if r.ready || d.mnts.any fun t => t.owner == .reload && !t.left.isEmpty then d
    else
      let d := { d with reload := some { r with ready := true, readyAt := d.now } }
      if d.pair.st = .paired then d.shdSend (.rld (BitVec.ofNat 32 r.rig.seq)) else d

/-- RELOAD_TIMEOUT: 50 ms since step 5 began. -/
def reloadTimeout (d : Data) : Data :=
  match d.reload with
  | some r => if r.start + ms 50 ≤ d.now then d.reloadAbandon 0x0F else d
  | none => d

/-- RLD: the partner's readiness. -/
def rldRecv (d : Data) (seq : Word) : Data := if d.pair.st = .paired then d.modPair fun p => { p with rld := some seq, rldAt := d.now } else d

/-- RELOAD_PARTNER_TIMEOUT: 10 ms since this device reported readiness. -/
def reloadPartnerTimeout (d : Data) : Data :=
  match d.reload with
  | some r =>
    if r.ready && !d.reloadMate r && decide (r.readyAt + ms 10 ≤ d.now) then d.reloadAbandon 0x11 else d
  | none => d

end Data

end Sys2Proof.Machine
end

