-- ==== Sys2Proof/Machine/Settings.lean ====
section
/-!
DEFINITION. The settings store (R374) and the log ring (R377) on the flash. Tag numbers and the layout of a tagged value
and of a log entry are the model's (assumption 25).
-/

namespace Sys2Proof.Machine

/-! ## Slots -/

/-- A settings slot as stored: SFMT, GEN, body; nothing where its header or CRC is wrong. -/
def setSlotRead (f : List Host.Cell) (s : Bool) : Option (Nat × Nat × List Byte) :=
  let h := flashRead f (flSettings s) 32
  let len := leAt h 10 4
  if sub h 0 4 == [0x4B, 0x53, 0x45, 0x54] && decide (len ≤ 0x100000 - 32) then
    let b := flashRead f (flSettings s + 32) len
    if (crc32 b).toNat = leAt h 14 4 then some (leAt h 4 2, leAt h 6 4, b) else none
  else none

/-- The bytes of a slot. -/
def setSlotBytes (sfmt gen : Nat) (b : List Byte) : List Byte :=
  [0x4B, 0x53, 0x45, 0x54] ++ leBytes 2 sfmt ++ leBytes 4 gen ++ leBytes 4 b.length ++ leBytes 4 (crc32 b).toNat ++ List.replicate 14 0 ++ b

/-- The slot that firmware of settings version `ver` reads: the valid one of highest GEN whose SFMT it supports. -/
def setPick (f : List Host.Cell) (ver : Nat) : Option Bool :=
  let ok := fun (s : Bool) => match setSlotRead f s with | some (v, g, _) => if v ≤ ver then some g else none | none => none
  match ok false, ok true with
  | some a, some b => some (decide (a < b))
  | some _, none => some false
  | none, some _ => some true
  | none, none => none

/-- Tagged values: TAG in 2 bytes, length in 4, value. `k` bounds their number. -/
def setItems : Nat → List Byte → List (Nat × List Byte)
  | 0, _ => []
  | k + 1, b =>
    if b.length < 6 then []
    else (leAt b 0 2, sub b 6 (leAt b 2 4)) :: setItems k (b.drop (6 + leAt b 2 4))

/-! ## Flash operations of firmware -/

namespace Mgmt

/-- No block of the `n` bytes from offset `o` fails. -/
def flashSound (m : Mgmt) (o n : Nat) : Bool := m.flashBad.all fun b => decide ((b + 1) * flBlock ≤ o) || decide (o + n ≤ b * flBlock)

/-- A flash operation on `n` bytes from offset `o`: where a block fails, the bytes stay and the failure is kept for event 24 (R377). -/
def flashOp (m : Mgmt) (o n : Nat) (f : List Host.Cell → List Host.Cell) : Mgmt :=
  if m.flashSound o n then { m with flash := f m.flash } else { m with flashErr := true }

def prog (m : Mgmt) (o : Nat) (l : List Byte) : Mgmt := m.flashOp o l.length fun f => flashProg f o l
def erase (m : Mgmt) (o n : Nat) : Mgmt := m.flashOp o n fun f => flashErase f o n

end Mgmt

def setBytes (l : List (Nat × List Byte)) : List Byte := l.flatMap fun x => leBytes 2 x.1 ++ leBytes 4 x.2.length ++ x.2

/-- Tags (assumption 25). -/
def tagIpv4 : Nat := 0x01
def tagIpv6 : Nat := 0x02
def tagKey (k : Nat) : Nat := 0x10 + k
def tagChainUpd : Nat := 0x40
def tagChainAuto : Nat := 0x41
def tagAutoConfirm : Nat := 0x42
def tagRemap : Nat := 0x50
def tagRet : Nat := 0x51

namespace Mgmt

/-- The tagged values that the running firmware reads. -/
def settings (m : Mgmt) : List (Nat × List Byte) :=
  match m.setSlot with
  | some s =>
    match setSlotRead m.flash s with
    | some (_, _, b) => setItems b.length b
    | none => []
  | none => []

/-- A tag's value. -/
def setting (m : Mgmt) (t : Nat) : Option (List Byte) := (m.settings.find? fun x => x.1 == t).map (·.2)
def setOn (m : Mgmt) (t : Nat) : Bool := match m.setting t with | some (b :: _) => b == 1 | _ => false

/-- Writes a body to slot `s` with generation `gen`. -/
def setStore (m : Mgmt) (s : Bool) (gen : Nat) (b : List Byte) : Mgmt :=
  { (m.erase (flSettings s) 0x100000).prog (flSettings s) (setSlotBytes m.setVer gen b) with setSlot := some s }

/-- Writes tagged values: to the other slot with GEN + 1, or to the migrated slot while the image is on trial. -/
def setWrites (m : Mgmt) (vs : List (Nat × List Byte)) : Mgmt :=
  let l := (m.settings.filter fun x => !(vs.any fun v => v.1 == x.1)) ++ vs
  let cur := m.setSlot.getD true
  let gen := match setSlotRead m.flash cur with | some (_, g, _) => g | none => 0
  m.setStore (if m.act.trial && m.setMigrated then cur else !cur) (gen + 1) (setBytes l)

/-- Writes one tagged value. -/
def setWrite (m : Mgmt) (t : Nat) (v : List Byte) : Mgmt := m.setWrites [(t, v)]

/-- What firmware does with the settings as it starts: the slot it reads, and a migrated copy where its version is
higher; whether it migrated and whether a slot is invalid. -/
def setStart (m : Mgmt) : Mgmt × Bool × Bool :=
  let bad := (!(setSlotRead m.flash false).isSome && flashRead m.flash (flSettings false) 4 != List.replicate 4 0xFF) ||
    (!(setSlotRead m.flash true).isSome && flashRead m.flash (flSettings true) 4 != List.replicate 4 0xFF)
  match setPick m.flash m.setVer with
  | none => ({ m with setSlot := none, setMigrated := false }, false, bad)
  | some s =>
    match setSlotRead m.flash s with
    | some (v, g, b) =>
      if v < m.setVer then ({ m.setStore (!s) (g + 1) b with setMigrated := true }, true, bad)
      else
        let older := match setSlotRead m.flash (!s) with | some (w, _, _) => decide (w < m.setVer) | none => false
        ({ m with setSlot := some s, setMigrated := m.act.trial && older }, false, bad)
    | none => ({ m with setSlot := none, setMigrated := false }, false, bad)

/-! ## The remap list and the RET bits (R87, R88) -/

/-- As tagged values: eight bytes a spare row (pseudo-channel, row), eight bytes a set with retired ways (set, slice, RET). -/
def remapBytes (l : List (Nat × Nat)) : List Byte := l.flatMap fun x => leBytes 4 x.1 ++ leBytes 4 x.2
def retBytes (d : Data) : List Byte :=
  allSlices.flatMap fun n => d.slices[n].sets.flatMap fun x =>
    if x.2.ret = 0 then [] else leBytes 4 x.1 ++ leBytes 1 n.val ++ leBytes 2 x.2.ret.toNat ++ leBytes 1 0

/-- The eight-byte entries of a tagged value. -/
def keptWords (m : Mgmt) (t : Nat) : List (List Byte) :=
  match m.setting t with
  | some v => (List.range (v.length / 8)).map fun i => sub v (8 * i) 8
  | none => []

/-- What start-up restores before the store initialises. -/
def keptRestore (m : Mgmt) (d : Data) : Data :=
  let remap := (m.keptWords tagRemap).map fun w => (leAt w 0 4, leAt w 4 4)
  let full := (List.range 32).any fun pc => decide (2048 ≤ (remap.filter fun x => x.1 == pc).length)
  let d := d.modStore fun s => { s with remap := remap, exhausted := full }
  (m.keptWords tagRet).foldl (fun (d : Data) w =>
    d.modSet (Fin.ofNat 8 (leAt w 4 1)) (leAt w 0 4) fun x => { x with ret := BitVec.ofNat 16 (leAt w 5 2) }) d

/-! ## Network addresses (R355) -/

/-- The IPv6 link-local address of a MAC address, as a modified EUI-64. -/
def linkLocal (mac : BitVec 48) : List Byte :=
  let b := (leBytes 6 mac.toNat).reverse
  [0xFE, 0x80, 0, 0, 0, 0, 0, 0] ++ [b.getD 0 0 ^^^ 2] ++ sub b 1 2 ++ [0xFF, 0xFE] ++ sub b 3 3

/-- The addresses that the device holds: IPv4 where the settings store has one, the link-local one always, and the IPv6 addresses
of the settings store. -/
def addresses (m : Mgmt) (fu : Fuses) : List (List Byte) :=
  let v6 := (m.setting tagIpv6).getD []
  ((m.setting tagIpv4).toList.map fun v => v.take 4) ++ [linkLocal fu.mac] ++ (List.range (v6.length / 16)).map fun i => sub v6 (16 * i) 16

/-! ## Keys and rights (R357) -/

/-- The 32 bytes of a key slot; nothing where it is empty. -/
def key (m : Mgmt) (k : Fin 4) : Option (List Byte) :=
  match m.setting (tagKey k.val) with
  | some l => if 33 ≤ l.length then some (sub l 1 32) else none
  | none => none

/-- Rights of a slot: bit 0 READ, 1 WRITE, 2 UPDATE, 3 KEYS; slot 0 holds all. -/
def rights (m : Mgmt) (k : Fin 4) : Nat :=
  if k = 0 then 15 else match m.setting (tagKey k.val) with | some (b :: _) => b.toNat % 16 | _ => 0

/-! ## The log ring (R377) -/

/-- Appends an 8-byte entry; entering a block that holds the oldest entries erases it. -/
def logAdd (m : Mgmt) (e : Dword) : Mgmt :=
  let p := m.logPos
  let full := decide (flImage ≤ m.logLen)
  let y := if full ∧ p % flBlock = 0 then m.erase (flLog + p) flBlock else m
  let len := if full then m.logLen - flBlock else m.logLen
  { y.prog (flLog + p) (leBytes 8 e.toNat) with logPos := (p + 8) % flImage, logLen := len + 8 }

/-- Bytes of the ring from its oldest entry. -/
def logRead (m : Mgmt) (o n : Nat) : List Byte :=
  let start := (m.logPos + flImage - m.logLen) % flImage
  let n := min n (m.logLen - o)
  (List.range n).map fun i => flashGet m.flash (flLog + (start + o + i) % flImage)

end Mgmt

end Sys2Proof.Machine
end

