-- ==== Sys2Proof/Machine/Flags.lean ====
section
/-!
DEFINITION. The fields of registers that hardware owns and the model keeps elsewhere in its state: for a register address,
the bits concerned and their value (R67, R128, R156, R174, R215, R255, R276, R290, R310, R334, R353, R378, R405, R422).
-/

namespace Sys2Proof.Machine

/-- Bits of a register that are computed, and their value. -/
abbrev Live := Option (Nat × Nat)

def allBits : Nat := 0xFFFFFFFF

/-- Numbers of link states (R215). -/
def LinkSt.num : LinkSt → Nat
  | .disabled => 0 | .detect => 1 | .train => 2 | .cfg => 3 | .eq32 => 4 | .eq64 => 5 | .init => 6 | .active => 7
  | .recover => 8 | .l1 => 9 | .wake => 10 | .down => 11

/-- Numbers of backing-port states (R255). -/
def BkpSt.num : BkpSt → Nat
  | .down => 0 | .training => 1 | .config => 2 | .ready => 3 | .failed => 4 | .unused => 5

/-- Numbers of the phases of a power failure (R255). -/
def DurPhase.num : DurPhase → Nat
  | .run => 0 | .recalling => 1 | .drain => 2 | .persist => 3 | .journal => 4 | .done => 5

/-- A 32-bit word of a wider bit vector. -/
def word {w : Nat} (x : BitVec w) (k : Nat) : Nat := (x.extractLsb' (32 * k) 32).toNat

/-- Credits available toward the peer (R194). -/
def Link.avail (l : Link) (c : Fin 5) : Nat := (l.recv[c].toNat + 4096 - l.used[c] % 4096) % 4096

namespace Data

/-- REG_STAT as the bank of a requester shows it (R353). -/
def bankWord (d : Data) (r : Requester) : Nat :=
  let b := d.banks[r]
  b2n b.accErr + at_ (b2n b.reefed) 1 + at_ (b2n (!b.posted.isEmpty)) 2 + at_ (b2n b.pwait) 3 + at_ (b2n d.compact) 4 + at_ b.cause.toNat 8

def liveTop (d : Data) (r : Requester) (a : Nat) : Live :=
  if a = Reg.regStat then some (allBits, d.bankWord r)
  else if a = Reg.regErraddr then some (allBits, d.banks[r].errAddr.toNat)
  else if a = Reg.topCbypLo then some (allBits, word d.byp 0)
  else if a = Reg.topCbypHi then some (allBits, word d.byp 1)
  else if a = Reg.topCbypStaleLo then some (allBits, word d.bypStale 0)
  else if a = Reg.topCbypStaleHi then some (allBits, word d.bypStale 1)
  else if a = Reg.topAiso then some (allBits, (allAgents.map fun p => at_ (b2n d.ports[p].iso) p.val).sum)
  else if a = Reg.topMntStat then some (allBits, (allSlices.map fun n => at_ (b2n (!d.slices[n].mnt.isEmpty)) n.val).sum)
  else if a = Reg.topSlcCtl then some (0x10, at_ (b2n d.svc.proc.isSome) 4)
  else if a = Reg.topSlcStat then some (allBits, d.svc.out.toNat + at_ d.svc.fault.toNat 8 + at_ d.svc.salv.toNat 16)
  else if a = Reg.topArts then some (0x10, at_ (b2n d.svc.arts.isSome) 4)
  else none

def livePwr (d : Data) (a : Nat) : Live :=
  if a = Reg.pwrDomCtl then
    some (0x80, at_ (b2n (match d.pwr.ctl with
      | some i => (match d.pwr.dom[Fin.ofNat 30 i] with | .waking _ => true | .reefing _ _ => true | _ => false)
      | none => false)) 7)
  else if a = Reg.pwrDomStat then some (allBits, (allDoms.map fun i => at_ (b2n (d.domUp i)) i.val).sum + at_ (b2n d.storeAwake) 30)
  else if a = Reg.pwrRstCause then some (allBits, d.pwr.cause.toNat + at_ (b2n d.pwr.flushed) 3 + at_ d.pwr.step.toNat 4)
  else if a = Reg.pwrStrap then
    some (allBits, b2n d.pwr.mgtMode + at_ (b2n d.pwr.chainHead) 1 + at_ (b2n d.pwr.scanEn) 2 + at_ (b2n d.pwr.disagree) 3)
  else if a = Reg.pwrBootTime then some (allBits, min 0xFFFFFF d.pwr.bootUs)
  else if a = Reg.clkStat then
    some (allBits, b2n d.pwr.xfail + at_ d.pwr.refbad.toNat 1 + at_ (b2n (d.domUp 1 && !d.pwr.pllBad.getLsbD 1)) 5 +
      at_ (b2n (d.domUp 2 && !d.pwr.pllBad.getLsbD 2)) 6 +
      (allSlices.map fun n => at_ (b2n (d.storeAwake && !d.pwr.pllBad.getLsbD (3 + n.val))) (7 + n.val)).sum)
  else none

def liveEvt (d : Data) (a : Nat) : Live :=
  if a = Reg.evtStat then some (0x3FFD, b2n (!d.domUp 2) + at_ d.evt.list.length 2)
  else if a = Reg.evtForce then some (0x400, at_ (b2n d.evt.goUntil) 10)
  else if 0x30100 ≤ a ∧ a < 0x30180 then some (allBits, word d.evt.pend ((a - 0x30100) / 4))
  else if a = Reg.pmcCtl then some (3, b2n d.pmc.snap + at_ (b2n d.pmc.clr) 1)
  else if a = Reg.pmcStat then some (allBits, d.pmc.seq.toNat + at_ (b2n d.pmc.rloss) 16 + at_ (b2n (d.pmc.ovf != 0)) 17)
  else if 0x40010 ≤ a ∧ a < 0x40050 then some (allBits, word d.pmc.ovf ((a - 0x40010) / 4))
  else if 0x40050 ≤ a ∧ a < 0x40070 then some (allBits, word d.pmc.chainNew ((a - 0x40050) / 4))
  else if a = Reg.pmcSmpStat then some (allBits, (allSlices.map fun n => d.slices[n].samples.length).sum)
  else if a = Reg.queStat then some (allBits, d.qUsed)
  else if a = Reg.queAlloc then
    some (allBits, match d.rig with | some r => (r.queues.map fun x => x.num * x.depth).sum | none => 0)
  else none

def liveMbx (d : Data) (a : Nat) : Live :=
  let m := d.mbx[Fin.ofNat 8 ((a - 0x60000) / 0x40)]
  let o := (a - 0x60000) % 0x40
  if o = 0 then some (allBits, m.sel.toNat)
  else if o = 4 then
    some (allBits, b2n m.valid + at_ (b2n m.pend) 1 + at_ (b2n m.early) 2 + at_ m.err.toNat 3 + at_ m.owner.val 8)
  else if 0x10 ≤ o then some (allBits, m.data[Fin.ofNat 12 ((o - 0x10) / 4)].toNat)
  else none

def liveShd (d : Data) (a : Nat) : Live :=
  let p := d.pair
  if a = Reg.shdCtl then
    some (3, match p.hand with | some h => if h.giver then (if h.back then 2 else 1) else 0 | none => 0)
  else if a = Reg.shdStat then
    some (allBits, p.st.num + at_ (b2n d.member) 3 + at_ (b2n (d.links[shdLink].st == .active)) 4 + at_ (min 3 p.miss) 5 +
      at_ (b2n p.msync) 7 + at_ (b2n p.pfailRx) 8 + at_ (b2n p.wit) 9)
  else if a = Reg.shdMirStat then some (allBits, p.entries)
  else if a = Reg.shdShadow then some (allBits, (p.shadow.filter fun x => x.2.valid).length)
  else if a = Reg.shdFoLast then some (allBits, min 0xFFFF p.foUs + at_ (b2n p.foKind) 16)
  else none

def liveDur (d : Data) (a : Nat) : Live :=
  let u := d.dur
  if a = Reg.hlmStat then
    some (allBits, b2n d.hlm.run + ((List.finRange 8).map fun k => at_ (b2n d.hlm.lanes[k].isSome) (1 + k.val)).sum + at_ d.tflag 9)
  else if a = Reg.durStat then
    some (allBits, b2n d.bud + at_ (b2n u.cleaning) 1 + at_ (b2n u.past) 2 + at_ u.phase.num 3 + at_ (b2n u.nojrnl) 6 +
      at_ (b2n u.lastLoss) 7 + at_ (b2n u.unrec) 8)
  else if a = Reg.durExpo then some (allBits, u.e)
  else if a = Reg.durRsv then some (allBits, u.rv)
  else if a = Reg.durPeak then some (allBits, u.peak)
  else if a = Reg.durJseq then some (allBits, u.jseq)
  else if a = Reg.durJloc then
    some (allBits, u.pA.val + at_ (b2n u.jA.isSome) 2 + at_ u.pB.val 3 + at_ (b2n u.jB.isSome) 5)
  else none

def liveRig (d : Data) (a : Nat) : Live :=
  let slot := match d.rig with | some r => r.slot | none => false
  if a = Reg.rigStat then
    some (allBits, b2n d.rig.isSome + at_ (b2n slot) 1 + at_ (b2n d.rigFallback) 2 + at_ (b2n d.reload.isSome) 3 +
      at_ (b2n d.rigBusyGo) 4 + at_ d.rigErr 8 + at_ d.rigErrSec 16)
  else if a = Reg.rigSeq then some (allBits, match d.rig with | some r => r.seq | none => 0)
  else if a = Reg.rigFmt then some (0xFFFF, match d.rig with | some r => r.fmt.toNat | none => 0)
  else if a = Reg.rigReload then some (1, b2n d.reload.isSome)
  else none

def liveSlc (d : Data) (a : Nat) : Live :=
  let n : SliceId := Fin.ofNat 8 ((a - 0x100000) / 0x10000)
  let o := a % 0x10000
  let s := d.slices[n]
  if o = 0x08 then some (7, at_ (b2n s.cdis) 2)
  else if o = 0x14 then some (0x3F, s.wb.length)
  else if o = 0x18 then some (0x7F, s.mt.length)
  else if o = 0x24 then some (0x3F0000, at_ ((s.side.toList.filter fun e => e.st == .ready).length) 16)
  else if o = 0x60 then
    some (allBits, (s.dir.filter fun x => !x.2.empty).length + at_ s.htes.length 19 + at_ s.spill.length 27)
  else if o = 0x64 then some (allBits, s.bstUsed)
  else if o = 0x88 then some (0x1FF, s.owed.length)
  else if o = 0xA4 then some (0x1F0000, at_ s.hints.length 16)
  else if o = 0xC0 then
    let op := s.mnt.head?
    some (allBits, b2n (!s.mnt.isEmpty) + (match op with
      | some x => at_ x.op 1 + at_ x.scope 4 + at_ x.set 9
      | none => 0) + at_ (min 4 s.mnt.length) 6)
  else none

def liveApt (d : Data) (a : Nat) : Live :=
  let p : Agent := Fin.ofNat 16 ((a - 0x200000) / 0x10000)
  let o := a % 0x10000
  let l := d.links[aptLink p]
  if o = 0x00 then some (0x1FF, l.st.num + at_ (if l.st = .eq32 then 1 else l.rate.toNat) 4 + at_ l.width.toNat 6 + at_ (b2n l.lpok) 8)
  else if o = 0x14 then some (allBits, min 1023 (l.avail 1) + at_ (min 1023 (l.avail 2)) 10 + at_ (min 1023 (l.avail 3)) 20)
  else if o = 0x30 then some (allBits, d.bankWord (Fin.castLE (by decide : 16 ≤ 17) p))
  else if 0x400 ≤ o ∧ o < 0x500 then
    let k := o - 0x400
    some (allBits, ((List.range 4).map fun j => at_ (d.ilvAt (k + j)).toNat (8 * j)).sum)
  else none

def liveBkp (d : Data) (a : Nat) : Live :=
  let b : BkpId := Fin.ofNat 4 ((a - 0x300000) / 0x10000)
  let o := a % 0x10000
  let x := d.bkps[b]
  if o = 0x00 then some (0x7F, x.st.num + at_ x.rate.toNat 3 + at_ (b2n x.capshort) 5 + at_ (b2n x.mhderr) 6)
  else if o = 0x04 then some (allBits, x.capGib)
  else if o = 0x08 then some (allBits, x.p2dur.toNat)
  else if o = 0x20 then some (1, b2n x.returning.isSome)
  else none

def liveSto (d : Data) (a : Nat) : Live :=
  if a = Reg.stoScrubStat then
    let slow := d.store.scrub.toList.foldl min pcCw
    some (0x7F0000, at_ (slow * 100 / pcCw) 16)
  else if a = Reg.stoSpareStat then
    let l := (List.range 32).map fun pc => d.spares pc
    let top := l.foldl max 0
    some (allBits, top + at_ (((List.range 32).find? fun pc => d.spares pc == top).getD 0) 12 + at_ (b2n d.store.exhausted) 17)
  else if a = Reg.stoTouchDemLo then some (allBits, word d.touchDem 0)
  else if a = Reg.stoTouchDemHi then some (allBits, word d.touchDem 1)
  else if a = Reg.tstAssayCtl then some (8, at_ (b2n d.svc.assay.isSome) 3)
  else if a = Reg.tstAssayStat then some (0x3B, b2n d.svc.assayPass + at_ (b2n d.svc.assayFail) 1 + at_ d.svc.struct.toNat 3)
  else none

/-- The descriptor of a queue; all of an unassigned queue's reads as 0 (R310). -/
def liveQue (d : Data) (a : Nat) : Live :=
  let q := (a - 0x1000000) / 0x40
  let o := a % 0x40
  match d.qRec q with
  | none => some (allBits, 0)
  | some r =>
    let x := d.que1 q
    if o = 0x00 then some (allBits, r.owner + at_ (b2n r.policy) 5 + at_ 1 6)
    else if o = 0x04 then some (allBits, d.qBase q)
    else if o = 0x08 then some (allBits, r.depth)
    else if o = 0x0C then
      some (allBits, x.words.length + at_ (b2n x.words.isEmpty) 16 + at_ (b2n (decide (r.depth ≤ x.words.length))) 17 + at_ (b2n x.underrun) 18 +
        at_ (b2n x.resync) 19 + at_ (b2n (x.gapPend != 0)) 20 + at_ (b2n x.stale) 21 + at_ (b2n x.trunc) 22 + at_ (b2n x.lEop) 23 +
        at_ (b2n x.lPsn) 24)
    else if o = 0x10 then some (allBits, d.qPkt q)
    else if o = 0x14 then some (allBits, x.head + at_ x.tail 16)
    else if o = 0x24 then some (allBits, x.gapPend)
    else if o = 0x38 then some (allBits, x.popLo.toNat)
    else if o = 0x3C then some (allBits, x.popHi.toNat)
    else none

end Data

namespace DM

def liveMgt (x : DM) (a : Nat) : Live :=
  let m := x.m
  if a = Reg.fwuStat then
    let lock := match m.lock with | .free => 0 | .host _ => 1 | .chain false => 2 | .chain true => 3
    some (allBits, m.act.cru + at_ m.act.copy 3 + at_ (b2n m.act.trial) 5 + at_ m.act.starts 6 + at_ (b2n m.golden) 8 + at_ (b2n m.act.rolled) 9 +
      at_ lock 10)
  else if a = Reg.fwuActVer then some (allBits, m.runVer.toNat)
  else if a = Reg.fwuCruVer then some (allBits, m.act.cruVer.toNat)
  else if a = Reg.fwuBakVer then some (allBits, m.act.bakVer.toNat)
  else if a = Reg.fwuArb then some (allBits, x.d.fuses.arb + at_ m.imgArb 8)
  else if a = Reg.fwuTrial then some (allBits, m.act.trialSec)
  else if a = Reg.halStat then
    some (allBits, (match m.addr with | some c => c.toNat + at_ 1 6 | none => 0x3F) + at_ (b2n x.d.pwr.chainHead) 7 + at_ (b2n m.chUp.up) 8 +
      at_ (b2n m.chDn.up) 9 + at_ m.lastAddr.toNat 10 + at_ (b2n m.overlong) 16)
  else if a = Reg.halCtl then some (1, 0)
  else if a = Reg.mgtStat then
    some (allBits, b2n m.ethUp + at_ (b2n x.d.pwr.mgtMode) 1 + at_ x.d.tflag 2 + at_ (b2n (m.setting tagIpv4).isSome) 4 +
      at_ ((m.esubs.filter Option.isSome).length) 5)
  else if a = Reg.mgtPtpOfs then some (allBits, x.d.ptp.ofs.toNat)
  else if a = Reg.mgtBoot then some (allBits, m.bootId.toNat)
  else none

/-- The computed bits of a register. -/
def live (x : DM) (r : Requester) (a : Nat) : Live :=
  if a < 0x10000 then x.d.liveTop r a
  else if a < 0x30000 then x.d.livePwr a
  else if a < 0x60000 then x.d.liveEvt a
  else if a < 0x70000 then x.d.liveMbx a
  else if a < 0x90000 then x.liveMgt a
  else if a < 0xA0000 then x.d.liveShd a
  else if a < 0xB0000 then x.liveMgt a
  else if a < 0xD0000 then x.d.liveDur a
  else if a < 0x100000 then x.d.liveRig a
  else if a < 0x200000 then x.d.liveSlc a
  else if a < 0x300000 then x.d.liveApt a
  else if a < 0x400000 then x.d.liveBkp a
  else if a < 0x1000000 then x.d.liveSto a
  else x.d.liveQue a

/-- Bits of a register that a read shows: its fields other than write-only ones. -/
def readMask (r : RegRow) : Nat :=
  (r.flds.map fun f => if f.acc = .wo then 0 else at_ (2 ^ f.n - 1) f.lo).foldl (· ||| ·) 0

/-- What a read of a register returns, apart from side effects (R9, R10). -/
def view (x : DM) (r : Requester) (a : Nat) : Word :=
  match regRow a with
  | none => 0
  | some row =>
    let s := (x.d.reg a).toNat
    let v := match x.live r a with
      | some (m, v) => (s &&& (allBits ^^^ m)) ||| (v &&& m)
      | none => s
    BitVec.ofNat 32 (v &&& readMask row)

end DM

end Sys2Proof.Machine
end

