-- ==== Sys2Proof/Machine/Slots.lean ====
section
/-!
DEFINITION. The slots of The Sirdoa Link (R186 to R190, R209) and of the shroud (R380): what the device sends as slots, and
the fields of what it receives.
-/

namespace Sys2Proof.Machine

/-- A slot of 16 bytes, byte 0 in bits 7:0. -/
abbrev Slot := BitVec 128

/-- Data slots of a granule: bytes 0–15, 16–31, 32–47, 48–63 (R189). -/
def granSlots (g : Gran) : List Slot := (List.range 4).map fun i => g.extractLsb' (128 * i) 128

/-- The granule that the data slots make. -/
def slotsGran (l : List Slot) : Gran := BitVec.ofNat 512 ((l.take 4).zipIdx.map fun x => x.1.toNat * 2 ^ (128 * x.2)).sum

/-- Numbers of the classes in a message field (R188). -/
def clsNum : MsgClass → Nat
  | .req => 0 | .snp => 1 | .rsp => 2 | .dat => 3 | .mgq => 4

/-- The message field of an item toward an agent (R188). -/
def txField (i : TxItem) : Nat :=
  clsNum i.cls + at_ i.op.toNat 3 + at_ i.gaddr.toNat 8 + at_ i.peer.toNat 48 + at_ (b2n i.home) 52 + at_ (b2n i.poison) 53

/-- A MSG slot whose second field is empty (R186, R188). -/
def msgSlot (f : Nat) : Slot := BitVec.ofNat 128 (1 + at_ f 4 + at_ 7 66)

/-- The slots of an item toward an agent. -/
def txSlots (i : TxItem) : List Slot :=
  msgSlot (txField i) :: (match i.data with | some g => granSlots g | none => [])

/-- The MGQ slot of an answer or note (R209). -/
def ansSlot : MgqAns → Slot
  | .regRsp tag st d => BitVec.ofNat 128 (3 + at_ 3 4 + at_ tag.toNat 8 + at_ st.toNat 16 + at_ d.toNat 20)
  | .qWord tag q eop poison empty under st d =>
    BitVec.ofNat 128 (3 + at_ 6 4 + at_ tag.toNat 8 + at_ q.toNat 16 + at_ (b2n eop) 30 + at_ (b2n poison) 31 + at_ (b2n empty) 32 +
      at_ (b2n under) 33 + at_ st.toNat 34 + at_ d.toNat 38)
  | .qAck tag q st => BitVec.ofNat 128 (3 + at_ 7 4 + at_ tag.toNat 8 + at_ q.toNat 16 + at_ st.toNat 30)
  | .qNote q => BitVec.ofNat 128 (3 + at_ 8 4 + at_ q.toNat 16)

/-- A byte-enable slot (R189). -/
def beSlot (be : ByteEn) : Slot := be.zeroExtend 128

/-- The slots of an item toward the partner (R380). -/
def shdSlots : ShdItem → List Slot
  | .hello m ps pid sum => [BitVec.ofNat 128 (4 + at_ 1 4 + at_ (b2n m) 8 + at_ ps.toNat 9 + at_ pid.toNat 12 + at_ sum.toNat 76)]
  | .hb sq ps pf ms b =>
    [BitVec.ofNat 128 (4 + at_ 2 4 + at_ sq.toNat 8 + at_ ps.toNat 16 + at_ (b2n pf) 19 + at_ (b2n ms) 20 + at_ b.toNat 21)]
  | .rld sq => [BitVec.ofNat 128 (4 + at_ 3 4 + at_ sq.toNat 8)]
  | .mwr ga p g => BitVec.ofNat 128 (4 + at_ 4 4 + at_ ga.toNat 8 + at_ (b2n p) 44) :: granSlots g
  | .mclr ga => [BitVec.ofNat 128 (4 + at_ 5 4 + at_ ga.toNat 8)]
  | .swr ga p src e sq be g =>
    BitVec.ofNat 128 (4 + at_ 6 4 + at_ ga.toNat 8 + at_ (b2n p) 44 + at_ src.val 45 + at_ e.toNat 48 + at_ sq.toNat 54) :: beSlot be ::
      granSlots g
  | .sclr src e => [BitVec.ofNat 128 (4 + at_ 7 4 + at_ src.val 45 + at_ e.toNat 48)]
  | .mrd ga tag => [BitVec.ofNat 128 (4 + at_ 8 4 + at_ ga.toNat 8 + at_ tag.toNat 44)]
  | .mdat ga p hit tag g =>
    BitVec.ofNat 128 (4 + at_ 9 4 + at_ ga.toNat 8 + at_ (b2n p) 44 + at_ (b2n hit) 45 + at_ tag.toNat 46) :: (if hit then granSlots g else [])
  | .mfull ga => [BitVec.ofNat 128 (4 + at_ 10 4 + at_ ga.toNat 8)]
  | .dxf e => [BitVec.ofNat 128 (4 + at_ 11 4 + at_ e.toNat 8)]
  | .dxfEnd n => [BitVec.ofNat 128 (4 + at_ 12 4 + at_ n.toNat 8)]

/-- The counter that an STYPE costs credit of (R380, R381): MIR in CR_REQ, CTL in CR_SNP, ANS in CR_RSP, DAT in CR_DAT. -/
def stypeCredit (t : Nat) : Option (Fin 5) :=
  if t = 1 ∨ t = 2 ∨ t = 3 then some 1
  else if t = 9 then some 3
  else if t = 10 then some 2
  else if 4 ≤ t ∧ t ≤ 12 then some 0
  else none

/-- The counter of an item toward the partner. -/
def shdCredit : ShdItem → Fin 5
  | .hello .. | .hb .. | .rld .. => 1
  | .mdat .. => 3
  | .mfull .. => 2
  | .mwr .. | .mclr .. | .swr .. | .sclr .. | .mrd .. | .dxf .. | .dxfEnd .. => 0

/-- The counter of an item toward an agent. -/
def txCredit (c : MsgClass) : Fin 5 :=
  match c with
  | .req => 0 | .snp => 1 | .rsp => 2 | .dat => 3 | .mgq => 4

/-- Data slots that a message field carries (R189). -/
def fieldNeed (f : Nat) : Nat :=
  let cls := bits f 0 3
  let op := bits f 3 5
  if cls = 0 ∧ op = 4 then 4 + bits f 55 1 else if (cls = 0 ∧ op = 6) ∨ cls = 3 then 4 else 0

/-- Data slots that an SHD slot carries (R380). -/
def shdNeed (s : Nat) : Nat :=
  let t := bits s 4 4
  if t = 4 then 4 else if t = 6 then 5 else if t = 9 ∧ nbit s 45 then 4 else 0

/-- OPC is defined for the class and sent by agents (R142, R191). -/
def opcOk (cls op : Nat) : Bool :=
  if cls = 0 then decide (1 ≤ op ∧ op ≤ 6)
  else if cls = 2 then decide (1 ≤ op ∧ op ≤ 9)
  else decide ((1 ≤ op ∧ op ≤ 3) ∨ op = 0x0A ∨ op = 0x0B)

/-- Each flag field appears only on the messages that R188 and R190 name for it, but for the mask of a BEF slot and the port
that PEER names, which the item's own check covers (R191). -/
def flagsOk (f : Nat) : Bool :=
  let cls := bits f 0 3
  let op := bits f 3 5
  let wr := decide (cls = 0 ∧ op = 4)
  let wb := decide (cls = 0 ∧ op = 6)
  let fwd := decide (cls = 3 ∧ op ≤ 3)
  (wr || bits f 54 2 == 0) && (wb || bits f 56 3 == 0) && (cls == 3 || !nbit f 53) && !nbit f 52 && (fwd || bits f 48 4 == 0)

/-! ## Training sets (R179) -/

/-- Byte `k` of a training set. -/
def stsByte (w : BitVec 256) (k : Nat) : Nat := (w.extractLsb' (8 * k) 8).toNat

/-- A valid training set of a type: SYNC, TYPE, CHK and the reserved bytes are right. -/
def stsOk (w : BitVec 256) (ty : Nat) : Bool :=
  (w.extractLsb' 0 32).toNat == 0xA5A55A5A && stsByte w 4 == ty && (w.extractLsb' 128 112).toNat == 0 &&
    stsByte w 30 + 256 * stsByte w 31 == ((List.range 26).map fun i => stsByte w (4 + i)).sum % 65536

/-! ## LNK slots (R187) -/

/-- The LNK slot that a link now sends. -/
def Link.lnk (l : Link) : Slot :=
  BitVec.ofNat 128 (2 + at_ (l.rxSeq - 1).toNat 4 + at_ (b2n l.nak.isSome) 14 +
    at_ (l.grant[0] % 4096) 16 + at_ (l.grant[2] % 4096) 40 + at_ (l.grant[3] % 4096) 52 + at_ (l.grant[1] % 4096) 28 +
    at_ (l.grant[4] % 4096) 64 + ((List.finRange 8).map fun c => at_ (l.grantWb[c] % 4) (76 + 2 * c.val)).sum + at_ l.pm.toNat 92)

/-- The credit counters of a received LNK slot: REQ, SNP, RSP, DAT, MGQ. -/
def lnkCredits (s : Slot) : Vector (BitVec 12) 5 := (Vector.finRange 5).map fun c => s.extractLsb' (16 + 12 * c.val) 12

end Sys2Proof.Machine
end

