-- ==== Sys2Proof/Machine/Lanes.lean ====
section
/-!
DEFINITION. The lane layer and the forming of flits (R178, R179, R182, R183): striping, the scrambler, SKP blocks, the training
sets the device sends, and what a link drives on its lanes.
-/

namespace Sys2Proof.Machine

/-- Lanes of a width. -/
def laneCount (w : Nat) : Nat := if w = 3 then 16 else 4 >>> w

/-! ## The scrambler (R178) -/

/-- The LFSR advances by one bit: the taps of x^23 + x^21 + x^16 + x^8 + x^5 + x^2 + 1 feed bit 0 (assumption 73). -/
def scrNext (r : BitVec 23) : BitVec 23 :=
  (r <<< 1) ||| (BitVec.ofBool (r.getLsbD 22 ^^ r.getLsbD 20 ^^ r.getLsbD 15 ^^ r.getLsbD 7 ^^ r.getLsbD 4 ^^ r.getLsbD 1)).zeroExtend 23

def scrRun : Nat → BitVec 23 → BitVec 23
  | 0, r => r
  | n + 1, r => scrRun n (scrNext r)

/-- Its output over the eight bits of a byte, bit 0 first. -/
def scrByte (r : BitVec 23) : Byte := BitVec.ofNat 8 ((List.range 8).map fun i => at_ (b2n ((scrRun i r).getLsbD 22)) i).sum

/-- Scrambles the bytes of a lane; the same descrambles them. -/
def scramble : BitVec 23 → List Byte → List Byte
  | _, [] => []
  | r, b :: bs => (b ^^^ scrByte r) :: scramble (scrRun 8 r) bs

/-- What the LFSR of each lane is loaded with. -/
def scrStart : Vector (BitVec 23) 16 := Vector.ofFn fun k => 0x1DBFBC ^^^ BitVec.ofNat 23 (k.val * 0x5A5)

/-- The LFSRs of `n` lanes after a flit. -/
def scrFlit (n : Nat) (v : Vector (BitVec 23) 16) : Vector (BitVec 23) 16 :=
  Vector.ofFn fun k => if k.val < n then scrRun (2048 / n) v[k] else v[k]

/-! ## Striping (R178) -/

/-- The bytes of a flit on each of `n` lanes. -/
def stripe (n : Nat) (b : List Byte) : List (List Byte) := (List.range n).map fun k => (List.range (256 / n)).map fun j => b.getD (n * j + k) 0

/-- The flit that the bytes of `n` lanes make. -/
def unstripe (n : Nat) (v : List (List Byte)) : List Byte := (List.range 256).map fun i => (v.getD (i % n) []).getD (i / n) 0

/-- A flit as `n` lanes carry it, and back. -/
def lanesOut (n : Nat) (v : Vector (BitVec 23) 16) (b : List Byte) : List (List Byte) :=
  (stripe n b).zipIdx.map fun x => scramble v[Fin.ofNat 16 x.2] x.1
def lanesIn (n : Nat) (v : Vector (BitVec 23) 16) (x : List (List Byte)) : List Byte :=
  unstripe n (x.zipIdx.map fun y => scramble v[Fin.ofNat 16 y.2] y.1)

/-- A SKP block. -/
def skpBlock (n : Nat) : List (List Byte) := List.replicate n (List.replicate 16 0xAA)

/-! ## Training sets sent (R179) -/

/-- Blocks of training sets take 256 bits of a lane each: the cycles of `n` of them at a rate in the MAXSPD encoding. -/
def stsTime (n rate : Nat) : Nat := (256 * n + 10 * 2 ^ (2 - rate) - 1) / (10 * 2 ^ (2 - rate))

/-- The STS of a type that the device sends on a lane. -/
def stsMake (ty lane rates widths : Nat) (lpwr role : Bool) (eq : Nat) : List Byte :=
  let m := leBytes 26 (ty + at_ lane 8 + at_ rates 16 + at_ widths 24 + at_ (b2n lpwr) 32 + at_ (b2n role) 33 + at_ 1 40 + at_ eq 48 + at_ 0x6416 64)
  [0x5A, 0x5A, 0xA5, 0xA5] ++ m ++ leBytes 2 ((m.map (·.toNat)).sum % 65536)

/-! ## Flits sent (R182, R183) -/

/-- Header of a NOP flit, and of a PAYLOAD flit. -/
def nopHead (next : BitVec 10) : Nat := at_ next.toNat 2
def payloadHead (seq : BitVec 10) (rpl : Bool) : Nat := 1 + at_ seq.toNat 2 + at_ (b2n rpl) 12

/-- The bytes of a flit: header, slots with EMPTY ones after them, CRC and FEC. -/
def flitMake (hd : Nat) (slots : List Slot) : List Byte :=
  flitEncode (leBytes 2 hd ++ (List.range 15).flatMap fun i => leBytes 16 (slots.getD i 0).toNat)

namespace Link

/-- Drives a block on the lanes; `wire` holds what the link drove at the clock `wireAt`. -/
def drive (l : Link) (now : Nat) (b : List (List Byte)) : Link :=
  { l with wire := (if l.wireAt = now then l.wire else []).concat b, wireAt := now }

/-- The first flit after training starts the scramblers (assumption 73). -/
def scrReload (l : Link) : Link := { l with scr := scrStart, skp := 0, scrRx := scrStart, skpRx := 0 }

/-- Sends a flit, and a SKP block after every 1,024 (R178). -/
def flitOut (l : Link) (now hd : Nat) (slots : List Slot) : Link :=
  let n := laneCount l.width.toNat
  let x := l.drive now (lanesOut n l.scr (flitMake hd slots))
  if l.skp = 1023 then { x.drive now (skpBlock n) with scr := scrStart, skp := 0 }
  else { x with scr := scrFlit n l.scr, skp := l.skp + 1 }

/-- A flit has come: the descramblers follow it, and the SKP block after every 1,024. -/
def flitTaken (l : Link) : Link :=
  if l.skpRx = 1023 then { l with scrRx := scrStart, skpRx := 0 }
  else { l with scrRx := scrFlit (laneCount l.width.toNat) l.scrRx, skpRx := l.skpRx + 1 }

/-- Sends a NOP flit: with the LNK slot of now, or with EMPTY slots alone. -/
def nopOut (l : Link) (now : Nat) (lnk : Bool) : Link :=
  let x := l.flitOut now (nopHead l.txSeq) (if lnk then [l.lnk] else [])
  if lnk then { x with lnkSent := some l.lnk, lnkGap := 0 } else { x with lnkGap := l.lnkGap + 1 }

/-- Sends a PAYLOAD flit, after a LNK slot where 63 flits have gone without one (R198). -/
def payloadOut (l : Link) (now : Nat) (f : TxFlit) : Link :=
  let x := if 63 ≤ l.lnkGap then l.nopOut now true else l
  { x.flitOut now (payloadHead f.fseq (decide (0 < f.replays))) f.slots with lnkGap := x.lnkGap + 1 }

end Link

end Sys2Proof.Machine
end

