-- ==== Sys2Proof/Machine/Links.lean ====
section
/-!
DEFINITION. The links (R175 to R208, R379 to R381): the link state machine, training, flits, acknowledgement and replay,
credits, low-power entry and exit, and the items that cross them in both directions.
-/

namespace Sys2Proof.Machine

namespace Data

/-! ## What a link is -/

/-- The port of a link; nothing for the shroud link. -/
def linkPort (l : LinkId) : Option Agent := if h : l.val < 16 then some ⟨l.val, h⟩ else none

def linkDom (l : LinkId) : Fin 30 := match linkPort l with | some p => aptDom p | none => 29

/-- Highest rate (MAXSPD encoding) and widest width (WIDTH encoding, 3 for x16) that the rig allows (R42, R48, R379). -/
def capRate (d : Data) (l : LinkId) : Nat :=
  match linkPort l with
  | some p => bits (d.portCfg p).toNat 3 2
  | none => match d.rig with | some r => r.shroudSpd.toNat | none => 0
def capWidth (d : Data) (l : LinkId) : Nat := match linkPort l with | some p => bits (d.portCfg p).toNat 1 2 | none => 3
/-- The low-power states that the device permits (R42, R379). -/
def capLpwr (d : Data) (l : LinkId) : Bool := match linkPort l with | some p => (d.portCfg p).getLsbD 5 | none => false
/-- The ROLE that the device sends (R179, R379). -/
def linkRole (d : Data) (l : LinkId) : Bool := match linkPort l with | some _ => true | none => !d.member

/-- The widths that the device offers, the widest first. -/
def widths (d : Data) (l : LinkId) : List Nat :=
  match linkPort l with
  | some _ => (List.range 3).filter fun w => decide (d.capWidth l ≤ w)
  | none => [3]

/-- Raises a link event of an agent port (R214). -/
def evLink (d : Data) (l : LinkId) (i : Nat) : Data := match linkPort l with | some p => d.evApt p i | none => d

end Data

/-- The bit of a width in WIDTHS (R179). -/
def widthBit (w : Nat) : Nat := if w = 3 then 3 else 2 - w
def lanesAll (n : Nat) (p : Fin 16 → Bool) : Bool := ((List.finRange 16).filter fun k => decide (k.val < n)).all p

/-- The rates in both RATES, the highest first, in the MAXSPD encoding (R179, R180). -/
def commonRate (cap : Nat) (peer : Byte) : Option Nat :=
  (List.range 3).find? fun r => decide (cap ≤ r) && peer.getLsbD (2 - r)

/-- A new PAYLOAD flit is sent and joins the replay buffer (R201). -/
def Link.send (l : Link) (slots : List Slot) (now : Nat) : Link :=
  let f : TxFlit := { fseq := l.txSeq, slots := slots }
  { l.payloadOut now f with
    replay := l.replay.concat f
    txSeq := l.txSeq + 1
    ackAt := if l.replay.isEmpty then now else l.ackAt
    traffic := now }

/-- Uses a credit toward the peer (R194). -/
def Link.use (l : Link) (c : Fin 5) : Link := { l with used := vmod l.used c (· + 1) }

/-- A flit can carry an item of the counter's class: credit is left and the replay buffer has room (R193, R201). -/
def Link.can (l : Link) (c : Fin 5) : Bool := decide (0 < l.avail c) && decide (l.replay.length < 64)

/-- The initial grants of the device (R195, R381). -/
def initGrant (l : LinkId) : Vector Nat 5 := if l.val < 16 then #v[64, 0, 32, 96, 16] else #v[512, 16, 32, 32, 0]

/-- The least grants that the device accepts (R195, R381). -/
def minGrant (l : LinkId) : Vector Nat 5 := if l.val < 16 then #v[0, 16, 32, 96, 4] else #v[512, 16, 32, 32, 0]

namespace Data

/-! ## State changes -/

def linkEnter (d : Data) (l : LinkId) (s : LinkSt) : Data := d.modLink l fun x => { x with st := s, entered := d.now }

/-- RATES and WIDTHS that the device sends: what the caps leave (R179). -/
def ownRates (d : Data) (l : LinkId) : Nat := ((List.range 3).map fun r => if d.capRate l ≤ r then 2 ^ (2 - r) else 0).sum
def ownWidths (d : Data) (l : LinkId) : Nat := ((d.widths l).map fun w => 2 ^ widthBit w).sum

/-- The block of training sets that the device sends on every lane of its widest width, again and again while the state lasts
(R179). EQ is what the equalisation procedure of PCIe 6.0 gives it. -/
def stsBlock (d : Data) (l : LinkId) (ty eq : Nat) : List (List Byte) :=
  (List.range (laneCount (((d.widths l).head?).getD 0))).map fun k =>
    stsMake ty (if ty = 1 then 0xFF else k) (d.ownRates l) (d.ownWidths l) (d.capLpwr l) (d.linkRole l) eq

def stsDrive (d : Data) (l : LinkId) (ty : Nat) : Data :=
  let (v, d) := d.freeVal
  d.modLink l fun x => x.drive d.now (d.stsBlock l ty (v.toNat % 65536))

/-- Since the state was entered, the device has sent `n` blocks of training sets at a rate (R180). -/
def stsSent (d : Data) (l : LinkId) (n rate : Nat) : Bool := decide (d.links[l].entered + stsTime n rate ≤ d.now)

/-- REQs that a port holds lose their credits with the link that granted them (R205). -/
def heldFree (d : Data) (l : LinkId) : Data :=
  match linkPort l with
  | some p => d.modPort p fun x => { x with held := x.held.map fun r => { r with cred := false } }
  | none => d

/-- DETECT: nothing of an earlier link is left. -/
def linkDetect (d : Data) (l : LinkId) : Data :=
  (d.heldFree l).modLink l fun _ => { st := .detect, entered := d.now, rate := 2, traffic := d.now }

/-- DISABLED: the lanes are in electrical idle. -/
def linkOff (d : Data) (l : LinkId) : Data := (d.heldFree l).modLink l fun _ => {}

/-- Training has failed: DETECT with its event (R180). -/
def linkFail (d : Data) (l : LinkId) : Data := (d.evLink l 2).linkDetect l

/-- DOWN: the link keeps no state, and the port isolates its agent in the same cycle (R205, R206); the shroud isolates
none (R379). What LINK_STAT shows of RATE, WIDTH and LPOK in DOWN is open: the last values (assumption 74). -/
def linkDown (d : Data) (l : LinkId) : Data :=
  let d := (d.heldFree l).modLink l fun x => { st := .down, entered := d.now, rate := x.rate, width := x.width, lpok := x.lpok }
  match linkPort l with
  | some p => (d.evApt p 1).isolate p
  | none => ((d.modPair fun x => { x with out := [] }).evShd 1).handAbandon

/-- RECOVER is entered (R204, R215). -/
def linkRecover (d : Data) (l : LinkId) : Data :=
  let d := (d.linkEnter l .recover).modLink l fun x => { x with errs := [], replay := x.replay.map fun f => { f with replays := 0 } }
  match linkPort l with
  | some p => (d.evApt p 4).fldCnt (Reg.aptErrCnt p.val) 24 8 1
  | none => d

/-- A lowering of rate or width (R214, R215). -/
def linkDegrade (d : Data) (l : LinkId) : Data :=
  match linkPort l with
  | some p => (d.evApt p 3).raise (Reg.aptLinkStat p.val) 9
  | none => d

/-- INIT: counters and sequence numbers start at 0, the initial grants stand, and SDM blocks go out (R180, R194, R195). -/
def linkInit (d : Data) (l : LinkId) : Data :=
  let d := (d.linkEnter l .init).modLink l fun x =>
    { st := .init, entered := d.now, rate := x.rate, width := x.width, lpok := x.lpok, lanes := x.lanes, eq32 := x.eq32, eq64 := x.eq64
      pol := x.pol, scr := scrStart, scrRx := scrStart, wire := x.wire, wireAt := x.wireAt
      grant := initGrant l, grantWb := if l.val < 16 then Vector.replicate 8 1 else Vector.replicate 8 0
      ackAt := d.now, traffic := d.now, credAt := Vector.replicate 5 d.now }
  d.stsDrive l 3

/-- ACTIVE is entered from INIT (R180, R214, R382). -/
def linkUp_ (d : Data) (l : LinkId) : Data :=
  let x := d.links[l]
  let d := d.linkEnter l .active
  match linkPort l with
  | some p =>
    let d := d.evApt p 0
    if d.capRate l < x.rate.toNat ∨ d.capWidth l < x.width.toNat then d.evApt p 3 else d
  | none => (d.evShd 0).sendHello

/-- WAKE is entered; the exit of an agent link from L1 wakes D2 (R180, R409). -/
def linkWake (d : Data) (l : LinkId) : Data :=
  ((d.linkEnter l .wake).modLink l fun x => { x with exit := false }).domWake 2

/-- One further NOP flit, and L1 is entered (R180, R207). -/
def linkL1 (d : Data) (l : LinkId) : Data :=
  ((d.linkEnter l .l1).modLink l fun x => { x.nopOut d.now false with pm := 0, l1Req := none }).evLink l 14

/-! ## Training (R179, R180) -/

/-- RECEIVER_DETECTED: STS1 starts. -/
def receiverDetected (d : Data) (l : LinkId) : Data := if d.links[l].st = .detect then (d.linkEnter l .train).stsDrive l 1 else d

/-- DETECT_TIMEOUT. -/
def detectTimeout (d : Data) (l : LinkId) : Data :=
  if d.links[l].st = .detect ∧ d.links[l].entered + ms 12 ≤ d.now then d.linkEnter l .detect else d

/-- The lanes of some width have all passed TRAIN. -/
def trained (d : Data) (l : LinkId) (w : Nat) : Bool := lanesAll (laneCount w) fun k => decide (8 ≤ d.links[l].sts[k])

/-- A lane that the link can use. -/
def laneOk (l : LinkId) (lane : Fin 16) : Bool := (linkPort l).isNone || decide (lane.val < 4)

/-- Counts a valid STS1 or STS2 of a lane; one whose ROLE differs from those before it starts the count again, and an STS1
starts the count of consecutive STS2 again. The lanes pass TRAIN up to the clock of its end. -/
def stsCount (d : Data) (l : LinkId) (lane : Fin 16) (w : BitVec 256) (two : Bool) : Data :=
  let last := d.links[l].st == .train || d.links[l].entered == d.now
  let role := nbit (stsByte w 8) 1
  d.modLink l fun x =>
    let x := if x.peerRole = some (!role) then { x with sts := Vector.replicate 16 0, sts2 := Vector.replicate 16 0 } else x
    { x with
      peerRole := some role
      peerRates := BitVec.ofNat 8 (stsByte w 6)
      peerWidths := BitVec.ofNat 8 (stsByte w 7)
      peerLpwr := nbit (stsByte w 8) 0
      sts := vmod x.sts lane fun k => if last then k + 1 else k
      sts2 := vmod x.sts2 lane fun k => if two then k + 1 else 0 }

/-- CFG completes where the widest width in both WIDTHS whose lanes passed TRAIN has its 8 STS2 on every lane. -/
def cfgDone (d : Data) (l : LinkId) : Data :=
  let x := d.links[l]
  match (d.widths l).find? fun w => x.peerWidths.getLsbD (widthBit w) && d.trained l w with
  | none => d
  | some w =>
    match commonRate (d.capRate l) x.peerRates with
    | none => d
    | some r =>
      if lanesAll (laneCount w) fun k => decide (8 ≤ x.sts2[k]) then
        let d := d.modLink l fun x =>
          { x with rate := BitVec.ofNat 2 r, width := BitVec.ofNat 2 w, lpok := x.peerLpwr && d.capLpwr l
                   lanes := BitVec.ofNat 16 (2 ^ laneCount w - 1) }
        if r = 2 then d.linkInit l else d.linkEnter l .eq32
      else d

/-- TRAIN ends once the lanes of some width have passed and 16 STS1 have been sent: STS2 starts. -/
def trainDone (d : Data) (l : LinkId) : Data :=
  if d.links[l].st = .train ∧ d.stsSent l 16 2 ∧ (d.widths l).any fun n => d.trained l n then
    ((d.linkEnter l .cfg).modLink l fun x => { x with sts2 := Vector.replicate 16 0 }).stsDrive l 2
  else d

/-- A training set as a lane carries it, its polarity put right; in TRAIN an inverted one sets the lane's polarity (R176). -/
def stsPol (d : Data) (l : LinkId) (lane : Fin 16) (w : BitVec 256) (ty : Nat) : Data × BitVec 256 :=
  let inv := d.links[l].pol.getLsbD lane.val
  let v := if inv then ~~~w else w
  if d.links[l].st = .train ∧ !stsOk v ty ∧ stsOk (~~~v) ty then
    (d.modLink l fun x => { x with pol := setBit x.pol lane.val (!inv) }, ~~~v)
  else (d, v)

/-- A training set STS1 or STS2 on a lane, its polarity right. -/
def stsTake (d : Data) (l : LinkId) (lane : Fin 16) (w : BitVec 256) (two : Bool) : Data :=
  if !stsOk w (if two then 2 else 1) then d
  else match d.links[l].st with
  | .train => (d.stsCount l lane w false).trainDone l
  | .cfg =>
    if nbit (stsByte w 8) 1 = d.linkRole l then d.linkFail l
    else if two ∧ stsByte w 5 ≠ lane.val then d.linkFail l
    else (d.stsCount l lane w two).cfgDone l
  | _ => d

/-- A training set STS1 or STS2 as a lane carries it. -/
def stsRecv (d : Data) (l : LinkId) (lane : Fin 16) (w : BitVec 256) (two : Bool) : Data :=
  if !laneOk l lane then d
  else
    let (d, v) := d.stsPol l lane w (if two then 2 else 1)
    d.stsTake l lane v two

/-- A limit of the link state machine: in state `s` since `t` or longer. -/
def linkOver (d : Data) (l : LinkId) (s : LinkSt) (t : Nat) : Bool := d.links[l].st == s && decide (d.links[l].entered + t ≤ d.now)

def trainTimeout (d : Data) (l : LinkId) : Data := if d.linkOver l .train (ms 24) then d.linkFail l else d
def cfgTimeout (d : Data) (l : LinkId) : Data := if d.linkOver l .cfg (ms 2) then d.linkFail l else d
def initTimeout (d : Data) (l : LinkId) : Data := if d.linkOver l .init (ms 1) then d.linkFail l else d

/-- EQUALISATION_COMPLETE: the settings of the rate are stored. -/
def eqComplete (d : Data) (l : LinkId) : Data :=
  match d.links[l].st with
  | .eq32 =>
    let d := d.modLink l fun x => { x with eq32 := true }
    if d.links[l].rate = 1 then d.linkInit l else d.linkEnter l .eq64
  | .eq64 => (d.modLink l fun x => { x with eq64 := true }).linkInit l
  | _ => d

/-- EQUALISATION_FAILURE: the agreed rate drops one step from the one equalised. -/
def eqFailure (d : Data) (l : LinkId) : Data :=
  match d.links[l].st with
  | .eq32 => ((d.modLink l fun x => { x with rate := 2 }).linkInit l).linkDegrade l
  | .eq64 => ((d.modLink l fun x => { x with rate := 1 }).linkInit l).linkDegrade l
  | _ => d

/-- INIT ends once both ends have sent 4 SDM blocks and the peer's NOP flit has granted the least credits. -/
def initDone (d : Data) (l : LinkId) : Data :=
  let x := d.links[l]
  if x.st = .init ∧ x.initOk ∧ 4 ≤ x.sdm ∧ d.stsSent l 4 x.rate.toNat then d.linkUp_ l else d

/-- SDM: blocks are counted on lane 0, which every width has. -/
def sdmRecv (d : Data) (l : LinkId) (lane : Fin 16) (w : BitVec 256) : Data :=
  let v := if d.links[l].pol.getLsbD lane.val then ~~~w else w
  if d.links[l].st = .init ∧ stsOk v 3 ∧ lane = 0 then (d.modLink l fun x => { x with sdm := x.sdm + 1 }).initDone l else d

/-! ## Replay and errors (R201, R203, R204) -/

/-- Counts PAYLOAD flits sent. -/
def flitsSent (d : Data) (l : LinkId) (n : Nat) : Data := match linkPort l with | some p => d.pmcApt p 1 n | none => d.tally 504 n

/-- Resends every unacknowledged flit in order, its content unchanged and RPL = 1; the fourth replay of one takes the link to
RECOVER. -/
def replay (d : Data) (l : LinkId) : Data :=
  if d.links[l].replay.isEmpty ∨ d.links[l].st ≠ .active then d
  else
    let d := d.modLink l fun x =>
      let again := x.replay.map fun f => { f with replays := f.replays + 1 }
      { again.foldl (fun (y : Link) f => y.payloadOut d.now f) x with replay := again, ackAt := d.now, traffic := d.now }
    let d := d.flitsSent l d.links[l].replay.length
    let d := match linkPort l with
      | some p => (d.fldCnt (Reg.aptErrCnt p.val) 12 12 1).pmcApt p 3
      | none => d.tally 511
    if d.links[l].replay.any fun f => decide (4 ≤ f.replays) then d.linkRecover l else d

/-- An error under R201: eight within 1 ms take the link to RECOVER. -/
def linkErr (d : Data) (l : LinkId) : Data :=
  let d := d.modLink l fun x => { x with errs := (x.errs.filter fun t => decide (d.now < t + ms 1)).concat d.now }
  if 8 ≤ d.links[l].errs.length ∧ d.links[l].st = .active then d.linkRecover l else d

/-- LANE_LOCK_LOST. -/
def laneLockLost (d : Data) (l : LinkId) : Data := if d.links[l].st = .active then d.linkRecover l else d

/-- REPLAY_TIMEOUT; the shroud link has no timer register and uses the reset value of RPLT (assumption 31). -/
def replayTimeout (d : Data) (l : LinkId) : Data :=
  let t := match linkPort l with | some p => act1 (d.fld (Reg.aptTmoCfg p.val) 0 8) | none => 4
  if d.links[l].st = .active ∧ !d.links[l].replay.isEmpty ∧ d.links[l].ackAt + us t ≤ d.now then (d.evLink l 6).replay l else d

/-- NAK_RESEND_TIMEOUT. -/
def nakResend (d : Data) (l : LinkId) : Data :=
  match d.links[l].nak with
  | some t => if t + us 2 ≤ d.now then d.modLink l fun x => { x with nak := some d.now } else d
  | none => d

/-- RECOVER_COMPLETE: lanes that did not lock are dropped (R181), the shroud goes DOWN where one is missing (R379). -/
def recoverComplete (d : Data) (l : LinkId) (lanes : BitVec 16) : Data :=
  if d.links[l].st ≠ .recover then d
  else
    let ok := fun (w : Nat) => lanesAll (laneCount w) fun k => lanes.getLsbD k.val && d.links[l].lanes.getLsbD k.val
    match linkPort l with
    | none => if ok 3 then ((d.linkEnter l .active).modLink l fun x => { x.scrReload with traffic := d.now }).replay l else d.linkDown l
    | some _ =>
      match (List.range 3).find? fun w => decide (d.links[l].width.toNat ≤ w) && ok w with
      | none => d
      | some w =>
        let low := decide (d.links[l].width.toNat < w)
        let d := (d.linkEnter l .active).modLink l fun x =>
          { x.scrReload with width := BitVec.ofNat 2 w, lanes := BitVec.ofNat 16 (2 ^ laneCount w - 1), traffic := d.now }
        (if low then d.linkDegrade l else d).replay l

/-- RECOVER_TIMEOUT: the rate drops one step, or the link goes DOWN at 16 GT/s. RECOVER goes on: neither event 4 nor ERR_CNT.RCV
takes it for a new entry (assumption 74). -/
def recoverTimeout (d : Data) (l : LinkId) : Data :=
  if !d.linkOver l .recover (ms 2) then d
  else if d.links[l].rate.toNat < 2 then
    ((d.linkEnter l .recover).modLink l fun x => { x with rate := x.rate + 1 }).linkDegrade l
  else d.linkDown l

/-! ## Low-power state (R207, R208) -/

/-- An item waits for the agent. -/
def txWaits (d : Data) (p : Agent) : Bool := !d.ports[p].tx.isEmpty || !d.ports[p].mgqOut.isEmpty

/-- The answers that a port can send: a Q_ACK stays until the queue cycle of its push has passed (R305). -/
def mgqReady (d : Data) (p : Agent) : List MgqAns :=
  d.ports[p].mgqOut.takeWhile fun a =>
    match a with | .qAck _ q _ => (d.que1 q.toNat).pushAt != some d.qCycle || (d.que1 q.toNat).pusher != some p | _ => true

/-- The device's own condition for L1. -/
def l1Ready (d : Data) (p : Agent) : Bool := d.links[aptLink p].lpok && !d.txWaits p && d.links[aptLink p].replay.isEmpty

/-- L1IDLE_EXPIRY. -/
def l1Idle (d : Data) (p : Agent) : Data :=
  let l := aptLink p
  let t := d.fld (Reg.aptTmoCfg p.val) 24 8
  if d.links[l].st = .active ∧ d.links[l].lpok ∧ t ≠ 0 ∧ !d.txWaits p ∧ d.links[l].l1Req.isNone ∧ d.links[l].traffic + us t ≤ d.now then
    d.modLink l fun x => { x with pm := 1, l1Req := some d.now }
  else d

/-- L1_REQ: answered L1_ACK or L1_NAK, or taken as L1_ACK where the requests cross. -/
def l1ReqRecv (d : Data) (p : Agent) : Data :=
  let l := aptLink p
  if d.links[l].st ≠ .active then d
  else if d.l1Ready p then
    (if d.links[l].l1Req.isSome then d else d.modLink l fun x => { x with pm := 2 }.nopOut d.now true).linkL1 l
  else d.modLink l fun x => { x with pm := 3, l1Req := none }

/-- L1_ACK. -/
def l1AckRecv (d : Data) (p : Agent) : Data :=
  let l := aptLink p
  if d.links[l].st = .active ∧ d.links[l].l1Req.isSome then d.linkL1 l else d

/-- L1_NAK. -/
def l1NakRecv (d : Data) (p : Agent) : Data :=
  if d.links[aptLink p].l1Req.isSome then d.modLink (aptLink p) fun x => { x with pm := 0, l1Req := none } else d

/-- L1_ANSWER_TIMEOUT. -/
def l1AnswerTimeout (d : Data) (p : Agent) : Data :=
  match d.links[aptLink p].l1Req with
  | some t => if t + us 2 ≤ d.now then d.l1NakRecv p else d
  | none => d

/-- ELECTRICAL_IDLE_EXIT: a reefed port is woken first (R409). -/
def idleExit (d : Data) (p : Agent) : Data :=
  let l := aptLink p
  if d.links[l].st ≠ .l1 then d
  else if d.domUp (aptDom p) then d.linkWake l
  else (d.modLink l fun x => { x with exit := true }).domWake (aptDom p)

/-- WAKE_COMPLETE. -/
def wakeComplete (d : Data) (p : Agent) : Data :=
  let l := aptLink p
  if d.links[l].st = .wake then ((d.linkEnter l .active).modLink l fun x => { x.scrReload with traffic := d.now, ackAt := d.now }).evApt p 15 else d

/-- WAKE_TIMEOUT. -/
def wakeTimeout (d : Data) (p : Agent) : Data :=
  if d.linkOver (aptLink p) .wake (us 10) then d.linkRecover (aptLink p) else d

/-- PM of a received LNK slot. -/
def pmRecv (d : Data) (l : LinkId) (pm : Nat) : Data :=
  match linkPort l with
  | none => d
  | some p => if pm = 1 then d.l1ReqRecv p else if pm = 2 then d.l1AckRecv p else if pm = 3 then d.l1NakRecv p else d

/-! ## Credit waits (R200) -/

/-- An item of a class waits without credit on a link that carries flits. -/
def creditDry (d : Data) (p : Agent) (c : MsgClass) : Bool :=
  let x := d.links[aptLink p]
  (x.st == .active || x.st == .recover) && x.avail (txCredit c) == 0 && (c == .snp || c == .rsp || c == .dat)

/-- CREDIT_WAIT. -/
def creditWait (d : Data) (p : Agent) (c : MsgClass) : Data :=
  let t := us (10 * act1 (d.fld (Reg.aptTmoCfg p.val) 8 8))
  let due := fun (i : TxItem) => i.cls == c && !i.warned && decide (i.since + t ≤ d.now)
  if d.creditDry p c ∧ d.ports[p].tx.any due then
    (d.modPort p fun x => { x with tx := lmod due (fun i => { i with warned := true }) x.tx }).evApt p 8
  else d

/-- CREDIT_WAIT_ISOLATION. -/
def creditIsolate (d : Data) (p : Agent) (c : MsgClass) : Data :=
  let t := us (100 * act1 (d.fld (Reg.aptTmoCfg p.val) 16 8))
  let last := d.links[aptLink p].credAt[txCredit c]
  if d.creditDry p c ∧ d.ports[p].tx.any fun i => i.cls == c && decide (max i.since last + t ≤ d.now) then d.isolate p else d

/-- Ports at which an SNP, RSP or DAT item waits for credit at a tick (R322). -/
def creditTick (d : Data) : Data :=
  allAgents.foldl (fun (d : Data) p => if d.ports[p].tx.any fun i => d.creditDry p i.cls then d.pmcApt p 5 else d) d

/-! ## Items from an agent (R188 to R191, R194, R199) -/

/-- Credits an item needs at the receiver: REQ, RSP, DAT and MGQ counters, and the WB channel (R193). -/
def itemCost (f : Nat) : List (Fin 5) × Option (Fin 8) :=
  let cls := bits f 0 3
  let op := bits f 3 5
  if cls = 0 then
    if op = 6 then ([3], some (Fin.ofNat 8 (bits f 56 3))) else if op = 4 then ([0, 3], none) else ([0], none)
  else if cls = 2 then ([2], none)
  else ([3], none)

/-- The peer holds the credits that an item costs. -/
def creditOk (x : Link) (c : List (Fin 5) × Option (Fin 8)) : Bool :=
  c.1.all (fun k => decide (x.peerUsed[k] < x.grant[k])) && (match c.2 with | some w => decide (x.peerWb[w] < x.grantWb[w]) | none => true)

/-- The credits of a received item are used. -/
def creditTake (d : Data) (l : LinkId) (c : List (Fin 5) × Option (Fin 8)) : Data :=
  d.modLink l fun x =>
    { x with peerUsed := c.1.foldl (fun v k => vmod v k (· + 1)) x.peerUsed
             peerWb := match c.2 with | some w => vmod x.peerWb w (· + 1) | none => x.peerWb }

/-- The credits of a received item are returned (R196). -/
def creditGive (d : Data) (l : LinkId) (c : List (Fin 5) × Option (Fin 8)) : Data :=
  d.modLink l fun x =>
    { x with grant := c.1.foldl (fun v k => vmod v k (· + 1)) x.grant
             grantWb := match c.2 with | some w => vmod x.grantWb w (· + 1) | none => x.grantWb }

/-- The REQ that a message field and its data slots make (R190). -/
def fieldReq (p : Agent) (f : Nat) (got : List Slot) : Req :=
  let op := bits f 3 5
  let bef := nbit f 55
  let be : ByteEn := if op = 4 ∧ bef then (got.headD 0).truncate 64 else beAll
  { agent := p, op := BitVec.ofNat 5 op, ga := bits f 8 40, wt := nbit f 54, be := if op = 4 ∨ op = 6 then be else 0
    data := slotsGran (if op = 4 ∧ bef then got.drop 1 else got), ch := Fin.ofNat 8 (bits f 56 3), cred := true }

/-- An item that failed a check of R191: the event with its capture, and PROTO_ERR to a REQ from the second check on. -/
def fieldBad (d : Data) (p : Agent) (f row : Nat) : Data :=
  let g := BitVec.ofNat 40 (bits f 8 40)
  let d := d.msgErr p (bits f 0 3) (bits f 3 5) row g
  if bits f 0 3 = 0 ∧ 2 ≤ row then d.rspTo p 0x16 g else d

/-- A message field with all its data: the checks of R191 in their order. -/
def fieldRecv (d : Data) (p : Agent) (f : Nat) (got : List Slot) : Data :=
  let l := aptLink p
  let cls := bits f 0 3
  let op := bits f 3 5
  let g := BitVec.ofNat 40 (bits f 8 40)
  if f = 7 then d
  else if cls ≠ 0 ∧ cls ≠ 2 ∧ cls ≠ 3 then if d.portOpen p then d.msgErr p cls op 1 g else d
  else
    let cost := itemCost f
    if !creditOk d.links[l] cost then d.linkDown l
    else
      let d := d.creditTake l cost
      if !d.portOpen p then d.creditGive l cost
      else if bits f 59 3 ≠ 0 then (d.fieldBad p f 1).creditGive l cost
      else if !opcOk cls op then (d.fieldBad p f 2).creditGive l cost
      else if !flagsOk f then (d.fieldBad p f 3).creditGive l cost
      else if cls = 0 then d.reqItem p g (decide (op = 4) && nbit f 55) (fieldReq p f got)
      else
        let d := if cls = 2 then (if op = 6 then d.rspRecall p g else d.rspItem p op g)
          else if op ≤ 3 then d.datPeer p op g (Fin.ofNat 16 (bits f 48 4)) (nbit f 53) (slotsGran got)
          else d.datHome p op g (nbit f 53) (slotsGran got)
        d.creditGive l cost

/-- A mailbox selection names a counter, live or shadow (R347). -/
def selCounter (sel : Word) : Bool := let c := bits sel.toNat 24 8; c == 1 || c == 2

/-- The PERMS bit that a register access of an agent needs, if any (R51, R211, R333, R350): a write of MBXm_SEL is judged by
the selection that it makes, other accesses to a mailbox by the one in force. -/
def regBit (d : Data) (p : Agent) (a : Nat) (write : Bool) (be : Byte) (v : Dword) : Option Nat :=
  if !write ∧ 0x200000 + 0x10000 * p.val ≤ a ∧ a < 0x200800 + 0x10000 * p.val then none
  else if 0x60000 ≤ a ∧ a < 0x60200 then
    let sel := d.mbx[Fin.ofNat 8 ((a - 0x60000) / 0x40)].sel
    let new : Word := (List.range 4).foldl (fun (m : Word) i => if be.getLsbD i then (m &&& ~~~((0xFF : Word) <<< (8 * i))) ||| (v.truncate 32 &&& ((0xFF : Word) <<< (8 * i))) else m) sel
    if selCounter (if write ∧ a % 0x40 = 0 then new else sel) then some 2 else some (if write then 1 else 0)
  else some (if write then 1 else 0)

def regOk (d : Data) (p : Agent) (a : Nat) (write : Bool) (be : Byte) (v : Dword) : Bool :=
  match d.regBit p a write be v with
  | some i => (d.perm p).getLsbD i
  | none => true

/-- Puts an MGQ item into the port's receive buffer, with the permissions at acceptance (R62, R211). -/
def mgqPut (d : Data) (p : Agent) (i : MgqItem) (cred : Bool) : Data :=
  if !d.portOpen p then if cred then d.creditGive (aptLink p) ([4], none) else d
  else d.modPort p fun x => { x with mgqIn := x.mgqIn.concat (i, cred) }

def regRdItem (d : Data) (p : Agent) (tag : Byte) (a : Word) (w64 : Bool) : MgqItem := .regRd tag a w64 (d.regOk p a.toNat false 0 0)
def regWrItem (d : Data) (p : Agent) (tag : Byte) (a : Word) (w64 : Bool) (be : Byte) (v : Dword) : MgqItem :=
  .regWr tag a w64 be v (d.regOk p a.toNat true be v)

/-- An MGQ slot of an agent (R209). -/
def mgqRecv (d : Data) (p : Agent) (s : Nat) : Data :=
  let l := aptLink p
  let tag := BitVec.ofNat 8 (bits s 8 8)
  let ty := bits s 4 4
  if !creditOk d.links[l] ([4], none) then d.linkDown l
  else
    let d := d.creditTake l ([4], none)
    let w64 := nbit s 48
    let a := BitVec.ofNat 32 (bits s 16 32)
    let q := BitVec.ofNat 14 (bits s 16 14)
    if ty = 1 then d.mgqPut p (d.regRdItem p tag a w64) true
    else if ty = 2 then
      d.mgqPut p (d.regWrItem p tag a w64 (BitVec.ofNat 8 (bits s 49 8)) (BitVec.ofNat 64 (bits s 57 64))) true
    else if ty = 4 then d.mgqPut p (.push tag q (nbit s 30) (nbit s 31) (BitVec.ofNat 64 (bits s 32 64)) (d.perm p) 0) true
    else if ty = 5 then d.mgqPut p (.pop tag q 0 (d.perm p)) true
    else
      let d := if d.portOpen p then d.msgErr p 4 ty 0 0 else d
      d.creditGive l ([4], none)

/-! ## Items from the partner (R380, R381) -/

/-- RLD, MWR and the other items by their STYPE. -/
def shdDispatch (d : Data) (s : Nat) (got : List Slot) : Data :=
  let t := bits s 4 4
  let ga := BitVec.ofNat 36 (bits s 8 36)
  if t = 1 then d.helloRecv (nbit s 8) (BitVec.ofNat 3 (bits s 9 3)) (BitVec.ofNat 32 (bits s 12 32)) (BitVec.ofNat 32 (bits s 76 32))
  else if t = 2 then d.hbRecv (BitVec.ofNat 3 (bits s 16 3)) (nbit s 19) (nbit s 20) (BitVec.ofNat 32 (bits s 21 32))
  else if t = 3 then d.rldRecv (BitVec.ofNat 32 (bits s 8 32))
  else if t = 4 then d.mwrRecv ga.toNat (nbit s 44) (slotsGran got)
  else if t = 5 then d.mclrRecv ga.toNat
  else if t = 6 then
    d.swrRecv (Fin.ofNat 8 (bits s 45 3)) (bits s 48 6) ga.toNat ((got.headD 0).truncate 64) (slotsGran (got.drop 1)) (nbit s 44)
      (BitVec.ofNat 6 (bits s 54 6))
  else if t = 7 then d.sclrRecv (Fin.ofNat 8 (bits s 45 3)) (bits s 48 6)
  else if t = 8 then d.mrdRecv ga.toNat (BitVec.ofNat 8 (bits s 44 8))
  else if t = 9 then d.mdatRecv ga.toNat (nbit s 44) (nbit s 45) (BitVec.ofNat 8 (bits s 46 8)) (slotsGran got)
  else if t = 10 then d.mfullRecv ga.toNat
  else if t = 11 then d.dxfRecv (BitVec.ofNat 64 (bits s 8 64))
  else if t = 12 then d.dxfEndRecv (bits s 8 32)
  else d

/-- An SHD slot with all its data. -/
def shdRecv (d : Data) (s : Nat) (got : List Slot) : Data :=
  match stypeCredit (bits s 4 4) with
  | none => d
  | some c =>
    if !creditOk d.links[shdLink] ([c], none) then d.linkDown shdLink
    else ((d.creditTake shdLink ([c], none)).shdDispatch s got).creditGive shdLink ([c], none)

/-! ## Slots (R182, R186, R187, R189) -/

/-- The acknowledgement of a LNK slot: flits up to ACKSEQ leave the replay buffer, and a name outside the window is an
error; whether the name was good. -/
def ackRecv (d : Data) (l : LinkId) (a : BitVec 10) : Data × Bool :=
  let x := d.links[l]
  if a = x.lastAck then (d, true)
  else if x.replay.any fun f => f.fseq == a then
    (d.modLink l fun x =>
      { x with replay := (x.replay.dropWhile fun f => f.fseq != a).drop 1, lastAck := a, ackAt := d.now }, true)
  else (d.linkErr l, false)

/-- A LNK slot (R187). -/
def lnkRecv (d : Data) (l : LinkId) (s : Slot) : Data :=
  let n := s.toNat
  let cr := lnkCredits s
  let d := d.modLink l fun x =>
    { x with recv := cr, credAt := (Vector.finRange 5).map fun c => if cr[c] = x.recv[c] then x.credAt[c] else d.now }
  let (d, good) := d.ackRecv l (BitVec.ofNat 10 (bits n 4 10))
  let d := if good ∧ nbit n 14 then d.replay l else d
  d.pmRecv l (bits n 92 2)

/-- Dispatches the fields at the front of the owed list whose data has come, in order. -/
def owedGo (d : Data) (l : LinkId) : Nat → Data
  | 0 => d
  | n + 1 =>
    match d.links[l].owed with
    | [] => d
    | f :: rest =>
      if f.got.length < f.need then d
      else
        let d := d.modLink l fun x => { x with owed := rest }
        let d := match linkPort l with
          | some p => d.fieldRecv p f.field.toNat f.got
          | none => d.shdRecv f.slot.toNat f.got
        d.owedGo l n

/-- A header slot; one whose SLT is reserved is passed over (assumption 29). -/
def headRecv (d : Data) (l : LinkId) (s : Slot) : Data :=
  let n := s.toNat
  let slt := bits n 0 4
  if slt = 2 then d.lnkRecv l s
  else match linkPort l with
  | some p =>
    if slt = 1 then
      let f := fun (k : Nat) => ({ slot := s, field := BitVec.ofNat 62 (bits n k 62), need := fieldNeed (bits n k 62) } : PendField)
      (d.modLink l fun x => { x with owed := [f 4, f 66] }).owedGo l 2
    else if slt = 3 then d.mgqRecv p n
    else d
  | none =>
    if slt = 4 then (d.modLink l fun x => { x with owed := [{ slot := s, field := 0, need := shdNeed n }] }).owedGo l 1 else d

/-- One slot of an accepted PAYLOAD flit: data that is owed, or a header. The slots after one that took the link to RECOVER or L1
are processed too; after DOWN the link keeps no state. -/
def slotRecv (d : Data) (l : LinkId) (s : Slot) : Data :=
  if d.links[l].st ≠ .active ∧ d.links[l].st ≠ .recover ∧ d.links[l].st ≠ .l1 then d
  else
    match d.links[l].owed with
    | [] => d.headRecv l s
    | f :: rest => (d.modLink l fun x => { x with owed := { f with got := f.got.concat s } :: rest }).owedGo l 2

/-! ## Flits (R182, R183, R202) -/

/-- The slots of a corrected flit. -/
def flitSlots (b : List Byte) : List Slot := (List.range 15).map fun s => BitVec.ofNat 128 (leAt b (2 + 16 * s) 16)

/-- FEC corrections of a flit (R185, R214). -/
def fecCount (d : Data) (l : LinkId) (n : Nat) : Data :=
  match linkPort l with
  | some p => if n = 0 then d else (d.fldCnt (Reg.aptFecCnt p.val) 0 32 n).evApt p 7
  | none => d

/-- The flit of a command as the descramblers give it: its bytes. -/
def flitOf (w : BitVec 2048) : List Byte := (List.range 256).map fun i => w.extractLsb' (8 * i) 8

/-- A flit has come on the lanes: its corrections are counted, good or bad. -/
def flitTake (d : Data) (l : LinkId) (w : BitVec 2048) : Data :=
  (d.modLink l Link.flitTaken).fecCount l (flitFixes (flitOf w))

/-- A NAK goes out unless one is outstanding. -/
def nakSend (d : Data) (l : LinkId) : Data := d.modLink l fun x => { x with nak := some (x.nak.getD d.now) }

/-- The flit of a command, corrected; nothing where it is a bad flit. -/
def flitIn (w : BitVec 2048) : Option (List Byte) := flitDecode (flitOf w)

/-- A good PAYLOAD flit (R202). A NAK for one of later FSEQ raises no event 5, which names bad flits (assumption 74). -/
def payloadRecv (d : Data) (l : LinkId) (b : List Byte) : Data :=
  let hd := leAt b 0 2
  let seq := BitVec.ofNat 10 (bits hd 2 10)
  let d := match linkPort l with | some p => d.pmcApt p 0 | none => d.tally 505
  let d := d.modLink l fun x => { x with traffic := d.now }
  let x := d.links[l]
  let accept := fun (d : Data) =>
    (flitSlots b).foldl (fun (d : Data) s => d.slotRecv l s) (d.modLink l fun x => { x with nak := none, rxSeq := x.rxSeq + 1, rxAny := true })
  if x.nak.isSome then if nbit hd 12 ∧ seq = x.rxSeq then accept d else d
  else if seq = x.rxSeq then accept d
  else if (seq - x.rxSeq).toNat < 512 then d.nakSend l
  else d

/-- PAYLOAD. -/
def payload (d : Data) (l : LinkId) (w : BitVec 2048) : Data :=
  match flitIn w with
  | some b => if d.links[l].st = .active ∧ bits (leAt b 0 2) 0 2 = 1 then (d.flitTake l w).payloadRecv l b else d
  | none => d

/-- A NOP flit in INIT: its LNK slot ends INIT, one way or the other (R180). -/
def initNop (d : Data) (l : LinkId) (b : List Byte) : Data :=
  match (flitSlots b).find? fun s => bits s.toNat 0 4 == 2 with
  | none => d
  | some s =>
    let cr := lnkCredits s
    if (List.finRange 5).all fun c => decide ((minGrant l)[c] ≤ cr[c].toNat) then
      (d.modLink l fun x => { x with recv := cr, initOk := true }).initDone l
    else d.linkFail l

/-- NOP. -/
def nop (d : Data) (l : LinkId) (w : BitVec 2048) : Data :=
  match flitIn w with
  | some b =>
    if bits (leAt b 0 2) 0 2 ≠ 0 then d
    else match d.links[l].st with
    | .init => (d.flitTake l w).initNop l b
    | .active =>
      ((flitSlots b).filter fun s => bits s.toNat 0 4 == 2).foldl
        (fun (d : Data) s => if d.links[l].st = .active ∨ d.links[l].st = .recover then d.lnkRecv l s else d) (d.flitTake l w)
    | _ => d
  | none => d

/-- BAD_FLIT: in every state that carries flits. -/
def badFlit (d : Data) (l : LinkId) (w : BitVec 2048) : Data :=
  match flitIn w with
  | some _ => d
  | none =>
    if d.links[l].st ≠ .active ∧ d.links[l].st ≠ .init then d
    else
      let d := d.flitTake l w
      let d := match linkPort l with
        | some p => ((d.fldCnt (Reg.aptErrCnt p.val) 0 12 1).pmcApt p 2).evApt p 5
        | none => d.tally 510
      d.nakSend l

/-! ## Sending -/

end Data

/-- Sends what credit and the replay buffer allow, `n` items at most: the oldest item of a class with credit (R157, R193), and MGQ
answers and notes in order (R211). The two take turns, so that neither waits behind the other (R33). What is left. -/
def Link.sendTx (now : Nat) : Nat → Link → List TxItem → List MgqAns → Link × List TxItem × List MgqAns
  | 0, l, tx, mg => (l, tx, mg)
  | n + 1, l, tx, mg =>
    let item := tx.find? fun i => l.can (txCredit i.cls)
    match mg, item with
    | a :: rest, _ =>
      if l.can 4 ∧ (l.mgqTurn ∨ item.isNone) then
        Link.sendTx now n ({ (l.use 4).send [ansSlot a] now with mgqTurn := false }) tx rest
      else match item with
        | some i => Link.sendTx now n ({ (l.use (txCredit i.cls)).send (txSlots i) now with mgqTurn := true }) (tx.erase i) mg
        | none => (l, tx, mg)
    | [], some i => Link.sendTx now n ({ (l.use (txCredit i.cls)).send (txSlots i) now with mgqTurn := true }) (tx.erase i) mg
    | [], none => (l, tx, mg)

/-- Sends items to the partner. -/
def Link.sendShd (now : Nat) : Link → List ShdItem → Link × List ShdItem
  | l, [] => (l, [])
  | l, i :: rest =>
    let c := shdCredit i
    if l.can c then Link.sendShd now ((l.use c).send (shdSlots i) now) rest
    else
      let (l, k) := Link.sendShd now l rest
      (l, i :: k)

namespace Data

/-- A link sends what waits for it, one item to a flit, and then a NOP flit with its LNK slot where that has changed (R198). -/
def linkPump (d : Data) (l : LinkId) : Data :=
  if d.links[l].st ≠ .active then d
  else
    let x := d.links[l]
    let n := x.txSeq
    let d := match linkPort l with
      | some p =>
        if !d.txWaits p then d
        else
          let out := d.mgqReady p
          let (x, tx, mg) := Link.sendTx d.now (d.ports[p].tx.length + out.length) x d.ports[p].tx out
          (d.modLink l fun _ => x).modPort p fun y => { y with tx := tx, mgqOut := mg ++ y.mgqOut.drop out.length }
      | none =>
        if d.pair.out.isEmpty then d
        else
          let (x, out) := x.sendShd d.now d.pair.out
          (d.modLink l fun _ => x).modPair fun y => { y with out := out }
    let d := d.flitsSent l (d.links[l].txSeq - n).toNat
    let y : Link := d.links[l]
    if y.lnkSent == some y.lnk then d else d.modLink l fun x => x.nopOut d.now true

/-- The port state machine may leave DISABLED: enabled, start-up complete, domain up (R180, R417). -/
def linkOn (d : Data) (l : LinkId) : Bool :=
  match linkPort l with
  | some p => d.ready && d.portEn p && !d.pwr.pllBad.getLsbD (aptDom p).val
  | none => d.ready && d.paired && !d.pwr.pllBad.getLsbD 29

/-- In INIT the first NOP flit, with the initial grants, follows the last SDM block (R180, R194). -/
def linkFirst (d : Data) (l : LinkId) : Data :=
  if d.links[l].st = .init ∧ d.links[l].lnkSent.isNone ∧ d.stsSent l 4 d.links[l].rate.toNat then
    (d.modLink l fun x => x.nopOut d.now true).initDone l
  else d

/-- What a link does whenever its conditions change (R180, R205). A reefed port in L1 keeps its link: its wake goes on with WAKE
(R208, R406, R409; assumption 75). -/
def linkSettle (d : Data) (l : LinkId) : Data :=
  let up := d.domUp (linkDom l)
  let dis := match linkPort l with | some p => d.flag (Reg.aptLinkCtl p.val) 0 | none => false
  let st := d.links[l].st
  let d := if !d.linkOn l ∨ (!up ∧ st ≠ .l1) then (if st = .disabled then d else d.linkOff l)
    else if st = .disabled ∧ !dis then d.linkDetect l
    else if st = .active ∧ dis then d.linkDown l
    else match linkPort l with
      | some p =>
        if st = .l1 ∧ (d.txWaits p ∨ d.links[l].exit) then (if up then d.linkWake l else d.domWake (aptDom p)) else d
      | none => d
  let gone := d.links[l].st != .active && d.links[l].st != .recover
  let d := if l = shdLink ∧ gone ∧ !d.pair.out.isEmpty then d.modPair fun x => { x with out := [] } else d
  ((d.trainDone l).linkFirst l).linkPump l

/-- Every link. -/
def linksSettle (d : Data) : Data := (List.finRange 17).foldl (fun (d : Data) l => d.linkSettle l) d

/-! ## Software (R206, R215) -/

/-- DIS written 1. -/
def linkDis (d : Data) (p : Agent) : Data :=
  let d := d.flagSet (Reg.aptLinkCtl p.val) 0 true
  if d.links[aptLink p].st = .active then d.linkDown (aptLink p) else d

/-- RETRAIN written 1: from DOWN to DETECT, unless DIS holds the link. -/
def linkRetrain (d : Data) (p : Agent) : Data :=
  if d.links[aptLink p].st = .down ∧ !d.flag (Reg.aptLinkCtl p.val) 0 then d.linkDetect (aptLink p) else d

/-- SHROUD_RETRY. -/
def shroudRetry (d : Data) : Data := if d.linkOver shdLink .down (ms 1) then d.linkDetect shdLink else d

end Data

end Sys2Proof.Machine
end

