-- ==== Sys2Proof/Machine/Firmware.lean ====
section
/-!
DEFINITION. Firmware images, activation records, and what the boot ROM does at a start of the management cluster
(R367 to R376).
-/

namespace Sys2Proof.Machine

/-! ## Images (R368) -/

/-- What an image says of itself: FW_VER, ARB, SET_VER. -/
structure ImgHead where
  ver : Word
  arb : Nat
  setVer : Nat
deriving DecidableEq, Repr

def imgHead (f : List Host.Cell) (base : Nat) : ImgHead :=
  let h := flashRead f base 64
  { ver := BitVec.ofNat 32 (leAt h 8 4), arb := leAt h 12 1, setVer := leAt h 14 2 }

/-- The first check that an image fails: 0 none, 1 header, 2 trailer, 3 key, 4 signature, 5 ARB (R368, R370). -/
def imgFault (fu : Fuses) (f : List Host.Cell) (base : Nat) : Nat :=
  let h := flashRead f base 64
  let len := leAt h 16 4
  let t := 64 + pad16 len
  if sub h 0 4 != [0x4B, 0x48, 0x52, 0x4D] || leAt h 4 2 != 1 || decide (flImage < t + 256) then 1
  else
    let tr := flashRead f (base + t) 256
    if sub tr 0 4 != [0x4B, 0x45, 0x4E, 0x44] || leAt tr 4 4 != len then 2
    else if !keyAccepted fu (leAt tr 16 1) (sub tr 32 96) then 3
    else if !ecdsaVerify (leAt tr 32 48) (leAt tr 80 48) (leAt tr 128 48) (leAt tr 176 48)
        (sha384 (flashRead f base (t + 32))) then 4
    else if leAt h 12 1 < fu.arb then 5
    else 0

/-! ## Activation records (R369) -/

/-- The 60 bytes that the CRC covers. -/
def actBytes (r : ActRec) : List Byte :=
  [0x4B, 0x41, 0x43, 0x54] ++ leBytes 2 1 ++ leBytes 2 0 ++ leBytes 4 r.seq ++ leBytes 1 r.cru ++ leBytes 1 r.copy ++ leBytes 2 r.blk ++
    leBytes 4 r.cruVer.toNat ++ leBytes 4 r.actVer.toNat ++ leBytes 4 r.bakVer.toNat ++ leBytes 1 (b2n r.trial) ++ leBytes 1 r.starts ++
    leBytes 2 r.trialSec ++ leBytes 1 (b2n r.golden + at_ (b2n r.rolled) 1) ++ List.replicate 27 0

/-- The 64 bytes of a record. -/
def actRecord (r : ActRec) : List Byte := actBytes r ++ leBytes 4 (crc32 (actBytes r)).toNat

/-- A stored record, where it is valid. -/
def actRead (l : List Byte) : Option ActRec :=
  if sub l 0 4 = [0x4B, 0x41, 0x43, 0x54] ∧ leAt l 4 2 = 1 ∧ (crc32 (sub l 0 60)).toNat = leAt l 60 4 then
    some { seq := leAt l 8 4, cru := leAt l 12 1, copy := leAt l 13 1, blk := leAt l 14 2, cruVer := BitVec.ofNat 32 (leAt l 16 4)
           actVer := BitVec.ofNat 32 (leAt l 20 4), bakVer := BitVec.ofNat 32 (leAt l 24 4), trial := leAt l 28 1 == 1, starts := leAt l 29 1
           trialSec := leAt l 30 2, golden := nbit (leAt l 32 1) 0, rolled := nbit (leAt l 32 1) 1 }
  else none

/-- The 64-byte slots of a copy in which something is written, rising. -/
def actSlots (f : List Host.Cell) (copy : Nat) : List Nat :=
  ((f.filter fun c => decide (flRecord copy ≤ c.1 ∧ c.1 < flRecord copy + flBlock)).map fun c => (c.1 - flRecord copy) / 64).eraseDups

/-- The newest record: the valid one of highest SEQ; every field 0 where there is none. -/
def actNewest (f : List Host.Cell) : ActRec :=
  let l := [0, 1].flatMap fun c => (actSlots f c).filterMap fun i => actRead (flashRead f (flRecord c + 64 * i) 64)
  l.foldl (fun a r => if a.seq < r.seq then r else a) {}

namespace Mgmt

/-- Writes a record with SEQ + 1 to the next unwritten slot of its copy, erasing a full copy first. -/
def recWrite (m : Mgmt) (g : ActRec → ActRec) : Mgmt :=
  let r := { g m.act with seq := m.act.seq + 1 }
  let i := (actSlots m.flash r.seq).foldl (fun a x => max a (x + 1)) 0
  let y := if i < 1024 then m else m.erase (flRecord r.seq) flBlock
  let i := if i < 1024 then i else 0
  { y.prog (flRecord r.seq + 64 * i) (actRecord r) with act := r }

/-! ## Copies (R372) -/

end Mgmt

/-- Erases block `b` of one area and programs it with that block of another. -/
def flashCopy (f : List Host.Cell) (src dst b : Nat) : List Host.Cell :=
  let lo := src + b * flBlock
  let dest := dst + b * flBlock
  let w := (f.filter fun c => decide (lo ≤ c.1 ∧ c.1 < lo + flBlock)).map fun c => (c.1 - lo + dest, c.2)
  (f.filter fun c => decide (c.1 < dest)) ++ w ++ f.filter fun c => decide (dest + flBlock ≤ c.1)

namespace Mgmt

/-- Copies the blocks from `start` on, with a record after every 16 that leave blocks to copy; whether it reached the end. At a
block whose read-back fails three times it stops, and the destination counts as invalid. -/
def copyRun (m : Mgmt) (src dst start : Nat) : Mgmt × Bool :=
  (List.range (128 - start)).foldl (fun (x : Mgmt × Bool) i =>
    let b := start + i
    let m := x.1.flashOp (dst + b * flBlock) flBlock fun f => flashCopy f src dst b
    if !x.2 then x
    else if !m.flashSound (dst + b * flBlock) flBlock then (m, false)
    else (if (b + 1) % 16 = 0 ∧ b + 1 < 128 then m.recWrite fun r => { r with blk := b + 1 } else m, true)) (m, true)

/-- The record that ends the copy of the crucible to active: the image is on trial. -/
def trialRec (r : ActRec) : ActRec := { r with copy := 0, blk := 0, trial := true, starts := 0, trialSec := 0, cru := 0, actVer := r.cruVer }

/-- Writes the record that ends a copy. -/
def copyEnd (x : Mgmt × Bool) (g : ActRec → ActRec) : Mgmt × Bool := (x.1.recWrite g, x.2)

/-- Crucible to active, from its first block. -/
def copyActive (m : Mgmt) (g : ActRec → ActRec) : Mgmt × Bool :=
  copyEnd ((m.recWrite fun r => { g r with copy := 2, blk := 0 }).copyRun flCrucible flActive 0) trialRec

/-- BAK_VER once active has been copied to backup, whole or not. -/
def bakRec (ok : Bool) (r : ActRec) : ActRec := { r with bakVer := if ok then r.actVer else 0 }

/-- The record that ends a rollback's copy. -/
def rolledRec (r : ActRec) : ActRec := { r with copy := 0, blk := 0, trial := false, rolled := true, actVer := r.bakVer }

/-- What the boot ROM does with an interrupted copy or a recorded activation, and whether no copy to active has failed (R372). -/
def bootCopies (m : Mgmt) (fu : Fuses) : Mgmt × Bool :=
  let r := m.act
  let ok := fun (f : List Host.Cell) (a : Nat) => imgFault fu f a == 0
  if r.copy = 1 then
    let (m, whole) := m.copyRun flActive flBackup r.blk
    if ok m.flash flCrucible then m.copyActive (bakRec whole)
    else (m.recWrite fun r => { bakRec whole r with copy := 0, blk := 0, cru := 0 }, true)
  else if r.copy = 2 then copyEnd (m.copyRun flCrucible flActive r.blk) trialRec
  else if r.copy = 3 then copyEnd (m.copyRun flBackup flActive r.blk) rolledRec
  else if r.cru = 4 then
    if !ok m.flash flCrucible then (m.recWrite fun r => { r with cru := 0 }, true)
    else if ok m.flash flActive then
      let (m, whole) := (m.recWrite fun r => { r with copy := 1, blk := 0 }).copyRun flActive flBackup 0
      m.copyActive (bakRec whole)
    else m.copyActive id
  else if r.cru = 3 ∧ !ok m.flash flActive ∧ ok m.flash flCrucible then m.copyActive id
  else (m, true)

/-- The trial count and the rollback (R372): whether it rolled back, and whether no copy to active has failed. -/
def bootTrial (m : Mgmt) (fu : Fuses) : Mgmt × Bool × Bool :=
  if !m.act.trial then (m, false, true)
  else if 3 ≤ m.act.starts ∨ 600 ≤ m.act.trialSec then
    if imgFault fu m.flash flBackup = 0 then
      let (m, whole) := copyEnd ((m.recWrite fun r => { r with copy := 3, blk := 0 }).copyRun flBackup flActive 0) rolledRec
      (m, true, whole)
    else ((m.erase flActive flBlock).recWrite fun r => { r with trial := false, rolled := true }, true, true)
  else (m.recWrite fun r => { r with starts := r.starts + 1 }, false, true)

/-- Step 2 of start-up: the image that boots, if any, and the events raised (R372, R377). -/
def bootRom (m : Mgmt) (fu : Fuses) : Mgmt × Option Nat × List Nat :=
  let m : Mgmt := { m with act := actNewest m.flash }
  let back := m.act.copy == 3
  let (m, whole) := m.bootCopies fu
  let (m, rolled, whole2) := m.bootTrial fu
  let evs := if rolled || back then [19] else []
  if imgFault fu m.flash flActive = 0 ∧ whole ∧ whole2 then
    let m := if m.act.golden then m.recWrite fun r => { r with golden := false } else m
    ({ m with golden := false }, some flActive, evs ++ (if m.act.trial then [14] else []))
  else
    let m := if m.act.golden then m else m.recWrite fun r => { r with golden := true }
    ({ m with golden := true }, if imgFault fu m.flash flGolden = 0 then some flGolden else none, evs ++ [20])

/-- Everything that the management cluster holds goes; the flash, the Ethernet link and the chain ports stay. -/
def stopped (m : Mgmt) : Mgmt :=
  { flash := m.flash, flashBad := m.flashBad, flashErr := m.flashErr, act := m.act, golden := m.golden, bootId := m.bootId, ethUp := m.ethUp
    chUp := { m.chUp with out := [] }, chDn := { m.chDn with out := [] }, logPos := m.logPos, logLen := m.logLen }

end Mgmt

namespace DM

/-- Raises events of the management cluster. -/
def mgtEvents (x : DM) (l : List Nat) : DM := { x with d := l.foldl (fun (d : Data) i => d.evMgt i) x.d }

/-- A start of the management cluster (R358, R365, R370 to R376): the boot ROM's work, then Hormal's. `x.d.pwr.boot` halts
where no image is valid. -/
def mgtStart (x : DM) : DM :=
  let (m, img, evs) := x.m.stopped.bootRom x.d.fuses
  match img with
  | none => ({ d := (x.d.modPwr fun p => { p with boot := if p.boot == .starting then .halted else p.boot, step := 2 }).ev 16, m := m } : DM).mgtEvents evs
  | some base =>
    let h := imgHead m.flash base
    let (v, d) := x.d.freeVal
    let m := { m with up := true, runVer := h.ver, setVer := h.setVer, imgArb := h.arb, bootId := v.truncate 32, startAt := x.d.now
                      trialAt := x.d.now, esubs := List.replicate 4 none }
    let again := m.act.cru == 2
    let bad2 := again && imgFault d.fuses m.flash flCrucible != 0
    let m := if again then { m.recWrite fun r => { r with cru := if bad2 then 0 else 3 } with offerDue := !bad2 } else m
    let (m, mig, bad) := m.setStart
    let d := (d.modPwr fun p => { p with wdtAt := d.now }).modEvt fun e => { e with fatalSeen := false }
    ({ d := d, m := m } : DM).mgtEvents (evs ++ (if mig then [21] else []) ++ (if bad then [22] else []) ++ (if bad2 then [12] else []))

/-! ## Confirmation (R373) -/

/-- Confirms a trial image: the record, the fused count, the settings slot. -/
def confirm (x : DM) : DM :=
  let m := x.m.recWrite fun r => { r with trial := false }
  let fu := { x.d.fuses with arb := max x.d.fuses.arb m.imgArb }
  { d := { x.d with fuses := fu }.evMgt 15, m := { m with setMigrated := false } }

end DM

end Sys2Proof.Machine
end

