-- ==== Sys2Proof/Machine/Power.lean ====
section
/-!
DEFINITION. The power manager (R406 to R420): resets, start-up, reefs and wakes, reference clocks, PLLs, the crystal, the D1
watchdog, and what the filtered pins PWRGD, RESET_N and PFW_N do.
-/

namespace Sys2Proof.Machine

namespace Data

/-! ## Resets (R414) -/

/-- Registers of the domains that `p` names return to their reset values. -/
def regsReset (d : Data) (p : Fin 30 → Bool) : Data :=
  { d with regs := d.regs.filter fun x => match regDom x.1 with | some i => !p i | none => true }

/-- What a cold reset leaves: the fuses, and the model's own counters. Start-up restores the remap list and the RET bits (R87, R88). -/
def coldReset (d : Data) : Data :=
  { fuses := d.fuses, now := d.now, seq := d.seq, free := d.free
    store := { refresh := d.store.refresh }
    ptp := { baseAt := d.now } }

/-- What a warm reset leaves besides: D0, with the straps, the tick number, EVT_PEND, the time and the registers in D0. -/
def warmReset (d : Data) : Data :=
  { d.coldReset with
    regs := d.regs.filter fun x => regDom x.1 == some 0
    evt := { pend := d.evt.pend, tick := d.evt.tick, latch := d.evt.latch &&& BitVec.ofNat 1024 0xFFFFFFFF }
    ptp := { d.ptp with locked := false, good := 0, ofs := 0 }
    pwr := { pg := d.pwr.pg, strap := d.pwr.strap, mgtMode := d.pwr.mgtMode, chainHead := d.pwr.chainHead, scanEn := d.pwr.scanEn
             disagree := d.pwr.disagree, cause := d.pwr.cause, flushed := d.pwr.flushed, step := d.pwr.step, bootUs := d.pwr.bootUs
             refbad := d.pwr.refbad, pwrgd := d.pwr.pwrgd, pfd := d.pwr.pfd, thermtrip := d.pwr.thermtrip } }

/-! ## Domains (R407 to R410) -/

/-- A domain comes up: AON event 9 and its count; D2 with it releases the domains that needed only it (R409). -/
def domUp1 (d : Data) (i : Fin 30) : Data := (((d.domSet i .up).ev 9).tally 40).modPwr fun p => { p with woken := setBit p.woken i.val false }
def domUp_ (d : Data) (i : Fin 30) : Data :=
  let ready := (List.finRange 30).filter fun j => d.pwr.woken.getLsbD j.val && domNeeds j == some i
  ready.foldl (fun (d : Data) j => d.domUp1 j) (d.domUp1 i)

/-- No item waits at a port in either direction. -/
def aptIdle (d : Data) (p : Agent) : Bool :=
  let x := d.ports[p]
  x.tx.isEmpty && x.mgqOut.isEmpty && x.mgqIn.isEmpty && x.held.isEmpty

/-- The conditions of R407 that concern the device's own state; those of D1's cluster are `mgt`. -/
def domCond (d : Data) (mgt : Bool) (i : Fin 30) : Bool :=
  if i.val = 0 then false
  else if i.val = 1 then
    mgt && !(d.evt.pend != 0 && (List.range 1024).any fun s => d.evt.pend.getLsbD s && d.evCores s) &&
      allAgents.all fun p => d.ports[p].mgqIn.all fun x => match x.1 with | .regRd .. => false | .regWr .. => false | .acc .. => false | _ => true
  else if i.val = 2 then
    (allSlices.all fun n => d.domAt (slcDom n) == .reefed) && !d.qBusy && (d.hlm.lanes.toList.all Option.isNone) && d.evt.list.isEmpty
  else
    match domSlice i, domAgent i with
    | some n, _ =>
      let s := d.slices[n]
      s.waiters.isEmpty && s.mt.isEmpty && s.htes.isEmpty && s.wb.isEmpty && s.spill.isEmpty && s.side.toList.all (fun e => e.st != .pend) &&
        s.mnt.isEmpty && s.cnsCnt == 0 && s.cnsOpen.isNone && s.stRd.isEmpty && s.fetches.isEmpty && !d.svc.fault.getLsbD n.val &&
        !d.svc.out.getLsbD n.val && (List.range 256).all fun b => !(d.ilvAt b).getLsbD 4 || (d.ilvAt b).toNat % 8 != n.val
    | _, some p => (d.links[aptLink p].st == .l1 || d.links[aptLink p].st == .disabled) && d.aptIdle p
    | _, _ =>
      if i.val = 29 then !d.paired
      else
        (d.dur.phase != .persist) && (domBkps i).all fun b =>
          (allSlices.all fun n =>
            (d.slices[n].mt.all fun e => d.bkpOf (2 * e.sec) != b || e.issued.isNone) &&
              (d.slices[n].side.toList.all fun e => e.st != .pend || d.bkpOf (2 * e.sec) != b || e.issued.isNone) &&
              d.slices[n].wb.all fun e => d.bkpOf e.ga != b || !e.issued) &&
            (d.dur.flush.all fun x => x.1 != b) && (d.pair.st == .unpaired || d.dur.jA != some b)

/-- The policy of a domain lets it reef: ALLOW_REEF, KEEP, and the conditions held for IDLE (R47, R407). -/
def domMayReef (d : Data) (mgt : Bool) (i : Fin 30) : Bool :=
  let w := d.powerWord i
  let idle := bits w 16 16
  d.domUsed i && nbit w 0 && !d.flag Reg.pwrKeep i.val && d.domCond mgt i &&
    (idle == 0 || match d.pwr.idle[i] with | some t => decide (t + us (10 * idle) ≤ d.now) | none => false)

/-- Follows how long each domain's conditions have held. -/
def idleSettle (d : Data) (mgt : Bool) : Data :=
  if d.pwr.boot ≠ .rdy then d
  else
    d.modPwr fun p =>
      { p with idle := Vector.ofFn fun i : Fin 30 => if d.domCond mgt i then some (p.idle[i].getD d.now) else none }

/-- DOMAIN_IDLE_REEF. -/
def domIdleReef (d : Data) (mgt : Bool) (i : Fin 30) : Data :=
  if d.pwr.boot = .rdy ∧ bits (d.powerWord i) 16 16 ≠ 0 ∧ d.domMayReef mgt i then d.domReef i else d

/-- DOMAIN_REEF_COMPLETE: AON event 8; a wake source that came meanwhile is acted on, as is an entry of the delivery list, which
wakes D2 (R319). -/
def domReefed (d : Data) (i : Fin 30) : Data :=
  match d.domAt i with
  | .reefing _ wake =>
    let d := ((d.domLose i).ev 8).tally 41
    let d := if i.val = 1 then d.modPwr fun p => { p with d1At := d.now } else d
    if wake || (i.val == 2 && !d.evt.list.isEmpty) then d.domSet i (.waking d.now) else d.domSet i .reefed
  | _ => d

/-- DOMAIN_WAKE: a wake source of the domain arrives. -/
def domWakeSrc (d : Data) (i : Fin 30) : Data := if d.pwr.boot = .rdy then d.domWake i else d

/-- DOMAIN_WAKE_COMPLETE: up, once the domain that it needs is up. -/
def domWoken (d : Data) (i : Fin 30) : Data :=
  match d.domAt i with
  | .waking _ =>
    if (match domNeeds i with | some j => d.domUp j | none => true) then d.domUp_ i
    else d.modPwr fun p => { p with woken := setBit p.woken i.val true }
  | _ => d

/-- What the failure of a domain's resource means (R410). -/
def domFail (d : Data) (i : Fin 30) : Data :=
  match domSlice i, domAgent i with
  | some n, _ => d.sliceFault n
  | _, some p => d.linkDown (aptLink p)
  | _, _ => (domBkps i).foldl (fun (d : Data) b => if d.bkpUsed b then d.bkpFailPort b else d) d

/-- DOMAIN_WAKE_TIMEOUT: 1 ms after the wake source. -/
def domWakeTimeout (d : Data) (i : Fin 30) : Data :=
  match d.domAt i with
  | .waking t => if t + ms 1 ≤ d.now then (((d.domSet i .reefed).modPwr fun p => { p with woken := setBit p.woken i.val false }).ev 7).domFail i else d
  | _ => d

/-- PLL_LOCK_FAILURE: the third try has failed (R412). -/
def pllFail (d : Data) (i : Fin 30) : Data :=
  if i.val = 0 ∨ d.pwr.boot = .off then d
  else
    let d := ((d.modPwr fun p => { p with pllBad := setBit p.pllBad i.val true, woken := setBit p.woken i.val false }).ev 6).domSet i .reefed
    match domSlice i with
    | some n => d.sliceFault n
    | none => (domBkps i).foldl (fun (d : Data) b => d.modBkp b fun x => { x with st := .unused }) d

/-! ## Clocks (R411, R413) -/

/-- REFCLK_FAILURE: A0 feeds APT0–7, A1 APT8–15, B the backing ports, S the shroud. -/
def refFail (d : Data) (k : Fin 4) : Data :=
  if d.pwr.boot = .off then d
  else
    let d := (d.modPwr fun p => { p with refbad := setBit p.refbad k.val true }).stamp Reg.clkStat (BitVec.twoPow 32 (k.val + 1)) |>.ev 5
    let live := fun (l : LinkId) => d.links[l].st != .disabled && d.links[l].st != .down
    if k.val ≤ 1 then
      (allAgents.filter fun p => p.val / 8 == k.val && live (aptLink p)).foldl (fun (d : Data) p => d.linkDown (aptLink p)) d
    else if k.val = 2 then d.usedBkps.foldl (fun (d : Data) b => d.bkpFailPort b) d
    else if live shdLink then d.linkDown shdLink
    else d

end Data

namespace DM

/-- CRYSTAL_FAILURE: XFAIL, FATAL event 4, and every domain but D0 in reset until power good falls. -/
def crystalFail (x : DM) : DM :=
  if x.d.pwr.boot = .off ∨ x.d.pwr.xfail then x
  else { d := (x.d.warmReset.modPwr fun p => { p with xfail := true, boot := .stopped }).ev 4, m := x.m.stopped }

/-! ## Start-up (R417 to R419) -/

/-- A failure at a step (R419). -/
def stepFail (x : DM) (k : Nat) : DM := { x with d := (x.d.modPwr fun p => { p with step := BitVec.ofNat 4 k }).ev 16 }

/-- The end of step 3 and steps 4 to 7: what firmware kept is restored, domains, HBM3E training and backing ports, zeroing, journal. -/
def startTail (x : DM) (e : StartEnv) : DM :=
  let d := x.m.keptRestore x.d
  let d := (allDoms.filter fun i => 3 ≤ i.val && d.domUsed i).foldl (fun (d : Data) i => d.domUp_ i) d
  let d := allBkps.foldl (fun (d : Data) b =>
    if d.bkpUsed b then (d.modBkp b fun x => { x with st := .training }).bkpLink b e.ports[b] (d.bkpMhd b)
    else d.modBkp b fun x => { x with st := .unused }) d
  let failed := d.usedBkps.any fun b => d.bkps[b].st == .failed
  let x := { x with d := d }
  let x := if failed then x.stepFail 4 else x
  let d := (x.d.modPwr fun p => { p with boot := .flushing }).lfsrSeed
  let d := if d.paired then d.modPair fun p => { p with st := .wait } else d
  let d := (d.journalStart e).modHlm fun h => { h with run := true }
  let x := { x with d := d }
  if d.dur.nojrnl then x.stepFail 7 else x

/-- Start-up goes no further than D2 (R419). -/
def startHeld (x : DM) (k : Nat) : DM := ({ x with d := x.d.modPwr fun p => { p with boot := .rigless } } : DM).stepFail k

/-- Steps 3 to 7, once the management cluster runs. -/
def startRest (x : DM) (e : StartEnv) : DM :=
  if x.d.pwr.boot == .halted then { x with d := x.d.domSet 1 .reefed }
  else if (x.d.rigLoad x.m.flash).rig.isNone then ({ x with d := (x.d.rigLoad x.m.flash).domUp_ 2 } : DM).startHeld 3
  else if !e.hbm then ({ x with d := ((x.d.rigLoad x.m.flash).domUp_ 2).ev 10 } : DM).startHeld 4
  else startTail { x with d := (x.d.rigLoad x.m.flash).domUp_ 2 } e

/-- Start-up from step 2: firmware, rig, D2 and what follows. -/
def startUp (x : DM) (e : StartEnv) : DM :=
  (mgtStart { x with d := (x.d.modPwr fun p => { p with boot := .starting }).domSet 1 .up }).startRest e

/-- Start-up from step 1 after a cold reset. -/
def coldStart (x : DM) (e : StartEnv) (cause : BitVec 3) : DM :=
  let d := (x.d.modPwr fun p => { p with pwrgd := true, pg := some x.d.now, boot := .starting, cause := cause }).ev 0
  let x := { x with d := d }
  if e.crystal then x.startUp e else x.crystalFail.stepFail 1

/-- The management cluster, its SRAM and the chain ports after a reset of every domain. -/
def coldMgmt (m : Mgmt) : Mgmt := { flash := m.flash, flashBad := m.flashBad, logPos := m.logPos, logLen := m.logLen }

/-- POWER_GOOD. -/
def powerGood (x : DM) (e : StartEnv) : DM := if x.d.pwr.boot = .off ∧ !x.d.pwr.pwrgd then x.coldStart e 0 else x

/-- PWRGD_LOW: a cold reset. -/
def pwrgdLow (x : DM) : DM := { d := x.d.coldReset, m := coldMgmt x.m }

/-- DONE_RESTART: a cold reset and a start from step 1 (R238). PWRGD stays high, so THERMTRIP_N stays as it is (R445). -/
def doneRestart (x : DM) (e : StartEnv) : DM :=
  match x.d.dur.doneAt with
  | some _ =>
    if x.d.pwr.pwrgd ∧ x.d.pwr.warm.isNone then
      ({ d := x.d.coldReset.modPwr fun p => { p with thermtrip := x.d.pwr.thermtrip }, m := coldMgmt x.m } : DM).coldStart e 1
    else x
  | none => x

/-- STRAP_SAMPLE: the third one decides by majority (R420). -/
def strapSample (d : Data) (k : Fin 3) (a b c : Bool) : Data :=
  match d.pwr.pg with
  | none => d
  | some t =>
    if d.pwr.strap.length ≠ k.val ∨ d.now < t + us (100 * (k.val + 1)) then d
    else
      let l := d.pwr.strap.concat (a, b, c)
      let d := d.modPwr fun p => { p with strap := l }
      if k.val ≠ 2 then d
      else
        let maj := fun (f : Bool × Bool × Bool → Bool) => decide (2 ≤ (l.filter f).length)
        let diff := l.any fun x => x != (a, b, c)
        let d := d.modPwr fun p => { p with mgtMode := maj (·.1), chainHead := maj (·.2.1), scanEn := maj (·.2.2), disagree := diff }
        if diff then d.ev 3 else d

/-- RDY: the journal is flushed; slices admit and ports leave DISABLED; domains with START_REEFED reef, but for D0 and those
that PWR_KEEP names (R406, R417, R422). -/
def rdy (d : Data) : Data :=
  if d.pwr.boot ≠ .flushing ∨ !d.dur.flush.isEmpty then d
  else
    let t := (d.now - d.pwr.pg.getD 0) / 1600
    let d := (d.modPwr fun p => { p with boot := .rdy, bootUs := min 0xFFFFFF t }).ev 15
    let d := (d.modPair fun p => { p with waitAt := d.now }).modStore fun s => { s with periodAt := Vector.replicate 32 d.now }
    (allDoms.filter fun i => i.val != 0 && nbit (d.powerWord i) 1 && !d.flag Reg.pwrKeep i.val).foldl (fun (d : Data) i => d.domReef i) d

/-! ## Warm resets (R415) -/

/-- Starts the power-fail sequence (R232, R238). -/
def failGo (d : Data) : Data :=
  if d.pwr.boot = .off ∨ d.pwr.xfail ∨ d.dur.tr.isSome then d
  else if d.pwr.boot = .rdy then (d.failStart.pairTr).svcTr
  else d.failEarly

/-- Recognises a warm reset: at once before RDY, at Done where a sequence has run, else through the sequence. -/
def warmGo (d : Data) (cause : BitVec 3) : Data :=
  let mark := fun (d : Data) (t : Nat) => d.modPwr fun p => { p with warm := some (t, cause) }
  if d.pwr.boot = .off ∨ d.pwr.xfail ∨ d.pwr.warm.isSome then d
  else if d.dur.tr.isSome then if d.dur.phase = .done then mark d (d.now + us 10) else d
  else if d.pwr.boot = .rdy then mark (failGo d) d.now
  else mark d d.now

/-- PFW_N recognised low. -/
def powerFail (d : Data) : Data := failGo d

/-- RESET_N recognised low; ignored from any TR until Done. -/
def resetN (d : Data) : Data := warmGo d 2

/-- WARM_RESET_EFFECT: 10 µs after Done; PFD is released, FLUSHED says whether the sequence ran, and start-up runs from
step 2. -/
def warmEffect (x : DM) (e : StartEnv) : DM :=
  match x.d.pwr.warm with
  | none => x
  | some (t, cause) =>
    let due := decide (t ≤ x.d.now) && (x.d.dur.tr.isNone || match x.d.dur.doneAt with | some u => decide (u + us 10 ≤ x.d.now) | none => false)
    if !due then x
    else
      let d := (x.d.warmReset.modPwr fun p => { p with cause := cause, flushed := x.d.dur.tr.isSome, pfd := false }).ev 1
      ({ d := d, m := { x.m.stopped with up := false } } : DM).startUp e

/-! ## Management resets (R414, R420) -/

/-- A reset of D1 alone: its registers, banks, mailboxes and cluster, and a new start of it. -/
def mgtReset (x : DM) : DM :=
  let d := x.d.regsReset fun i => i.val == 1
  let d := { d with banks := Vector.replicate 17 {}, mbx := Vector.replicate 8 {}, rigErr := 0, rigErrSec := 0, rigBusyGo := false, rigFallback := false }
  let d := (d.modPtp fun p => { p with ofs := 0 }).modSvc fun v => { v with assayPass := false, assayFail := false, struct := 0 }
  (({ x with d := d.domSet 1 .up } : DM).mgtStart).mgtEvents [26]

/-- The same with its cause. -/
def mgtRestart (x : DM) (cause : BitVec 3) : DM := ({ x with d := x.d.modPwr fun p => { p with cause := cause } } : DM).mgtReset

/-- WATCHDOG_EXPIRY. -/
def watchdog (x : DM) : DM :=
  let t := x.d.fld Reg.pwrWdt 0 16
  if x.d.domUp 1 ∧ x.m.up ∧ t ≠ 0 ∧ x.d.pwr.wdtAt + ms t ≤ x.d.now then ({ x with d := x.d.ev 2 } : DM).mgtRestart 4 else x

/-- D1_WAKE_TIMER. -/
def d1Wake (d : Data) : Data :=
  let t := d.fld Reg.pwrWdt 17 15
  if d.domAt 1 = .reefed ∧ t ≠ 0 ∧ d.pwr.d1At + ms (10 * t) ≤ d.now then d.domWakeSrc 1 else d

/-- The conditions of R407 that concern the management cluster: `x.m.img` and the lock stand for copies in hand. -/
def mgtIdle (x : DM) : Bool :=
  x.m.lock == .free && x.m.img.isNone && x.m.chUp.held.isEmpty && x.m.chDn.held.isEmpty && decide (x.m.msgAt + ms 1000 ≤ x.d.now)

/-! ## PWR_DOM_CTL (R416, R422) -/

def domRefuse (x : DM) : DM := { x with d := x.d.raise Reg.pwrDomCtl 8 }

/-- UNREEF. -/
def domUnreef (x : DM) (i : Nat) : DM :=
  if h : i < 30 then
    if x.d.domUsed ⟨i, h⟩ ∧ x.d.pwr.boot = .rdy then { x with d := (x.d.domWake ⟨i, h⟩).domCtl i } else x.domRefuse
  else x.domRefuse

/-- REEF, where R407 holds. -/
def domReefOp (x : DM) (i : Nat) : DM :=
  if h : i < 30 then
    if x.d.pwr.boot = .rdy ∧ x.d.domMayReef x.mgtIdle ⟨i, h⟩ then { x with d := (x.d.domReef ⟨i, h⟩).domCtl i } else x.domRefuse
  else x.domRefuse

/-- A domain reset is refused (R416). -/
def resetRefused (d : Data) (i : Fin 30) : Bool :=
  match Data.domSlice i, Data.domAgent i with
  | some n, _ => !d.svc.out.getLsbD n.val
  | _, some p => d.links[Data.aptLink p].st != .down && d.links[Data.aptLink p].st != .disabled
  | _, _ =>
    if i.val = 0 ∨ i.val = 2 then true
    else if i.val = 29 then d.paired
    else (Data.domBkps i).any fun b => d.bkps[b].st != .failed && d.bkps[b].st != .unused

/-- RESET of a domain other than D1: its registers and its state, and it unreefs clean. A FAILED backing port is then DOWN, the
reset value of STATE (R11, R255), and its capacity is still out of the backing map (R231); an unused one stays unused
(assumption 77). -/
def domReset (d : Data) (i : Fin 30) : Data :=
  let d := d.regsReset fun j => j == i
  let d := match Data.domSlice i, Data.domAgent i with
    | some n, _ => (d.modSlice n fun s => { sets := (Slice.clean s).sets }).sliceStoreClear n
    | _, some p => (d.linkOff (Data.aptLink p)).modPort p fun y => { iso := y.iso }
    | _, _ =>
      if i.val = 29 then d.modLink Data.shdLink fun _ => {}
      else
        (Data.domBkps i).foldl (fun (d : Data) b => d.modBkp b fun y =>
          { st := if y.st = BkpSt.failed then .down else y.st, mapGib := if y.st = BkpSt.failed then 0 else y.mapGib, capMib := y.capMib, dirtySet := y.dirtySet, cleanWait := y.cleanWait, returning := y.returning }) d
  if d.domUsed i then d.domSet i (.waking d.now) else d

/-- RESET. -/
def domResetOp (x : DM) (i : Nat) : DM :=
  if h : i < 30 then
    let k : Fin 30 := ⟨i, h⟩
    if resetRefused x.d k then x.domRefuse
    else if i = 1 then
      let (v, d) := x.d.freeVal
      ({ x with d := d } : DM).mgtRestart (v.truncate 3)
    else { x with d := (domReset x.d k).domCtl i }
  else x.domRefuse

end DM

end Sys2Proof.Machine
end

