-- ==== Sys2Proof/Machine/Chain.lean ====
section
/-!
DEFINITION. The halyard chain as its sender sees it (R363 to R365, R371): frames, frame-buffer credit, enumeration, image
offers. The payload layouts of the image frames are the model's (assumption 36).
-/

namespace Sys2Proof.Machine

/-! ## Frames (R363) -/

/-- The bytes of a frame between K27.7 and K29.7. -/
def hframe (dst src ty : Byte) (p : List Byte) : List Byte :=
  let b := [dst, src, ty, 0] ++ leBytes 2 p.length ++ p
  b ++ leBytes 4 (crc32 b).toNat

/-- A frame whose LEN and CRC are good. -/
def hframeOk (f : List Byte) : Bool :=
  let n := leAt f 4 2
  decide (n ≤ 1536) && f.length == n + 10 && (crc32 (f.take (n + 6))).toNat == leAt f (n + 6) 4

def hframePayload (f : List Byte) : List Byte := sub f 6 (leAt f 4 2)

/-- Where a frame goes to or comes from: the port and an address. -/
def chainSrc (down : Bool) (a : Byte) : TmpSrc := if down then .chainDown a else .chainUp a

namespace Mgmt

def chain (m : Mgmt) (down : Bool) : ChainPort := if down then m.chDn else m.chUp
def modChain (m : Mgmt) (down : Bool) (f : ChainPort → ChainPort) : Mgmt :=
  if down then { m with chDn := f m.chDn } else { m with chUp := f m.chUp }

/-- SRC of this unit's frames. -/
def chainId (m : Mgmt) : Byte := match m.addr with | some a => a.zeroExtend 8 | none => 0xFE

/-- Starts the frames for which the neighbour has a buffer. -/
def chainPump (m : Mgmt) (down : Bool) : Mgmt :=
  let p := m.chain down
  let k := if p.up then min p.credits p.out.length else 0
  { (m.modChain down fun p => { p with credits := p.credits - k, out := p.out.drop k }) with
    out := m.out ++ (p.out.take k).map fun f => (chainSrc down (f.headD 0), f) }

/-- The tag that lets a unit offer and take images over the chain, and the CRU_STATE of a verified image. -/
def offers (m : Mgmt) : Bool := m.act.cru == 3 && m.setOn tagChainUpd

end Mgmt

namespace DM

/-- The management cluster runs. -/
def mgtUp (x : DM) : Bool := x.d.domUp 1 && x.m.up

/-- Sends a frame; one for a port that is down is discarded and counted (R364). -/
def chainSend (x : DM) (down : Bool) (f : List Byte) : DM :=
  if (x.m.chain down).up then { x with m := (x.m.modChain down fun p => { p with out := p.out.concat f }).chainPump down }
  else { x with d := x.d.fldCnt Reg.halErrCnt 16 16 1 }

/-- Sends a hop-only frame of this unit. -/
def hopSend (x : DM) (down : Bool) (ty : Byte) (p : List Byte) : DM := x.chainSend down (hframe 0xFF x.m.chainId ty p)

/-! ## Enumeration (R365) -/

/-- The head takes address 0 and sends ENUM. -/
def enumHead (x : DM) : DM := ({ x with m := { x.m with addr := some 0 } } : DM).hopSend true 1 [0]

/-- HAL_CTL.ENUM; nothing on a unit that is not the head. -/
def halEnum (x : DM) : DM := if x.d.pwr.chainHead ∧ x.mgtUp then x.enumHead else x

/-- A downstream port comes up. -/
def enumDown (x : DM) : DM :=
  if x.d.pwr.chainHead then x.enumHead
  else match x.m.addr with
  | some a => x.hopSend true 1 [a.zeroExtend 8]
  | none => x

/-- ENUM with COUNT `c` on the upstream port. -/
def enumRecv (x : DM) (c : Nat) : DM :=
  if c < 0x3F then
    let x : DM := { x with m := { x.m with addr := some (BitVec.ofNat 6 (c + 1)) } }
    let a := BitVec.ofNat 8 (c + 1)
    if x.m.chDn.up then x.hopSend true 1 [a] else x.chainSend false (hframe 0 a 2 [a])
  else if c = 0x3F then { d := (x.d.stamp Reg.halStat 0x10000).evMgt 10, m := { x.m with addr := none, overlong := true } }
  else x

/-- ENUM_DONE at the head. -/
def enumDoneRecv (x : DM) (a : Nat) : DM :=
  if x.d.pwr.chainHead then { d := x.d.evMgt 9, m := { x.m with lastAddr := BitVec.ofNat 6 a } } else x

/-! ## Image offers (R371) -/

/-- The image in the crucible, header to trailer. -/
def cruImage (m : Mgmt) : List Byte := flashRead m.flash flCrucible (min flImage (64 + pad16 (leAt (flashRead m.flash flCrucible 64) 16 4) + 256))

/-- Offers the verified image to one neighbour, unless it came from there. -/
def offerTo (x : DM) (down : Bool) : DM :=
  if x.m.offers ∧ x.m.imgFrom ≠ some down ∧ (x.m.chain down).up then
    let b := cruImage x.m
    let x := x.hopSend down 4 (leBytes 4 x.m.act.cruVer.toNat ++ leBytes 1 (leAt b 12 1) ++ leBytes 4 b.length ++ sha384 b)
    { x with d := x.d.evMgt 25 }
  else x

/-- Offers it to both. -/
def offerAll (x : DM) : DM := (x.offerTo false).offerTo true

end DM

end Sys2Proof.Machine
end

