-- ==== Sys2Proof/Machine/Access.lean ====
section
/-!
DEFINITION. Register accesses (R335 to R353): checks, widths, reads with their side effects, writes by field type, what each
register does when written, posted writes, mailboxes, and the accesses that arrive by MGQ (R211).
-/

namespace Sys2Proof.Machine

/-! ## Which accesses are refused (R336, R450, R451) -/

/-- An access of `w` bytes is aligned; two register pairs of TOP are excepted. -/
def accAligned (a w : Nat) : Bool := a % w == 0 || (w == 8 && (a == Reg.topCbypLo || a == Reg.topCbypStaleLo))

/-- The access is reserved to the management cluster. -/
def accMgtOnly (a : Nat) (write : Bool) : Bool :=
  (write && (a == Reg.rigReload || a == Reg.stoFlipLo || a == Reg.stoFlipMid || a == Reg.stoFlipHi || a == Reg.evtForce)) ||
    decide (0x1000000 ≤ a ∧ a < 0x1100000 ∧ 0x30 ≤ a % 0x40)

/-- CAUSE of an access that gets the error response. -/
def accCause (a w : Nat) (write mgq : Bool) : Option (BitVec 3) :=
  if !accAligned a w then some 1
  else if (regDom a).isNone then some 2
  else if mgq && (accMgtOnly (a / 4 * 4) write || (w == 8 && accMgtOnly (a + 4) write)) then some 3
  else none

/-- Bits of the bytes that four byte enables name. -/
def laneMask (be : Nat) : Word :=
  (List.range 4).foldl (fun (m : Word) i => if nbit be i then m ||| ((0xFF : Word) <<< (8 * i)) else m) 0

/-- Bytes of an access. -/
def accBytes : AccWidth → Nat
  | .w8 => 1 | .w16 => 2 | .w32 => 4 | .w64 => 8

/-! ## Field types (R9, R338) -/

/-- Bits of a register whose field has one of some access types. -/
def accMask (row : RegRow) (p : Acc → Bool) : Word :=
  BitVec.ofNat 32 ((row.flds.map fun f => if p f.acc then at_ (2 ^ f.n - 1) f.lo else 0).foldl (· ||| ·) 0)

/-- The new bits of a register after a write of `v` in the bits `en`; TRG and RO bits stand. -/
def accApply (row : RegRow) (old v en : Word) : Word :=
  let rw := accMask row (fun a => a == .rw || a == .rws || a == .wo) &&& en
  let clr := accMask row (· == .w1c) &&& en &&& v
  let set := accMask row (· == .w1s) &&& en &&& v
  (((old &&& ~~~rw) ||| (v &&& rw)) &&& ~~~clr) ||| set

namespace Data

/-- Stores what a write leaves in the fields that the register file holds. -/
def regWrite (d : Data) (a : Nat) (v en : Word) : Data :=
  match regRow a with
  | some row => d.regSet a (accApply row (d.reg a) v en)
  | none => d

/-- The block of an address is reefed, or its resource is not in the rig (R344, R449). -/
def blockReefed (d : Data) (a : Nat) : Bool :=
  match regDom a with
  | some i => !d.domUp i || (decide (0x300000 ≤ a ∧ a < 0x340000) && !d.bkpUsed (Fin.ofNat 4 ((a - 0x300000) / 0x10000)))
  | none => false

/-- The error response in the requester's bank. -/
def accError (d : Data) (r : Requester) (cause : BitVec 3) (a : Nat) : Data :=
  (d.modBank r fun b => { b with accErr := true, cause := cause, errAddr := BitVec.ofNat 32 a }).stampBank r 0

def accReefed (d : Data) (r : Requester) : Data := (d.modBank r fun b => { b with reefed := true }).stampBank r 1

/-! ## Software and hardware in one cycle (R351, R352) -/

/-- The address under which the hardware's updates of a register are recorded: REG_STAT is banked. -/
def cycReg (r : Requester) (a : Nat) : Nat := if a = Reg.regStat then bankReg r else a

/-- The W1C bits of a register that the hardware has set in this cycle: they stay 1. -/
def hwSet (c : Cyc) (a : Nat) : Word := SMap.get 0 c.set a

/-- The counter fields that a write has loaded take the increments of the cycle on top. -/
def cntLoad (d : Data) (c : Cyc) (a : Nat) (v en : Word) : Data :=
  match regRow a with
  | none => d
  | some row => row.flds.foldl (fun (d : Data) f =>
      let e := bits en.toNat f.lo f.n
      match SMap.get none c.was (32 * a + f.lo) with
      | some b =>
        if f.acc == .rw && e != 0 then
          let w := (b &&& (2 ^ f.n - 1 - e)) ||| (bits v.toNat f.lo f.n &&& e)
          d.fldSet a f.lo f.n (satAdd (2 ^ f.n - 1) w (SMap.get 0 c.inc (32 * a + f.lo)))
        else d
      | none => d) d

/-- Where the wide part of a capture stands. -/
def capWide (d : Data) (a wide : Nat) : Data :=
  let o := a % 0x10000
  if 0x100000 ≤ a ∧ a < 0x180000 then
    d.modSlice (Fin.ofNat 8 ((a - 0x100000) / 0x10000)) fun s =>
      if o = 0x6C then { s with perrGa := wide } else if o = 0x84 then { s with tmoGa := wide } else s
  else if 0x200000 ≤ a ∧ a < 0x300000 then d.modPort (Fin.ofNat 16 ((a - 0x200000) / 0x10000)) fun x => { x with errGaddr := BitVec.ofNat 46 wide }
  else if a = Reg.stoErrCap then d.modStore fun s => { s with capAddr := wide }
  else d

/-- A capture that came in the cycle in which VALID is cleared is held, and MORE is as it was before (R351). -/
def lateHold (d : Data) (c : Cyc) (a : Nat) (v en : Word) : Data :=
  match SMap.get none c.late a with
  | none => d
  | some x =>
    if d.flag a x.vb then d
    else
      let more := match x.mb with
        | some m => if x.again || (x.was && !(v &&& en).getLsbD m) then BitVec.twoPow 32 m else 0
        | none => 0
      ((d.regSet a (x.v ||| (d.reg a &&& x.keep) ||| more)).capWide a x.wide).modCyc fun c => { c with late := SMap.set none c.late a none }

/-- The RC fields of a value read as before the cycle. -/
def rcWas (d : Data) (a : Nat) (v : Word) : Word :=
  match regRow a with
  | none => v
  | some row => row.flds.foldl (fun (v : Word) f =>
      match SMap.get none d.cycNow.was (32 * a + f.lo) with
      | some b => if f.acc == .rc then BitVec.ofNat 32 (v.toNat - bits v.toNat f.lo f.n * 2 ^ f.lo + (b % 2 ^ f.n) * 2 ^ f.lo) else v
      | none => v) v

/-- A count that a read has taken holds the increments of the cycle alone. -/
def rcZero (d : Data) (a lo n : Nat) : Data :=
  d.fldSet a lo n (match SMap.get none d.cycNow.was (32 * a + lo) with | some _ => min (2 ^ n - 1) (SMap.get 0 d.cycNow.inc (32 * a + lo)) | none => 0)

/-! ## Read side effects (R9, R337, R349) -/

/-- What a read of 32 bits or wider does to a register other than POP_LO. -/
def readEffect (d : Data) (a : Nat) : Data :=
  let n : SliceId := Fin.ofNat 8 ((a - 0x100000) / 0x10000)
  let o := a % 0x10000
  if a = Reg.durPeak then d.modDur fun u => { u with peak := d.load }
  else if 0x60000 ≤ a ∧ a < 0x60200 then
    let m : Fin 8 := Fin.ofNat 8 ((a - 0x60000) / 0x40)
    if 0x10 ≤ a % 0x40 ∧ d.mbx[m].pend then (d.modMbx m fun x => { x with early := true }).stamp (Reg.mbxStat m.val) 4 else d
  else if 0x100000 ≤ a ∧ a < 0x180000 then
    if o = 0x14 then d.fldSet a 6 6 (min 63 d.slices[n].wb.length)
    else if o = 0x18 then d.fldSet a 7 7 (min 127 d.slices[n].mt.length)
    else if o = 0x24 then d.rcZero a 0 16
    else if o = 0x88 then d.fldSet a 9 9 (min 511 d.slices[n].owed.length)
    else if o = 0xA4 then d.rcZero a 0 16
    else d
  else if 0x300000 ≤ a ∧ a < 0x340000 then
    if o = 0x0C then (d.rcZero a 0 16).modBkp (Fin.ofNat 4 ((a - 0x300000) / 0x10000)) fun x => { x with wndSeen := false } else d
  else d

end Data

namespace DM

/-- A read of a whole register of a block that is up: the state after its side effect, and the value. -/
def readReg (x : DM) (r : Requester) (a : Nat) (upset : BitVec 67 := 0) : DM × Word :=
  if 0x1000000 ≤ a ∧ a % 0x40 = 0x38 then
    let (d, w) := x.d.qPopLo ((a - 0x1000000) / 0x40) upset
    ({ x with d := d }, w)
  else ({ x with d := x.d.readEffect a }, x.d.rcWas a (x.view r a))

/-- One 32-bit part of a read. -/
def readPart (x : DM) (r : Requester) (a : Nat) (upset : BitVec 67 := 0) : DM × Word :=
  if x.d.blockReefed a then ({ x with d := x.d.accReefed r }, 0) else x.readReg r a upset

/-! ## What registers do when they are written -/

/-- Bit `i` of the value, where it is written. -/
def hit (v en : Word) (i : Nat) : Bool := v.getLsbD i && en.getLsbD i

/-- Clears the bits written as 1 of 32 bits of a wide set of flags. -/
def wideClear {w : Nat} (x : BitVec w) (k : Nat) (v en : Word) : BitVec w := x &&& ~~~((v &&& en).setWidth w <<< (32 * k))

/-- Writes 32 bits of a wide set of flags. -/
def widePut {w : Nat} (x : BitVec w) (k : Nat) (v en : Word) : BitVec w :=
  (x &&& ~~~(en.setWidth w <<< (32 * k))) ||| ((v &&& en).setWidth w <<< (32 * k))

/-- A write of W1C bits of a requester's REG_STAT (R353). -/
def bankClear (d : Data) (r : Requester) (v en : Word) : Data :=
  d.modBank r fun b =>
    { b with accErr := b.accErr && !hit v en 0, reefed := b.reefed && !hit v en 1, pwait := b.pwait && !hit v en 3 }

def writeTop (d : Data) (r : Requester) (a : Nat) (v en : Word) : Data :=
  if a = Reg.regStat then bankClear d r v en
  else if a = Reg.topCbypCtl then
    let n : Fin 64 := Fin.ofNat 64 (d.fld a 0 6)
    if hit v en 6 && hit v en 7 then (d.raise a 8).evSlices 10
    else if hit v en 6 then d.bypDis n
    else if hit v en 7 then d.bypEn n
    else d
  else if a = Reg.topCbypStaleLo then { d with bypStale := wideClear d.bypStale 0 v en }
  else if a = Reg.topCbypStaleHi then { d with bypStale := wideClear d.bypStale 1 v en }
  else if a = Reg.topSlcCtl then
    if hit v en 4 then
      let n : SliceId := Fin.ofNat 8 (d.fld a 0 3)
      if d.flag a 3 then d.slcReturn n else d.slcDrain n
    else d
  else if a = Reg.topArts then if hit v en 4 then d.artsGo (Fin.ofNat 16 (d.fld a 0 4)) else d
  else d

def writePwr (x : DM) (a : Nat) (v en : Word) : DM :=
  if a = Reg.pwrDomCtl then
    if hit v en 7 then
      let i := x.d.fld a 0 5
      let op := x.d.fld a 5 2
      if op = 0 then x.domUnreef i else if op = 1 then x.domReefOp i else if op = 2 then x.domResetOp i else x.domRefuse
    else x
  else if a = Reg.pwrWdt then if hit v en 16 then { x with d := x.d.modPwr fun p => { p with wdtAt := x.d.now } } else x
  else if a = Reg.clkStat then
    { x with d := x.d.modPwr fun p => { p with refbad := p.refbad &&& ~~~((v &&& en).extractLsb' 1 4) } }
  else x

def writeEvt (d : Data) (a : Nat) (v en : Word) : Data :=
  if a = Reg.evtForce then if hit v en 10 then d.evForce (BitVec.ofNat 10 (d.fld a 0 10)) else d
  else if 0x30100 ≤ a ∧ a < 0x30180 then d.modEvt fun e => { e with pend := wideClear e.pend ((a - 0x30100) / 4) v en }
  else if a = Reg.pmcCtl then
    d.modPmc fun p => { p with snap := p.snap || hit v en 0, clr := p.clr || hit v en 1 }
  else if a = Reg.pmcStat then d.modPmc fun p => { p with rloss := p.rloss && !hit v en 16 }
  else if 0x40010 ≤ a ∧ a < 0x40050 then d.modPmc fun p => { p with ovf := wideClear p.ovf ((a - 0x40010) / 4) v en }
  else if 0x40050 ≤ a ∧ a < 0x40070 then d.modPmc fun p => { p with chainNew := widePut p.chainNew ((a - 0x40050) / 4) v en }
  else if a = Reg.pmcWvalHi then d.pmcLoad
  else if a = Reg.pmcSmpSeed then d.lfsrSeed
  else d

/-- A write of PMC_SMP_CFG: EN rising loads the LFSRs (R330). -/
def writeSmp (d : Data) (v en : Word) : Data :=
  let was := d.flag Reg.pmcSmpCfg 0
  let d := d.regWrite Reg.pmcSmpCfg v en
  if !was && d.flag Reg.pmcSmpCfg 0 then d.lfsrSeed else d

/-- A write of a mailbox register (R338, R348, R349). -/
def writeMbx (d : Data) (r : Requester) (a : Nat) (v en : Word) : Data :=
  let m : Fin 8 := Fin.ofNat 8 ((a - 0x60000) / 0x40)
  let o := a % 0x40
  if 0x60200 ≤ a then d
  else if o = 0 then
    d.modMbx m fun x => { x with sel := (x.sel &&& ~~~en) ||| (v &&& en), owner := r, valid := false, pend := true, start := d.now }
  else if o = 4 then d.modMbx m fun x => { x with early := x.early && !hit v en 2 }
  else if o = 8 then d.modMbx m fun x => { x with valid := x.valid && (x.pend || x.doneAt == some d.now) }
  else d

def writeMgt (x : DM) (a : Nat) (v en : Word) : DM :=
  if a = Reg.fwuStat then
    if hit v en 9 && x.m.act.rolled then { x with m := x.m.recWrite fun r => { r with rolled := false } } else x
  else if a = Reg.halStat then { x with m := { x.m with overlong := x.m.overlong && !hit v en 16 } }
  else if a = Reg.halCtl then if hit v en 0 then x.halEnum else x
  else x

def writeShd (d : Data) (a : Nat) (v en : Word) : Data :=
  if a = Reg.shdCtl then (d.when (hit v en 0) Data.handover).when (hit v en 1) Data.handback else d

/-- A write of DUR_BUDGET takes effect in the next cycle, until which `old` governs (R221, R352). -/
def writeDur (d : Data) (a old : Nat) : Data :=
  if a = Reg.durBudget then d.modDur fun u => { u with bPrev := some (old, d.now) }
  else if a = Reg.durGuard ∨ a = Reg.durCfg then d.ledgerSettle
  else d

def writeRig (x : DM) (a : Nat) (v en : Word) : Data :=
  if a = Reg.rigStat then { x.d with rigBusyGo := x.d.rigBusyGo && !hit v en 4 }
  else if a = Reg.rigReload then if hit v en 0 then x.d.reloadGo x.m.flash else x.d
  else x.d

def writeSlc (d : Data) (a : Nat) (v en : Word) : Data :=
  let n : SliceId := Fin.ofNat 8 ((a - 0x100000) / 0x10000)
  if a % 0x10000 = 0x08 then
    if hit v en 0 && hit v en 1 then (d.raise a 4).evSlc n 10
    else if hit v en 0 then d.slcDis n
    else if hit v en 1 then d.slcEn n
    else d
  else if a % 0x10000 = 0x10 then d.wbLowat n
  else d

def writeApt (d : Data) (a : Nat) (v en : Word) : Data :=
  let p : Agent := Fin.ofNat 16 ((a - 0x200000) / 0x10000)
  let o := a % 0x10000
  if o = 0x04 then (d.when (hit v en 0) (Data.linkDis · p)).when (hit v en 1) (Data.linkRetrain · p)
  else if o = 0x20 then d.swev p ((v &&& en).truncate 8)
  else if o = 0x30 then bankClear d (Fin.castLE (by decide : 16 ≤ 17) p) v en
  else d

def writeBkp (d : Data) (a : Nat) (v en : Word) : Data :=
  let b : BkpId := Fin.ofNat 4 ((a - 0x300000) / 0x10000)
  if a % 0x10000 = 0x20 then (d.when (hit v en 1) (Data.bkpFailPort · b)).when (hit v en 0) (Data.bkpReturn · b) else d

def writeSto (d : Data) (a : Nat) (v en : Word) : Data :=
  if a = Reg.stoFlipHi then d.flipWrite v en
  else if a = Reg.tstAssayCtl then if hit v en 3 then d.assayGo (Fin.ofNat 8 (d.fld a 0 3)) else d
  else d

/-- A write of a queue descriptor (R297, R305, R307, R310); one of an unassigned queue is ignored. `m` is an upset of a word that it
pushes. -/
def writeQue (d : Data) (a : Nat) (v en : Word) (m : BitVec 67) : Data :=
  let q := (a - 0x1000000) / 0x40
  let o := a % 0x40
  if (d.qRec q).isNone then if o = 0x34 then d.qPushHi q 0 m else d
  else
    let d := d.regWrite a v en
    if o = 0x0C then
      d.modQue q fun x =>
        { x with underrun := x.underrun && !hit v en 18, stale := x.stale && !hit v en 21, trunc := x.trunc && !hit v en 22 }
    else if o = 0x2C then d.when (hit v en 0) (Data.qFlush · q)
    else if o = 0x28 then
      d.modQue q fun x =>
        { x with timer := if x.timer.isSome && d.fld a 0 16 != 0 then x.timer else if x.words.isEmpty || x.expired then none else d.qTimer q }
    else if o = 0x34 then d.qPushHi q (d.reg a) m
    else d

/-- What a write of the bits `en` of a register does where the hardware does nothing to the register in the cycle (R338). -/
def writeAlone (x : DM) (r : Requester) (a : Nat) (v en : Word) (m : BitVec 67) : DM :=
  let old := x.d.budget
  if 0x1000000 ≤ a then { x with d := writeQue x.d a v en m }
  else if a = Reg.pmcSmpCfg then { x with d := writeSmp x.d v en }
  else
    let x : DM := { x with d := x.d.regWrite a v en }
    if a < 0x10000 then { x with d := writeTop x.d r a v en }
    else if a < 0x30000 then x.writePwr a v en
    else if a < 0x60000 then { x with d := writeEvt x.d a v en }
    else if a < 0x70000 then { x with d := writeMbx x.d r a v en }
    else if a < 0x90000 then x.writeMgt a v en
    else if a < 0xA0000 then { x with d := writeShd x.d a v en }
    else if a < 0xB0000 then x
    else if a < 0xD0000 then { x with d := writeDur x.d a old }
    else if a < 0x100000 then { x with d := writeRig x a v en }
    else if a < 0x200000 then { x with d := writeSlc x.d a v en }
    else if a < 0x300000 then { x with d := writeApt x.d a v en }
    else if a < 0x400000 then { x with d := writeBkp x.d a v en }
    else { x with d := writeSto x.d a v en }

/-- A write of the bits `en` of a register whose block is up (R338): none of them, no effect. W1C bits that the hardware has set in the
cycle stay 1, counter fields take its increments on top, and a capture that came in the cycle of the clear is held (R351). -/
def writeReg (x : DM) (r : Requester) (a : Nat) (v en : Word) (m : BitVec 67 := 0) : DM :=
  if en = 0 then x
  else
    let c := x.d.cycNow
    let x := x.writeAlone r a v (en &&& ~~~Data.hwSet c (Data.cycReg r a)) m
    { x with d := (x.d.cntLoad c a v en).lateHold c a v en }

/-- One 32-bit part of a write. -/
def writePart (x : DM) (r : Requester) (a : Nat) (v en : Word) (m : BitVec 67 := 0) : DM :=
  if x.d.blockReefed a then { x with d := x.d.accReefed r } else x.writeReg r a v en m

/-- Performs a write of `w` bytes at its target (R338, R339): the lower register first. -/
def writeNow (x : DM) (r : Requester) (a w : Nat) (be : Nat) (v : Dword) : DM :=
  if w = 8 then
    (x.writePart r a (v.truncate 32) (laneMask (be % 16))).writePart r (a + 4) ((v >>> 32).truncate 32) (laneMask (be / 16))
  else
    let o := a % 4
    x.writePart r (a - o) (v.truncate 32 <<< (8 * o)) (laneMask (be % 2 ^ w * 2 ^ o))

/-- The agent that a requester is. -/
def reqAgent (r : Requester) : Option Agent := if h : r.val < 16 then some ⟨r.val, h⟩ else none

/-! ## Posted writes (R341 to R343) -/

/-- The oldest posted write of a requester takes effect. -/
def postedRun (x : DM) (r : Requester) : DM :=
  match x.d.banks[r].posted with
  | [] => x
  | p :: rest =>
    let x : DM := { x with d := x.d.modBank r fun b => { b with posted := rest } }
    x.writeNow r p.a.toNat (accBytes p.width) p.be.toNat p.d

/-- Every posted write of a requester takes effect, in order. -/
def postedAll (x : DM) (r : Requester) : DM := x.d.banks[r].posted.foldl (fun (x : DM) _ => x.postedRun r) x

/-- FAR_ACCESS_TIMEOUT: the oldest posted write is abandoned 2 µs after it was issued. -/
def postedTimeout (x : DM) (r : Requester) : DM :=
  match x.d.banks[r].posted with
  | [] => x
  | p :: rest =>
    if p.start + us 2 ≤ x.d.now then
      { x with d := ((x.d.modBank r fun b => { b with posted := rest }).accError r 4 p.a.toNat).evMgt 2 }
    else x

/-- What each 32-bit word of a refused read returns. -/
def allOnes (w : Nat) : Dword := if w = 8 then BitVec.allOnes 64 else BitVec.ofNat 64 (2 ^ (8 * w) - 1)

/-- Records what a requester's read returned. -/
def readKeep (x : DM × Dword) (r : Requester) : DM × Dword := ({ x.1 with d := x.1.d.modBank r fun b => { b with read := x.2 } }, x.2)

/-- An access that stalls its requester: a far read, or a far write in a compact rig, of a block that is up and not refused. -/
def farStalls (x : DM) (r : Requester) (l : FarAcc) : Bool :=
  let a := l.a.toNat
  !regNear a && (!l.write || x.d.compact) && (accCause a (accBytes l.width) l.write (r.val != 16)).isNone && !x.d.blockReefed a &&
    (match reqAgent r with
      | some p => x.d.portOpen p && x.d.domUp 1 && decide (4 ≤ accBytes l.width)
      | none => x.mgtUp)

/-- FAR_ACCESS_TIMEOUT of an access that stalls its requester: its target has not answered for 2 µs, so it has no effect there, and it
is abandoned. The requester's posted writes have taken effect before (R342, R343). An access by MGQ is answered ACC_ERR. -/
def farLost (x : DM) (r : Requester) (l : FarAcc) : DM :=
  if !x.farStalls r l then x
  else
    let x := x.postedAll r
    let x : DM := { x with d := (x.d.accError r 4 l.a.toNat).evMgt 2 }
    let x := if l.write then x else (readKeep (x, allOnes (accBytes l.width)) r).1
    match reqAgent r, l.tag with
    | some p, some t => { x with d := x.d.mgqTo p (.regRsp t 1 (if l.write then 0 else allOnes (accBytes l.width))) }
    | _, _ => x

/-! ## Accesses through the fabric -/

/-- A read of `w` bytes that is not refused: a far one waits for the requester's posted writes. -/
def fabricRead (x : DM) (r : Requester) (a w : Nat) (upset : BitVec 67 := 0) : DM × Dword :=
  let x := if regNear a then x else x.postedAll r
  if w = 8 then
    let (x, lo) := x.readPart r a upset
    let (x, hi) := x.readPart r (a + 4)
    (x, hi ++ lo)
  else if w = 4 then
    let (x, v) := x.readPart r a upset
    (x, v.setWidth 64)
  else
    let o := a % 4
    if x.d.blockReefed a then ({ x with d := x.d.accReefed r }, 0)
    else (x, (((x.view r (a - o)) >>> (8 * o)) &&& laneMask (2 ^ w - 1)).setWidth 64)

/-- A write of `w` bytes that is not refused: posted where the block is far and the rig is full. -/
def fabricWrite (x : DM) (r : Requester) (a : Nat) (width : AccWidth) (be : Byte) (v : Dword) : DM :=
  if regNear a ∨ x.d.compact then x.writeNow r a (accBytes width) be.toNat v
  else
    let x : DM := if x.d.banks[r].posted.isEmpty then x
      else let y := x.postedAll r; { y with d := (y.d.modBank r fun b => { b with pwait := true }).stampBank r 3 }
    if x.d.blockReefed a then { x with d := x.d.accReefed r }
    else
      let p : Posted := { a := BitVec.ofNat 32 a, width := width, be := be, d := v, start := x.d.now }
      { x with d := x.d.modBank r fun b => { b with posted := b.posted.concat p } }

/-- A read by the management cluster. -/
def mgtRead (x : DM) (a : Nat) (width : AccWidth) (upset : BitVec 67 := 0) : DM × Dword :=
  if !x.mgtUp then (x, 0)
  else match accCause a (accBytes width) false false with
  | some c => readKeep ({ x with d := x.d.accError 16 c a }, allOnes (accBytes width)) 16
  | none => readKeep (x.fabricRead 16 a (accBytes width) upset) 16

/-- A write by the management cluster. -/
def mgtWrite (x : DM) (a : Nat) (width : AccWidth) (be : Byte) (v : Dword) : DM :=
  if !x.mgtUp then x
  else match accCause a (accBytes width) true false with
  | some c => { x with d := x.d.accError 16 c a }
  | none => x.fabricWrite 16 a width be v

/-! ## Accesses by MGQ (R33, R211) -/

/-- A read by an agent: STATUS and data. -/
def agentRead (x : DM) (p : Agent) (a : Nat) (w64 ok : Bool) : DM × BitVec 4 × Dword :=
  let r : Requester := Fin.castLE (by decide : 16 ≤ 17) p
  let w := if w64 then 8 else 4
  let x : DM := { x with d := x.d.tally 23 }
  match accCause a w false true with
  | some c => let y := readKeep ({ x with d := x.d.accError r c a }, allOnes w) r; (y.1, 1, y.2)
  | none =>
    if !ok then let y := readKeep ({ x with d := x.d.evApt p 12 }, allOnes w) r; (y.1, 2, y.2)
    else
      let st : BitVec 4 := if x.d.blockReefed a then 3 else 0
      let y := readKeep (x.fabricRead r a w) r
      (y.1, st, y.2)

/-- A write by an agent: STATUS. -/
def agentWrite (x : DM) (p : Agent) (a : Nat) (w64 : Bool) (be : Byte) (v : Dword) (ok : Bool) : DM × BitVec 4 :=
  let r : Requester := Fin.castLE (by decide : 16 ≤ 17) p
  let width : AccWidth := if w64 then .w64 else .w32
  let x : DM := { x with d := x.d.tally 23 }
  match accCause a (accBytes width) true true with
  | some c => ({ x with d := x.d.accError r c a }, 1)
  | none =>
    if !ok then ({ x with d := x.d.evApt p 12 }, 2)
    else (x.fabricWrite r a width be v, if x.d.blockReefed a then 3 else 0)

/-! ## Mailbox fills (R347, R348) -/

/-- The two words of a counter. -/
def counterWords (v : Nat) : List Nat := [bits v 0 32, bits v 32 16]

/-- A counter object: values, chain bits, and its SEQ. -/
def counterObj (cnt : SMap Nat) (chain : BitVec 256) (c : Nat) (tail : List Nat) : List Nat :=
  let ch := chain.getLsbD (c / 2)
  let other := if c % 2 = 0 then c + 1 else c - 1
  counterWords (SMap.get 0 cnt c) ++ (if ch then counterWords (SMap.get 0 cnt other) ++ [1] else [0, 0, 0]) ++ tail

def addrWords (v : Nat) : List Nat := [bits v 0 32, bits v 32 32]

/-- The words of an object: nothing where it is unknown, its reefed domain where it lies in one. -/
def mbxObject (x : DM) (cls i : Nat) : Option (Option (List Nat)) :=
  let d := x.d
  let d2 := fun (l : List Nat) => some (if d.domUp 2 then some l else none)
  if cls = 0x01 ∧ i < 512 then d2 (counterObj d.pmc.edge d.pmc.chain i [])
  else if cls = 0x02 ∧ i < 512 then d2 (counterObj d.pmc.shadow d.pmc.snapChain i [d.pmc.seq.toNat])
  else if cls = 0x03 ∧ i = 0 then some (some (addrWords d.evt.tick.toNat))
  else if cls = 0x04 ∧ i = 0 then
    d2 (addrWords d.pmc.snapTick.toNat ++ [bits d.pmc.snapSec 0 32, bits d.pmc.snapSec 32 16, d.pmc.snapNs, d.pmc.seq.toNat])
  else if cls = 0x10 ∧ i < 8 then
    some (if d.domUp (Data.slcDom (Fin.ofNat 8 i)) then some (addrWords (d.slices[Fin.ofNat 8 i].perrGa * 64)) else none)
  else if cls = 0x11 ∧ i < 8 then
    some (if d.domUp (Data.slcDom (Fin.ofNat 8 i)) then some (addrWords (d.slices[Fin.ofNat 8 i].tmoGa * 64)) else none)
  else if cls = 0x12 ∧ i < 16 then
    some (if d.domUp (Data.aptDom (Fin.ofNat 16 i)) then some (addrWords d.ports[Fin.ofNat 16 i].errGaddr.toNat) else none)
  else if cls = 0x13 ∧ i = 0 then d2 (addrWords d.store.capAddr)
  else if cls = 0x20 ∧ i < 256 then
    let h := SMap.get {} d.hlm.heads i
    let b := fun (j : Nat) => (h.hash.extractLsb' (8 * (31 - j)) 8).toNat
    d2 (((List.range 8).map fun k => b (4 * k) + at_ (b (4 * k + 1)) 8 + at_ (b (4 * k + 2)) 16 + at_ (b (4 * k + 3)) 24) ++
      addrWords h.seq ++ [bits h.sec 0 32, bits h.sec 32 16 + at_ (b2n h.valid) 16])
  else if cls = 0x30 ∧ i < 4096 then
    match d.rig with
    | some r =>
      match r.table[i]? with
      | some e => some (some (((List.range 4).map fun k => word e k) ++ [r.table.length]))
      | none => none
    | none => none
  else none

/-- MBX_FILL_COMPLETE: the object is sampled and every data word written. -/
def mbxFill (x : DM) (m : Fin 8) : DM :=
  let b := x.d.mbx[m]
  if !b.pend then x
  else
    let (ws, err) : List Nat × BitVec 2 := match x.mbxObject (bits b.sel.toNat 24 8) (bits b.sel.toNat 0 24) with
      | none => ([], 1)
      | some none => ([], 2)
      | some (some ws) => (ws, 0)
    { x with d := x.d.modMbx m fun y =>
        { y with pend := false, valid := true, doneAt := some x.d.now, err := err, data := Vector.ofFn fun k : Fin 12 => BitVec.ofNat 32 (ws.getD k.val 0) } }

/-! ## MGQ items one at a time (R211, R295, R301) -/

/-- Q_WORD of a pop (R301): EMPTY says that the queue holds no word after it. -/
def popAnswer (tag : Byte) (q : BitVec 14) (empty : Bool) : Option QPop → MgqAns
  | none => .qWord tag q false false false false 4 0
  | some w => .qWord tag q w.eop w.poison empty w.under 0 w.data

/-- The domain that an item needs before it can begin (R344, R409). -/
def MgqItem.needs : MgqItem → Fin 30
  | .regRd .. => 1
  | .regWr .. => 1
  | .push .. => 2
  | .pop .. => 2
  | .acc .. => 1

/-- Performs an item: the state and its answer. -/
def mgqDo (x : DM) (p : Agent) : MgqItem → DM × Option MgqAns
  | .regRd tag a w64 ok => let (x, st, v) := x.agentRead p a.toNat w64 ok; (x, some (.regRsp tag st v))
  | .regWr tag a w64 be v ok => let (x, st) := x.agentWrite p a.toNat w64 be v ok; (x, some (.regRsp tag st 0))
  | .push tag q eop poison v perm m =>
    let (d, st) := x.d.qAgentPush p q.toNat eop poison v perm m
    ({ x with d := d }, some (.qAck tag q st))
  | .pop tag q m _ =>
    let (d, w) := x.d.qAgentPop p q.toNat m
    ({ x with d := d }, some (popAnswer tag q (d.que1 q.toNat).words.isEmpty w))
  | .acc a w64 write be v ok =>
    (if write then (x.agentWrite p a.toNat w64 be v ok).1 else (x.agentRead p a.toNat w64 ok).1, none)

/-- The item must wait for the queue cycle of the full queue that it met to end (R304). -/
def pushHeld (d : Data) (p : Agent) : MgqItem → Bool
  | .push _ q .. => d.qFull p q.toNat && (match d.ports[p].pushWait with | some c => c == d.qCycle | none => true)
  | _ => false

/-- The port begins its next item, where its answers leave room and the block that it needs is up; else that block wakes. -/
def mgqStep (x : DM) (p : Agent) : DM :=
  match x.d.ports[p].mgqIn with
  | [] => x
  | (i, cred) :: rest =>
    let dom := MgqItem.needs i
    if x.d.ports[p].iso ∨ 16 ≤ x.d.ports[p].mgqOut.length then x
    else if !x.d.domUp dom then { x with d := x.d.domWake dom }
    else if pushHeld x.d p i then { x with d := x.d.modPort p fun y => { y with pushWait := some x.d.qCycle } }
    else
      let d := x.d.modPort p fun y => { y with mgqIn := rest, pushWait := none }
      let d := if cred then d.creditGive (Data.aptLink p) ([4], none) else d
      let (x, ans) := ({ x with d := d } : DM).mgqDo p i
      match ans with | some m => { x with d := x.d.mgqTo p m } | none => x

/-- Every item of a port that can be performed now. -/
def mgqRun (x : DM) (p : Agent) : DM := x.d.ports[p].mgqIn.foldl (fun (x : DM) _ => x.mgqStep p) x

/-- Every port. -/
def mgqSettle (x : DM) : DM := allAgents.foldl (fun (x : DM) p => x.mgqRun p) x

end DM

end Sys2Proof.Machine
end

