-- ==== Sys2Proof/Machine/Tmp.lean ====
section
/-!
DEFINITION. TMP messages (R356 to R360): their form, answers under a key slot, unsolicited messages, and what Hormal does with
the queues it pops (R359, R377).
-/

namespace Sys2Proof.Machine

/-! ## The message (R356) -/

def tmpKey (m : List Byte) : Fin 4 := Fin.ofNat 4 (leAt m 5 1)
def tmpUnit (m : List Byte) : Byte := m.getD 6 0
def tmpType (m : List Byte) : Nat := leAt m 3 1
def tmpSeq (m : List Byte) : Nat := leAt m 8 8
def tmpPayload (m : List Byte) : List Byte := sub m 32 (leAt m 24 2)

/-- MAGIC, VER, LEN and the length of the datagram agree, and KEY names a slot (R357, first check). -/
def tmpFramed (m : List Byte) : Bool :=
  sub m 0 2 == [0x54, 0x4D] && leAt m 2 1 == 1 && decide (leAt m 24 2 ≤ 1400) && m.length == 48 + leAt m 24 2 && decide (leAt m 5 1 ≤ 3)

/-- The MAC of a message's bytes before it. -/
def tmpMac (key b : List Byte) : List Byte := (hmac256 key b).take 16

/-- STATUS values (R360). -/
def stOk : Nat := 0
def stBoot : Nat := 1
def stReplay : Nat := 2
def stPerm : Nat := 3
def stFormat : Nat := 4
def stBusy : Nat := 5
def stState : Nat := 6
def stVerify : Nat := 7
def stUnreach : Nat := 8
def stFlash : Nat := 10

/-- A message of the device: RESP is set; `more` and `unsol` are the other FLAGS. -/
def tmpMake (key : List Byte) (slot : Fin 4) (unit : Byte) (ty status seq rseq boot : Nat) (more unsol : Bool) (p : List Byte) : List Byte :=
  let b := [0x54, 0x4D] ++ leBytes 1 1 ++ leBytes 1 ty ++ leBytes 1 (1 + at_ (b2n more) 1 + at_ (b2n unsol) 2) ++ leBytes 1 slot.val ++ [unit] ++
    leBytes 1 status ++ leBytes 8 seq ++ leBytes 8 rseq ++ leBytes 2 p.length ++ leBytes 2 0 ++ leBytes 4 boot ++ p
  b ++ tmpMac key b

namespace DM

def modM (x : DM) (f : Mgmt → Mgmt) : DM := { x with m := f x.m }
def modD (x : DM) (f : Data → Data) : DM := { x with d := f x.d }
def slot (x : DM) (k : Fin 4) : TmpSlot := x.m.slots[k]

/-- Sends a message to where a request came from (R357, R366): a response to a hop-only frame is hop-only. -/
def tmpSend (x : DM) (src : TmpSrc) (b : List Byte) : DM :=
  match src with
  | .host .. => x.modM fun m => { m with out := m.out.concat (src, b) }
  | .chainUp a => x.chainSend false (hframe a x.m.chainId 3 b)
  | .chainDown a => x.chainSend true (hframe a x.m.chainId 3 b)

/-- Sends a message under a key slot, numbered by it, and keeps it among the last 16 where it answers an accepted SEQ;
nothing where the slot is empty. -/
def tmpOut (x : DM) (src : TmpSrc) (k : Fin 4) (unit : Byte) (ty status rseq : Nat) (keep more unsol : Bool) (p : List Byte) : DM :=
  match x.m.key k with
  | none => x
  | some key =>
    let seq := (x.slot k).txSeq + 1
    let b := tmpMake key k unit ty status seq rseq x.m.bootId.toNat more unsol p
    let x := x.modM fun m =>
      { m with slots := vmod m.slots k fun s =>
          { s with txSeq := seq, resp := if unsol then s.resp else (s.resp.concat (if keep then rseq else 0, b)).drop (s.resp.length - 15) } }
    x.tmpSend src b

/-- Answers a request. -/
def reply (x : DM) (r : TmpReq) (status : Nat) (p : List Byte := []) : DM := x.tmpOut r.src r.key r.unit r.ty.toNat status r.seq true false false p

/-- An unsolicited message to a subscriber. -/
def tell (x : DM) (s : EvtSub) (ty : Nat) (more : Bool) (p : List Byte) : DM := x.tmpOut s.src s.key 0xFF ty stOk 0 false more true p

/-! ## Queues that Hormal pops (R297, R359, R377) -/

/-- Pops words by POP_LO up to and including EOP: `n` bounds them. -/
def popItem (q : Nat) : Nat → DM → List (Dword × Bool × Bool) → DM × List (Dword × Bool × Bool)
  | 0, x, acc => (x, acc)
  | n + 1, x, acc =>
    let x := x.modD fun d => d.qPopNext q
    let y := x.d.que1 q
    let acc := acc.concat (y.popHi ++ y.popLo, y.lEop, y.lPsn)
    if y.lEop then (x, acc) else popItem q n x acc

/-- Bytes of queue words: DATA and flags. -/
def wordBytes (l : List (Dword × Bool × Bool)) : List Byte := l.flatMap fun w => leBytes 8 w.1.toNat ++ leBytes 1 (b2n w.2.1 + at_ (b2n w.2.2) 1)

/-- Sends a popped item to the queue's subscriber, 155 words to a message. -/
def tellItem (x : DM) (s : EvtSub) (q : Nat) : Nat → List (Dword × Bool × Bool) → DM
  | 0, _ => x
  | n + 1, l =>
    let x := x.tell s 5 (decide (155 < l.length)) (leBytes 2 q ++ wordBytes (l.take 155))
    if l.length ≤ 155 then x else tellItem x s q n (l.drop 155)

/-- An event item: to the log ring and to every subscriber. -/
def eventOut (x : DM) (w : Dword) : DM :=
  (x.m.esubs.filterMap id).foldl (fun (x : DM) s => x.tell s 7 false (leBytes 8 w.toNat)) (x.modM fun m => m.logAdd w)

/-- Hormal takes one item of queue `q`. -/
def hormalItem (x : DM) (mgtq q : Nat) : DM :=
  let (x, l) := popItem q (x.d.que1 q).words.length x []
  if q = mgtq then (l.filter fun w => w.1.toNat % 256 == 0xE7).foldl (fun (x : DM) w => x.eventOut w.1) x
  else match SMap.get none x.m.qsubs q with
  | some s => tellItem x s q l.length l
  | none => x

/-- Hormal takes every whole item of EVT_CFG.MGTQ and of the queues subscribed to. -/
def hormalRun (x : DM) : DM :=
  if !x.mgtUp ∨ !x.d.domUp 2 then x
  else
    let mgtq := x.d.fld Reg.evtCfg 0 14
    (mgtq :: ((x.m.qsubs.map (·.1)).filter (· != mgtq))).foldl (fun (x : DM) q =>
      if (x.d.qMgt q).isNone then x
      else (List.range (x.d.qPkt q)).foldl (fun (x : DM) _ => x.hormalItem mgtq q) x) x

/-- Events of R377's table that the tick has sampled reach the log, unless they also go by MGTQ (R377). -/
def logTick (x : DM) (latch : BitVec 1024) (tick : Nat) : DM :=
  if !x.mgtUp then x
  else
    ((List.range 27).filter fun i => latch.getLsbD (64 + i) && decide (severity (64 + i) ≤ 3) && !(nbit (x.d.evEntry (64 + i)) 0 && nbit (x.d.evEntry (64 + i)) 4)).foldl
      (fun (x : DM) i => x.modM fun m => m.logAdd (evItem (64 + i) (severity (64 + i)) tick)) x

end DM

end Sys2Proof.Machine
end

