-- ==== Sys2Proof/Machine/Update.lean ====
section
/-!
DEFINITION. Firmware update: the crucible and its lock (R370, R375), images over the chain (R371), confirmation of a trial image
(R373).
-/

namespace Sys2Proof.Machine

namespace DM

/-! ## The crucible (R370, R375) -/

/-- Takes the lock for an image: a record LOADING, and the erase begins. -/
def lockTake (x : DM) (by_ : LockBy) (total : Nat) (ver : Word) : DM :=
  let x := x.modM fun m =>
    { m.recWrite fun r => { r with cru := 1, cruVer := ver } with
      lock := by_, lockAt := x.d.now, total := total, erased := 0, chunks := [], startReq := none, imgFrom := none }
  x.modD fun d => d.evMgt 11

/-- Releases the lock; what waited for a block is forgotten. -/
def lockFree (x : DM) : DM := x.modM fun m => { m with lock := .free, chunks := [], startReq := none, img := none }

/-- Releases the lock and empties the crucible. -/
def lockDrop (x : DM) : DM := (x.modM fun m => m.recWrite fun r => { r with cru := 0 }).lockFree

/-- Refuses a source while the lock is held. -/
def lockBusy (x : DM) : DM := x.modD fun d => d.evMgt 23

/-- Verifies the crucible with its records: the failure code. -/
def cruVerify (x : DM) : DM × Nat :=
  let m := x.m.recWrite fun r => { r with cru := 2 }
  let code := imgFault x.d.fuses m.flash flCrucible
  let m := m.recWrite fun r => { r with cru := if code = 0 then 3 else 0 }
  ({ d := if code = 0 then x.d else x.d.evMgt 12, m := m }, code)

/-- Records the activation of the verified image. -/
def activate (x : DM) : DM := { d := x.d.evMgt 13, m := x.m.recWrite fun r => { r with cru := 4 } }

/-- The blocks that a chunk touches are erased. -/
def chunkFits (m : Mgmt) (c : Nat × List Byte × Option TmpReq) : Bool := decide (c.1 + c.2.1.length ≤ m.erased * flBlock)

/-- Writes a chunk and answers its request. -/
def chunkWrite (x : DM) (c : Nat × List Byte × Option TmpReq) : DM :=
  let o := flCrucible + c.1
  let ok := x.m.flashSound o c.2.1.length
  let x := x.modM fun m => m.prog o c.2.1
  match c.2.2 with
  | some r => x.reply r (if ok then stOk else stFlash)
  | none => x

/-- A chunk arrives. -/
def chunkIn (x : DM) (c : Nat × List Byte × Option TmpReq) : DM :=
  let x := x.modM fun m => { m with lockAt := x.d.now }
  if chunkFits x.m c then x.chunkWrite c else x.modM fun m => { m with chunks := m.chunks.concat c }

/-! ## Images over the chain (R371) -/

/-- IMG_REQ for the next bytes. -/
def imgAsk (x : DM) : DM :=
  match x.m.img with
  | some (down, next, total, dig, tries, _) =>
    let x := x.modM fun m => { m with img := some (down, next, total, dig, tries, x.d.now) }
    if next < total then x.hopSend down 5 (leBytes 4 next ++ leBytes 2 (min 1024 (total - next))) else x
  | none => x

/-- The whole image has been written: it is verified, answered, offered on, and activated where CHAIN_AUTOACT says so. -/
def imgEnd (x : DM) : DM :=
  match x.m.img with
  | some (down, next, total, _, _, _) =>
    if next < total ∨ !x.m.chunks.isEmpty then x
    else
      let (x, code) := x.cruVerify
      let x := x.lockFree.hopSend down 7 (leBytes 1 (if code = 0 then stOk else stVerify) ++ leBytes 1 code)
      if code ≠ 0 then x
      else
        let x := (x.modM fun m => { m with imgFrom := some down }).offerAll
        if x.m.setOn tagChainAuto then x.activate else x
  | none => x

/-- IMG_OFFER from a neighbour. -/
def imgOfferRecv (x : DM) (down : Bool) (p : List Byte) : DM :=
  let ver := BitVec.ofNat 32 (leAt p 0 4)
  let total := leAt p 5 4
  let refuse := fun (x : DM) => x.hopSend down 7 (leBytes 1 stBusy ++ [0])
  if x.m.lock ≠ .free then refuse x.lockBusy
  else if !x.m.setOn tagChainUpd ∨ ver = x.m.act.actVer ∨ ver = x.m.act.cruVer ∨ x.m.act.cru = 4 ∨ total < 64 ∨ flImage < total then refuse x
  else
    let x := x.lockTake (.chain down) total ver
    (x.modM fun m => { m with img := some (down, 0, total, BitVec.ofNat 384 (leAt p 9 48), 0, x.d.now) }).imgAsk

/-- IMG_REQ from a neighbour: answered from a verified image. -/
def imgReqRecv (x : DM) (down : Bool) (p : List Byte) : DM :=
  let o := leAt p 0 4
  let n := leAt p 4 2
  let b := cruImage x.m
  if (x.m.act.cru = 3 ∨ x.m.act.cru = 4) ∧ n ≤ 1024 ∧ o + n ≤ b.length then x.hopSend down 6 (leBytes 4 o ++ sub b o n) else x

/-- IMG_DATA from the neighbour that is being asked. -/
def imgDataRecv (x : DM) (down : Bool) (p : List Byte) : DM :=
  match x.m.img with
  | some (dn, next, total, dig, _, _) =>
    let b := p.drop 4
    if dn = down ∧ leAt p 0 4 = next ∧ b.length = min 1024 (total - next) ∧ next < total then
      let x := x.chunkIn (next, b, none)
      ((x.modM fun m => { m with img := some (dn, next + b.length, total, dig, 0, x.d.now) }).imgAsk).imgEnd
    else x
  | none => x

/-- IMG_REQ_RESEND_TIMEOUT: 10 ms without an answer; after eight resends the transfer is aborted. -/
def imgResend (x : DM) (down : Bool) : DM :=
  match x.m.img with
  | some (dn, next, total, dig, tries, asked) =>
    if dn = down ∧ next < total ∧ asked + ms 10 ≤ x.d.now ∧ x.mgtUp then
      if tries < 8 then (x.modM fun m => { m with img := some (dn, next, total, dig, tries + 1, asked) }).imgAsk else x.lockDrop
    else x
  | none => x

/-- FLASH_BLOCK_ERASED: the erase goes on; UPD_START is answered at the first block, and chunks that waited are written. -/
def blockErased (x : DM) : DM :=
  if x.m.lock = .free ∨ 128 ≤ x.m.erased ∨ !x.mgtUp then x
  else
    let o := flCrucible + x.m.erased * flBlock
    let ok := x.m.flashSound o flBlock
    let x := x.modM fun m => { m.erase o flBlock with erased := m.erased + 1 }
    let x := match x.m.startReq with
      | some r => (x.modM fun m => { m with startReq := none }).reply r (if ok then stOk else stFlash)
      | none => x
    let go := x.m.chunks.filter (chunkFits x.m)
    let x := x.modM fun m => { m with chunks := m.chunks.filter fun c => !chunkFits m c }
    (go.foldl (fun (x : DM) c => x.chunkWrite c) x).imgEnd

/-- CRUCIBLE_LOCK_TIMEOUT: 60 s without data. -/
def lockTimeout (x : DM) : DM := if x.m.lock ≠ .free ∧ x.m.lockAt + ms 60000 ≤ x.d.now ∧ x.mgtUp then x.lockDrop else x

/-! ## Requests (R359, R370, R373) -/

def updStart (x : DM) (r : TmpReq) (p : List Byte) : DM :=
  let total := leAt p 0 4
  if x.m.lock ≠ .free then x.lockBusy.reply r stBusy
  else if x.m.act.cru = 4 then x.reply r stState
  else if total < 64 ∨ flImage < total then x.reply r stFormat
  else (x.lockTake (.host r.src) total (BitVec.ofNat 32 (leAt p 4 4))).modM fun m => { m with startReq := some r }

/-- The request comes from the holder of the lock. -/
def holds (x : DM) (r : TmpReq) : Bool := x.m.lock == .host r.src

def updData (x : DM) (r : TmpReq) (p : List Byte) : DM :=
  let o := leAt p 0 4
  let b := p.drop 4
  if !x.holds r then x.reply r stBusy
  else if x.m.total < o + b.length then (x.modM fun m => { m with lockAt := x.d.now }).reply r stFormat
  else x.chunkIn (o, b, some r)

def updEnd (x : DM) (r : TmpReq) (_ : List Byte) : DM :=
  if !x.holds r then x.reply r stBusy
  else
    let (x, code) := x.cruVerify
    let x := x.lockFree.reply r (if code = 0 then stOk else stVerify) (leBytes 1 code)
    if code = 0 then x.offerAll else x

def updActivate (x : DM) (r : TmpReq) (_ : List Byte) : DM := if x.m.act.cru = 3 then x.activate.reply r stOk else x.reply r stState

def updConfirm (x : DM) (r : TmpReq) (_ : List Byte) : DM :=
  if x.m.act.trial ∧ x.m.act.trialSec < 600 then x.confirm.reply r stOk else x.reply r stState

def updAbort (x : DM) (r : TmpReq) (_ : List Byte) : DM := if x.holds r then x.lockDrop.reply r stOk else x.reply r stBusy

/-- The newest record as stored; zeros where there is none (R369). -/
def updStat (x : DM) (r : TmpReq) (_ : List Byte) : DM :=
  x.reply r stOk (if x.m.act = {} then List.replicate 64 0 else actRecord x.m.act)

/-! ## The trial (R373) -/

/-- TRIAL_RECORD_TIMER: 60 s more of trial uptime; at 600 s the management cluster restarts, and rolls back. -/
def trialTimer (x : DM) : DM :=
  if x.m.act.trial ∧ x.m.trialAt + ms 60000 ≤ x.d.now ∧ x.mgtUp then
    let x := x.modM fun m => { m.recWrite fun r => { r with trialSec := r.trialSec + 60 } with trialAt := m.trialAt + ms 60000 }
    if 600 ≤ x.m.act.trialSec then x.mgtRestart 5 else x
  else x

/-- AUTO_CONFIRM_EXPIRY. -/
def autoConfirm (x : DM) : DM :=
  if x.m.act.trial ∧ x.m.act.trialSec < 600 ∧ x.m.setOn tagAutoConfirm ∧ x.m.startAt + ms 60000 ≤ x.d.now ∧ x.d.rig.isSome ∧ !x.d.evt.fatalSeen ∧
      x.mgtUp then
    x.confirm
  else x

end DM

end Sys2Proof.Machine
end

