-- ==== Sys2Proof/Machine/Manage.lean ====
section
/-!
DEFINITION. The management host's requests (R357 to R359), the gateway (R366), frames that arrive on the chain (R363 to R366),
the IEEE 1588 clock (R361, R362) and the Ethernet link (R377).
-/

namespace Sys2Proof.Machine

namespace DM

/-! ## What each request does (R359) -/

def actHello (x : DM) (r : TmpReq) (_ : List Byte) : DM :=
  x.reply r stOk (leBytes 4 x.m.bootId.toNat ++ leBytes 8 x.d.fuses.devSer.toNat ++ leBytes 4 x.m.runVer.toNat ++
    leBytes 4 (match x.d.rig with | some g => g.seq | none => 0) ++ [match x.m.addr with | some a => a.zeroExtend 8 | none => 0x3F] ++
    leBytes 1 x.d.tflag)

/-- Width of a TMP register access. -/
def tmpWidth (p : List Byte) : AccWidth := if leAt p 4 1 = 1 then .w64 else .w32

def actRegRd (x : DM) (r : TmpReq) (p : List Byte) : DM :=
  let (x, v) := x.mgtRead (leAt p 0 4) (tmpWidth p)
  x.reply r stOk (leBytes 8 v.toNat)

def actRegWr (x : DM) (r : TmpReq) (p : List Byte) : DM :=
  (x.mgtWrite (leAt p 0 4) (tmpWidth p) (BitVec.ofNat 8 (leAt p 5 1)) (BitVec.ofNat 64 (leAt p 6 8))).reply r stOk

/-- SEL, the fill, the data words, ACK. -/
def actMbxRd (x : DM) (r : TmpReq) (p : List Byte) : DM :=
  let m : Fin 8 := Fin.ofNat 8 (leAt p 0 1)
  let x := (x.mgtWrite (Reg.mbxSel m.val) .w32 0xF (BitVec.ofNat 64 (leAt p 1 4))).mbxFill m
  let stat := x.view 16 (Reg.mbxStat m.val)
  let data := x.d.mbx[m].data.toList
  (x.mgtWrite (Reg.mbxAck m.val) .w32 0xF 0).reply r stOk (leBytes 4 stat.toNat ++ data.flatMap fun w => leBytes 4 w.toNat)

def actQSub (x : DM) (r : TmpReq) (p : List Byte) : DM :=
  let q := leAt p 0 2
  if (x.d.qMgt q).isNone then x.reply r stState
  else
    let s : Option EvtSub := if leAt p 2 1 = 1 then some { src := r.src, key := r.key, since := x.d.now } else none
    (x.modM fun m => { m with qsubs := SMap.set none m.qsubs q s }).reply r stOk

/-- Pushes words of nine bytes: the state and how many landed. -/
def pushWords (q : Nat) (rec_ : Option QRec) : Nat → Data → List Byte → Nat → Data × Nat
  | 0, d, _, n => (d, n)
  | k + 1, d, b, n =>
    let (d, lost) := match rec_ with
      | some r => d.qPush r q (qWord (BitVec.ofNat 64 (leAt b 0 8)) (nbit (leAt b 8 1) 0) (nbit (leAt b 8 1) 1)) none
      | none => (d.qEv 6 q, true)
    pushWords q rec_ k d (b.drop 9) (if lost then n else n + 1)

def actQPush (x : DM) (r : TmpReq) (p : List Byte) : DM :=
  let q := leAt p 0 2
  if !x.d.domUp 2 then x.reply r stOk (leBytes 2 0)
  else
    let (d, n) := pushWords q (x.d.qMgt q) ((p.length - 2) / 9) x.d (p.drop 2) 0
    ({ x with d := d } : DM).reply r stOk (leBytes 2 n)

/-- The same host and slot hold a subscription. -/
def subIs (r : TmpReq) (s : Option EvtSub) : Bool := match s with | some e => e.src == r.src && e.key == r.key | none => false

def actEvtSub (x : DM) (r : TmpReq) (p : List Byte) : DM :=
  let l := x.m.esubs
  let new : Option EvtSub := some { src := r.src, key := r.key, since := x.d.now }
  if leAt p 0 1 = 0 then (x.modM fun m => { m with esubs := m.esubs.map fun s => if subIs r s then none else s }).reply r stOk
  else match l.findIdx? (subIs r), l.findIdx? Option.isNone with
  | some i, _ => (x.modM fun m => { m with esubs := m.esubs.set i new }).reply r stOk
  | none, some i => (x.modM fun m => { m with esubs := m.esubs.set i new }).reply r stOk
  | none, none => x.reply r stBusy

def actLogRd (x : DM) (r : TmpReq) (p : List Byte) : DM := x.reply r stOk (x.m.logRead (leAt p 0 4) (leAt p 4 2))

def actTime (x : DM) (r : TmpReq) (_ : List Byte) : DM :=
  x.reply r stOk (leBytes 6 x.d.timeSec ++ leBytes 4 x.d.timeNsec ++ leBytes 1 x.d.tflag ++ leBytes 4 x.d.ptp.ofs.toNat)

def actSnap (x : DM) (r : TmpReq) (_ : List Byte) : DM :=
  if x.d.domUp 2 then (x.modD fun d => d.modPmc fun p => { p with snap := true }).reply r stOk (leBytes 2 (x.d.pmc.seq + 1).toNat)
  else x.reply r stOk (leBytes 2 0)

/-- STATUS of an operation on `n` bytes of the flash from offset `o` (R360). -/
def flashSt (x : DM) (o n : Nat) : Nat := if x.m.flashSound o n then stOk else stFlash

/-- The rig area is the loaded one. -/
def rigInUse (x : DM) (area : Nat) : Bool := match x.d.rig with | some g => b2n g.slot == area | none => false

def actRigWrite (x : DM) (r : TmpReq) (p : List Byte) : DM :=
  let o := flRig (leAt p 0 1 == 1) + leAt p 1 4
  if x.rigInUse (leAt p 0 1) then x.reply r stState
  else (x.modM fun m => m.prog o (p.drop 5)).reply r (x.flashSt o (p.length - 5))

def actRigErase (x : DM) (r : TmpReq) (p : List Byte) : DM :=
  let o := flRig (leAt p 0 1 == 1)
  if x.rigInUse (leAt p 0 1) then x.reply r stState else (x.modM fun m => m.erase o 0x100000).reply r (x.flashSt o 0x100000)

def actSetRd (x : DM) (r : TmpReq) (p : List Byte) : DM := x.reply r stOk ((x.m.setting (leAt p 0 2)).getD [])

def actSetWr (x : DM) (r : TmpReq) (p : List Byte) : DM :=
  let t := leAt p 0 2
  let len := (setBytes ((x.m.settings.filter fun y => y.1 != t) ++ [(t, p.drop 2)])).length
  if 0x100000 < len + 32 then x.reply r stFlash
  else
    let y := x.modM fun m => m.setWrite t (p.drop 2)
    y.reply r (y.flashSt (flSettings (y.m.setSlot.getD false)) 0x100000)

/-- RESTART: answered at its acceptance, then a warm reset of the device or a restart of D1 alone. -/
def actRestart (x : DM) (r : TmpReq) (p : List Byte) : DM :=
  let x := x.reply r stOk
  if leAt p 0 1 = 0 then { x with d := warmGo x.d 6 }
  else
    let y := x.mgtRestart 3
    y.modM fun m => { m with out := x.m.out ++ m.out }

/-! ## Rights and form (R357, R359) -/

/-- A request type: the rights that admit it (bit 0 READ, 1 WRITE, 2 UPDATE, 3 KEYS; 0 none), its form, its effect. -/
structure TmpOp where
  right : List Byte → Nat
  form : List Byte → Bool
  act : DM → TmpReq → List Byte → DM

def isLen (n : Nat) (p : List Byte) : Bool := p.length == n
def readOp (form : List Byte → Bool) (act : DM → TmpReq → List Byte → DM) : TmpOp := { right := fun _ => 1, form := form, act := act }
def writeOp (form : List Byte → Bool) (act : DM → TmpReq → List Byte → DM) : TmpOp := { right := fun _ => 2, form := form, act := act }
def updateOp (form : List Byte → Bool) (act : DM → TmpReq → List Byte → DM) : TmpOp := { right := fun _ => 4, form := form, act := act }

/-- A tag of a key slot. -/
def keyTag (t : Nat) : Bool := decide (tagKey 0 ≤ t ∧ t ≤ tagKey 3)

/-- The table of R359. -/
def tmpOp (ty : Nat) : Option TmpOp :=
  if ty = 0x01 then some { right := fun _ => 0, form := isLen 0, act := actHello }
  else if ty = 0x02 then some (readOp (fun p => p.length == 5 && decide (leAt p 4 1 ≤ 1)) actRegRd)
  else if ty = 0x03 then some (writeOp (fun p => p.length == 14 && decide (leAt p 4 1 ≤ 1)) actRegWr)
  else if ty = 0x04 then some (readOp (fun p => p.length == 5 && decide (leAt p 0 1 < 8)) actMbxRd)
  else if ty = 0x05 then some (readOp (fun p => p.length == 3 && decide (leAt p 0 2 < 16384 ∧ leAt p 2 1 ≤ 1)) actQSub)
  else if ty = 0x06 then some (writeOp (fun p => decide (11 ≤ p.length ∧ p.length % 9 = 2 ∧ leAt p 0 2 < 16384)) actQPush)
  else if ty = 0x07 then some (readOp (fun p => p.length == 1 && decide (leAt p 0 1 ≤ 1)) actEvtSub)
  else if ty = 0x08 then some (readOp (fun p => p.length == 6 && decide (leAt p 4 2 ≤ 1400)) actLogRd)
  else if ty = 0x09 then some (readOp (isLen 0) actTime)
  else if ty = 0x0A then some (readOp (isLen 0) actSnap)
  else if ty = 0x10 then some (updateOp (isLen 8) updStart)
  else if ty = 0x11 then some (updateOp (fun p => decide (5 ≤ p.length ∧ p.length ≤ 1028)) updData)
  else if ty = 0x12 then some (updateOp (isLen 0) updEnd)
  else if ty = 0x13 then some (updateOp (isLen 0) updActivate)
  else if ty = 0x14 then some (updateOp (isLen 0) updConfirm)
  else if ty = 0x15 then some (updateOp (isLen 0) updAbort)
  else if ty = 0x16 then some (readOp (isLen 0) updStat)
  else if ty = 0x18 then
    some (updateOp (fun p => decide (6 ≤ p.length ∧ p.length ≤ 1029 ∧ leAt p 0 1 ≤ 1 ∧ leAt p 1 4 + (p.length - 5) ≤ 0x100000)) actRigWrite)
  else if ty = 0x19 then some (updateOp (fun p => p.length == 1 && decide (leAt p 0 1 ≤ 1)) actRigErase)
  else if ty = 0x1A then some (readOp (isLen 2) actSetRd)
  else if ty = 0x1B then some { right := fun p => if keyTag (leAt p 0 2) then 8 else 2, form := fun p => decide (2 ≤ p.length), act := actSetWr }
  else if ty = 0x1F then some (writeOp (fun p => p.length == 1 && decide (leAt p 0 1 ≤ 1)) actRestart)
  else none

/-! ## Acceptance (R357, R358) -/

/-- The slot accepts a SEQ above its highest, or one of the 64 below and up to it that it has not accepted. -/
def seqOk (s : TmpSlot) (q : Nat) : Bool := decide (0 < q) && (decide (s.high < q) || (decide (s.high ≤ q + 63) && !s.seen.contains q))

/-- The slot after it has accepted a SEQ. -/
def seqTake (s : TmpSlot) (q : Nat) : TmpSlot :=
  let h := max s.high q
  { s with high := h, seen := (q :: s.seen).filter fun v => decide (h ≤ v + 63) }

/-- A request whose SEQ is acceptable: rights, form, effect. -/
def tmpPerform (x : DM) (r : TmpReq) (p : List Byte) : DM :=
  let x := x.modM fun m => { m with slots := vmod m.slots r.key fun s => seqTake s r.seq }
  match tmpOp r.ty.toNat with
  | none => x.reply r stFormat
  | some o =>
    if o.right p ≠ 0 ∧ o.right p &&& x.m.rights r.key = 0 then x.reply r stPerm
    else if !o.form p then x.reply r stFormat
    else o.act x r p

/-- A message that is served here: the checks of R357 in their order. -/
def tmpServe (x : DM) (src : TmpSrc) (b : List Byte) : DM :=
  let k := tmpKey b
  match x.m.key k with
  | none => x
  | some key =>
    let n := 32 + leAt b 24 2
    if tmpMac key (b.take n) ≠ b.drop n then x.modD fun d => (d.tally 44).evMgt 0
    else
      let x := x.modD fun d => d.tally 43
      let r : TmpReq := { src := src, key := k, unit := tmpUnit b, ty := b.getD 3 0, seq := tmpSeq b }
      let plain := fun (x : DM) (st : Nat) (p : List Byte) => x.tmpOut src k r.unit r.ty.toNat st r.seq false false false p
      if tmpType b ≠ 1 ∧ leAt b 28 4 ≠ x.m.bootId.toNat then plain x stBoot (leBytes 4 x.m.bootId.toNat)
      else if seqOk (x.slot k) r.seq then x.tmpPerform r (tmpPayload b)
      else match (x.slot k).resp.find? fun y => y.1 == r.seq && decide (0 < r.seq ∧ (x.slot k).high ≤ r.seq + 63) with
      | some y => x.tmpSend src y.2
      | none => plain (x.modD fun d => d.evMgt 1) stReplay []

/-! ## The gateway (R366) -/

/-- A relay number that is free. -/
def relayFree (x : DM) : Option Nat := freeIdx 64 (x.m.relays.map (·.idx))

/-- Relays a message of the management port onto the chain. -/
def relay (x : DM) (src : TmpSrc) (b : List Byte) : DM :=
  let u := tmpUnit b
  let r : TmpReq := { src := src, key := tmpKey b, unit := u, ty := b.getD 3 0, seq := tmpSeq b }
  if !x.d.flag Reg.halCtl 1 then x
  else match x.relayFree with
  | none => x.tmpOut src r.key u r.ty.toNat stBusy r.seq false false false []
  | some i =>
    let x := x.modM fun m => { m with relays := m.relays.concat { idx := i, req := r, start := x.d.now } }
    if u = 0xFE then x.hopSend true 3 b
    else
      let down := match x.m.addr with | some a => decide (a.toNat < u.toNat) | none => true
      x.chainSend down (hframe u x.m.chainId 3 b)

/-- RELAY_EXPIRY: 100 ms without a response. -/
def relayExpiry (x : DM) (i : Nat) : DM :=
  match x.m.relays.find? fun y => y.idx == i with
  | none => x
  | some y =>
    if y.start + ms 100 ≤ x.d.now ∧ x.mgtUp then
      let x := x.modM fun m => { m with relays := m.relays.filter fun z => z.idx != i }
      x.tmpOut y.req.src y.req.key y.req.unit y.req.ty.toNat stUnreach y.req.seq false false false []
    else x

/-- A response that came back over the chain. -/
def relayBack (x : DM) (b : List Byte) : DM :=
  match x.m.relays.find? fun y => y.req.seq == leAt b 16 8 && y.req.key == tmpKey b with
  | none => x
  | some y =>
    let x := x.tmpSend y.req.src b
    if nbit (leAt b 4 1) 1 then x else x.modM fun m => { m with relays := m.relays.filter fun z => z.idx != y.idx }

/-! ## Datagrams -/

/-- UNIT names this device. -/
def unitHere (x : DM) (u : Byte) : Bool := u == 0xFF || match x.m.addr with | some a => u.toNat == a.toNat | none => false

/-- A message that reaches the management cluster. -/
def tmpArrive (x : DM) (src : TmpSrc) (b : List Byte) : DM :=
  if !x.mgtUp then x.modD fun d => if d.pwr.boot = .rdy then d.domWake 1 else d
  else
    let x := x.modM fun m => { m with msgAt := x.d.now }
    if !tmpFramed b then x
    else match src with
    | .host .. =>
      if x.unitHere (tmpUnit b) then x.tmpServe src b
      else if tmpUnit b = 0xFE ∨ (tmpUnit b).toNat ≤ 0x3F then x.relay src b
      else x
    | _ => x.tmpServe src b

/-- A message of the TYPE of its row. -/
def tmpRow (ty : Nat) (x : DM) (src : TmpSrc) (b : List Byte) : DM := if tmpType b = ty then x.tmpArrive src b else x

/-- EVT_SUB_LAPSE: 60 s without renewal. -/
def subLapse (x : DM) (i : Nat) : DM :=
  match x.m.esubs[i]? with
  | some (some s) => if s.since + ms 60000 ≤ x.d.now then x.modM fun m => { m with esubs := m.esubs.set i none } else x
  | _ => x

/-! ## Frames on the chain (R363 to R366) -/

/-- Consumes a frame addressed to this unit. -/
def frameTake (x : DM) (down : Bool) (f : List Byte) : DM :=
  let p := hframePayload f
  let ty := leAt f 2 1
  let dst := f.headD 0
  let src := if dst = 0xFF then 0xFF else f.getD 1 0
  if ty = 1 then if down then x else x.enumRecv (leAt p 0 1)
  else if ty = 2 then x.enumDoneRecv (leAt p 0 1)
  else if ty = 3 then
    if !tmpFramed p then x
    else if nbit (leAt p 4 1) 0 then x.relayBack p
    else x.tmpServe (chainSrc down src) p
  else if dst ≠ 0xFF then x
  else if ty = 4 then x.imgOfferRecv down p
  else if ty = 5 then x.imgReqRecv down p
  else if ty = 6 then x.imgDataRecv down p
  else x

/-- Takes or forwards a frame (R364). -/
def frameRoute (x : DM) (down : Bool) (f : List Byte) : DM :=
  let dst := (f.headD 0).toNat
  if dst = 0xFF then x.frameTake down f
  else if 0x3F < dst then x
  else match x.m.addr with
  | some a => if dst = a.toNat then x.frameTake down f else x.chainSend (decide (a.toNat < dst)) f
  | none => x.chainSend (!down) f

/-- A buffered frame goes to the management cluster, and its buffer back to the sender (R363). -/
def frameFree (x : DM) (down : Bool) (f : List Byte) : DM :=
  let x := x.modM fun m => { m with msgAt := x.d.now, out := m.out.concat (chainSrc down 0xFF, [0xDC]) }
  if hframeOk f then x.frameRoute down f else x.modD fun d => d.fldCnt Reg.halErrCnt 0 16 1

/-- A frame arrives on a port: it is held in D0 while D1 is down, and wakes it (R409). -/
def frameRecv (x : DM) (down : Bool) (f : List Byte) : DM :=
  let p := x.m.chain down
  if !p.up ∨ 4 ≤ p.held.length then x
  else if x.mgtUp then x.frameFree down f
  else (x.modM fun m => m.modChain down fun p => { p with held := p.held.concat f }).modD fun d => if d.pwr.boot = .rdy then d.domWake 1 else d

/-- A frame of the TYPE of its row. -/
def frameRow (ty : Nat) (x : DM) (down : Bool) (f : List Byte) : DM := if leAt f 2 1 = ty then x.frameRecv down f else x

/-- The frames that waited for D1. -/
def heldFrames (x : DM) (down : Bool) : DM :=
  if !x.mgtUp then x
  else
    let l := (x.m.chain down).held
    l.foldl (fun (x : DM) f => x.frameFree down f) (x.modM fun m => m.modChain down fun p => { p with held := [] })

/-- FRAME_BUFFER_CREDIT: K28.6. -/
def frameCredit (x : DM) (down : Bool) : DM :=
  if (x.m.chain down).up then x.modM fun m => (m.modChain down fun p => { p with credits := min 4 (p.credits + 1) }).chainPump down else x

/-- CHAIN_PORT_UP. -/
def portUp (x : DM) (down : Bool) : DM :=
  if (x.m.chain down).up ∨ x.d.pwr.boot = .off then x
  else
    let x : DM := { d := x.d.evMgt (if down then 8 else 7), m := x.m.modChain down fun _ => { up := true, credits := 4 } }
    if !x.mgtUp then x else (if down then x.enumDown else x).offerTo down

/-- CHAIN_PORT_DOWN: frames that waited to leave through the port are discarded (R364). -/
def portDown (x : DM) (down : Bool) : DM :=
  let n := (x.m.chain down).out.length
  if (x.m.chain down).up then
    { d := (x.d.fldCnt Reg.halErrCnt 16 16 n).evMgt (if down then 8 else 7), m := x.m.modChain down fun p => { held := p.held } }
  else x

/-! ## Time (R361, R362) and Ethernet (R377) -/

/-- A time in nanoseconds moved by `k`. -/
def nsAdd (t : Nat) (k : Int) : Nat := ((t : Int) + k).toNat

/-- A 64-bit offset saturated to 32 bits (MGT_PTP_OFS). -/
def ofsSat (o : Int) : Word := BitVec.ofInt 32 (max (-2147483648) (min 2147483647 o))

/-- SYNC: the offset is recorded, the clock is moved by it, and lock is gained or lost. -/
def syncRecv (d : Data) (ofs : BitVec 64) (ival : Nat) : Data :=
  if d.pwr.boot = .off then d
  else
    let o := ofs.toInt
    let near := decide (o.natAbs ≤ 1000)
    let far := decide (10000 < o.natAbs)
    let p := d.ptp
    let good := if near then min 8 (p.good + 1) else 0
    let lock := if far then false else p.locked || good == 8
    let adj := p.adj - o
    let show_ := p.ever || lock
    let p := { p with ofs := ofsSat o, good := good, locked := lock, ever := show_, lastSync := d.now, ival := ival
                      baseNs := if show_ then nsAdd d.timeNs adj else d.timeNs, baseAt := d.now, adj := if show_ then 0 else adj }
    let d' := { d with ptp := p }
    if lock && !d.ptp.locked then d'.evMgt 5 else if d.ptp.locked && !lock then d'.evMgt 6 else d'

/-- SYNC_TIMEOUT: no Sync within three announced intervals. -/
def syncTimeout (d : Data) : Data :=
  if d.ptp.locked ∧ d.ptp.lastSync + 3 * d.ptp.ival ≤ d.now then (d.modPtp fun p => { p with locked := false, good := 0 }).evMgt 6 else d

/-- The Ethernet link comes up or goes down. -/
def ethSet (x : DM) (up : Bool) : DM :=
  if x.m.ethUp = up ∨ x.d.pwr.boot = .off then x
  else
    let d := x.d.evMgt (if up then 3 else 4)
    { d := if up && d.pwr.boot == .rdy then d.domWake 1 else d, m := { x.m with ethUp := up } }

/-- A flash operation has failed (R377). -/
def flashSettle (x : DM) : DM := if x.m.flashErr then { d := x.d.evMgt 24, m := { x.m with flashErr := false } } else x

/-- What the management cluster does of itself: frames that waited, an offer that is due, the queues. -/
def mgtSettle (x : DM) : DM :=
  let x := (x.heldFrames false).heldFrames true
  let x := if x.m.offerDue ∧ x.mgtUp then (x.modM fun m => { m with offerDue := false }).offerAll else x
  x.hormalRun.flashSettle

/-- Firmware keeps the remap list and the RET bits in the settings store (R87, R88). -/
def keptSettle (x : DM) : DM :=
  let v := [(tagRemap, Mgmt.remapBytes x.d.store.remap), (tagRet, Mgmt.retBytes x.d)]
  if x.d.store.unsaved ∧ x.mgtUp then { d := x.d.modStore fun s => { s with unsaved := false }, m := x.m.setWrites v } else x

end DM

end Sys2Proof.Machine
end

