-- ==== Sys2Proof/Machine/Admission.lean ====
section
/-!
DEFINITION. What a slice admits next (R92, R93): the waiting passes by priority, the background steps in rotation, prefetches;
and the single background steps as commands.
-/

namespace Sys2Proof.Machine

/-- A pass that could be admitted: its priority, when it began to wait for admission, its age, and what it does. -/
structure Cand where
  prio : Nat
  since : Nat
  seq : Nat
  run : Data → Data

namespace Data

/-! ## Background steps (R92, R223) -/

/-- A step of engine `k` waits in the slice (R95). -/
def engineWaits (d : Data) (n : SliceId) (k : Nat) : Bool :=
  d.slices[n].waiters.any fun w => match w.kind with | .engine j _ => j == k | _ => false

/-- The engines that make background steps, in rotation: whether one has work, and its step; `old` is the age of a step that has
waited. An engine makes one step at a time. -/
def p5Work (d : Data) (n : SliceId) (k : Nat) : Bool :=
  if d.engineWaits n k then false
  else if k = 0 then d.mntWork n
  else if k = 1 then d.cleanWork n
  else if k = 2 then !d.slices[n].mfull.isEmpty
  else if k = 3 then d.plWork n
  else if k = 4 then d.sealWork n
  else if k = 5 then d.slices[n].cnsWalk.isSome
  else if k = 6 then d.pair.mirrorUse && d.drainSet.isSome
  else if k = 7 then d.slices[n].resync.isSome
  else if k = 8 then d.slices[n].arts.isSome
  else !d.slices[n].redirty.isEmpty

def p5Step (d : Data) (n : SliceId) (k : Nat) (old : Option Nat) : Data :=
  if k = 0 then d.mntStep n old
  else if k = 1 then d.cleanStep n old
  else if k = 2 then d.mfullStep n old
  else if k = 3 then d.plStep n old
  else if k = 4 then d.sealStep n old
  else if k = 5 then d.censusWalk n old
  else if k = 6 then d.drainStep n old
  else if k = 7 then d.resyncStep n old
  else if k = 8 then d.artsStep n old
  else d.redirtyStep n old

/-- The engine whose turn it is, among those that have work. -/
def p5Next (d : Data) (n : SliceId) : Option Nat := ((List.range 10).map fun i => (d.slices[n].p5 + i) % 10).find? fun k => d.p5Work n k

/-- The step of engine `k`, with the turn passed on. -/
def p5Run (d : Data) (n : SliceId) (k : Nat) : Data :=
  (d.modSlice n fun s => { s with p5 := (k + 1) % 10, p5Due := none }).p5Step n k none

/-! ## Wait lists (R95) -/

/-- Runs a waiting pass of any kind; a step of an engine keeps its age. -/
def runAny (d : Data) (n : SliceId) (w : Waiter) : Data :=
  match w.kind with
  | .engine k _ => (d.dropWaiter n w.seq).p5Step n k (some w.seq)
  | _ => d.runWaiter n w

/-- The resource that the head of a wait list waits for is free. -/
def listFree (d : Data) (n : SliceId) (w : Waiter) : Bool :=
  match w.kind with
  | .engine _ _ =>
    !((d.runAny n w).slices[n].waiters.any fun x => x.seq == w.seq && x.loc == w.loc)
  | _ =>
    match d.tryInTurn n w with
    | .ok _ => true
    | .error b => !sameList w.loc b

/-- Readmits the oldest head of a wait list whose resource is free; nothing happens while none is. -/
def waitReadmit (d : Data) (n : SliceId) : Data :=
  if !d.running n then d
  else
    match minBy (·.seq) ((d.listHeads n).filter (d.listFree n)) with
    | none => d
    | some w => d.runAny n w

/-! ## Admission -/

/-- A waiting pass that only admission keeps waiting: the priority it has (R92). -/
def duePrio (d : Data) (n : SliceId) (w : Waiter) : Option Nat :=
  match w.loc with
  | .ready => some (match w.kind with | .answer _ => 2 | _ => 3)
  | .input => some 4
  | .retry _ => if d.cleared n w then some 3 else none
  | .mtFull | .wbFull _ | .credit _ _ | .mirCredit =>
    if ((d.listHeads n).any fun x => x.seq == w.seq) && d.listFree n w then some 3 else none
  | _ => none

/-- The waiting passes of a slice that can be admitted. -/
def candWaiters (d : Data) (n : SliceId) : List Cand :=
  d.slices[n].waiters.filterMap fun w =>
    (d.duePrio n w).map fun p => { prio := p, since := w.due.getD d.now, seq := w.seq, run := fun d => d.runAny n w }

/-- Every pass that a slice could admit. -/
def cands (d : Data) (n : SliceId) : List Cand :=
  (match d.internalReturn n with
    | some (t, age, run) => [{ prio := 1, since := t, seq := age, run := run }]
    | none => []) ++
  d.candWaiters n ++
  (match d.p5Next n with
    | some k =>
      let due := d.slices[n].p5Due.getD (d.now, d.seq)
      [{ prio := 5, since := due.1, seq := due.2, run := fun d => d.p5Run n k }]
    | none => []) ++
  (match d.slices[n].pf.head? with
    | some x => [{ prio := 6, since := x.2.1, seq := x.2.2, run := fun d => d.pfStep n }]
    | none => [])

/-- The pass that is admitted: the oldest of those that have waited 64 cycles, else the oldest of the highest priority (R92,
R93). -/
def admitNext (d : Data) (n : SliceId) : Option Cand :=
  let l := d.cands n
  match minBy (·.seq) (l.filter fun c => decide (c.since + 64 ≤ d.now)) with
  | some c => some c
  | none =>
    match minBy (·.prio) l with
    | some c => minBy (·.seq) (l.filter fun x => x.prio == c.prio)
    | none => none

/-- PASS_ADMISSION. The bit upset that comes with it is met by the first lookup of the slice from then on (R73, R134). -/
def admitPass (d : Data) (n : SliceId) (u : Upset) : Data :=
  if !d.running n then d
  else
    let d := if u = .none then d else d.modSlice n fun s => { s with latent := u }
    match d.admitNext n with
    | none => d
    | some c => c.run d

/-- Since when each waiting pass waits for admission alone (R93), and since when the next backstop write is due (R172). -/
def dueSettle (d : Data) (n : SliceId) : Data :=
  let f := fun (w : Waiter) => if (d.duePrio n w).isSome then { w with due := some (w.due.getD d.now) } else { w with due := none }
  let ws := d.slices[n].waiters.map f
  let d := if ws.isEmpty then d else d.modSlice n fun s => { s with waiters := ws }
  let d := if d.slices[n].spill.isEmpty then d else d.spillIssue n
  match d.p5Next n, d.slices[n].p5Due with
  | some _, none => { d with seq := d.seq + 1 }.modSlice n fun s => { s with p5Due := some (d.now, d.seq) }
  | none, some _ => d.modSlice n fun s => { s with p5Due := none }
  | _, _ => d

/-! ## Single steps as commands -/

/-- Runs a background step where the slice runs and the engine has work. -/
def stepIf (d : Data) (n : SliceId) (k : Nat) : Data := if d.running n ∧ d.p5Work n k then d.p5Run n k else d

/-- EARLY_CLEANING_STEP and DRAIN_STEP: before TR and after it. -/
def cleanIf (d : Data) (n : SliceId) (tr : Bool) : Data := if d.dur.tr.isSome == tr then d.stepIf n 1 else d

end Data

end Sys2Proof.Machine
end

