-- ==== Sys2Proof/Machine/Pins.lean ====
section
/-!
DEFINITION. The test access port (R403, R442) and the thermal pins (R444, R445).
-/

namespace Sys2Proof.Machine

/-! ## The TAP controller (R403): IEEE 1149.1 -/

/-- The state after a rising edge of TCK with TMS. -/
def tapNext (s : TapSt) (tms : Bool) : TapSt :=
  match s with
  | .reset => if tms then .reset else .idle
  | .idle => if tms then .selDr else .idle
  | .selDr => if tms then .selIr else .capDr
  | .capDr => if tms then .ex1Dr else .shDr
  | .shDr => if tms then .ex1Dr else .shDr
  | .ex1Dr => if tms then .upDr else .paDr
  | .paDr => if tms then .ex2Dr else .paDr
  | .ex2Dr => if tms then .upDr else .shDr
  | .upDr => if tms then .selDr else .idle
  | .selIr => if tms then .reset else .capIr
  | .capIr => if tms then .ex1Ir else .shIr
  | .shIr => if tms then .ex1Ir else .shIr
  | .ex1Ir => if tms then .upIr else .paIr
  | .paIr => if tms then .ex2Ir else .paIr
  | .ex2Ir => if tms then .upIr else .shIr
  | .upIr => if tms then .selDr else .idle

/-- The data register that an instruction selects: IDCODE, the boundary register, or the bypass bit. -/
inductive TapDr where
  | idcode | boundary | bypass
deriving DecidableEq, Repr

/-- EXTEST, EXTEST_PULSE and EXTEST_TRAIN act only with SCAN_EN; CLAMP and HIGHZ select the bypass bit in either case. -/
def tapDr (scanEn : Bool) (ir : Byte) : TapDr :=
  if ir = 0x01 then .idcode
  else if ir = 0x02 then .boundary
  else if ir = 0x00 ∨ ir = 0x06 ∨ ir = 0x07 then (if scanEn then .boundary else .bypass)
  else .bypass

/-- IDCODE: version 0x1, part 0x6416, the fused manufacturer code, 1. -/
def tapId (maker : BitVec 11) : Word := (0x1 : BitVec 4) ++ (0x6416 : BitVec 16) ++ maker ++ (1 : BitVec 1)

/-- A rising edge: the action of the state, then the next state. `v` is a free value: the bits captured above the low two of
the instruction register, and the boundary register's, are not in the spec. -/
def tapRise (t : Tap) (scanEn : Bool) (maker : BitVec 11) (tms tdi : Bool) (v : BitVec 64) : Tap :=
  let t := { t with tms := tms, tdi := tdi, tck := true }
  let t := match t.st with
    | .capIr => { t with irSh := ((v.truncate 8 : Byte) &&& 0xFC) ||| 1 }
    | .shIr => { t with irSh := (if tdi then 0x80 else 0) ||| (t.irSh >>> 1) }
    | .capDr => { t with drSh := tapId maker, bypass := false }
    | .shDr =>
      match tapDr scanEn t.ir with
      | .idcode => { t with drSh := (if tdi then 0x80000000 else 0) ||| (t.drSh >>> 1) }
      | .boundary => t
      | .bypass => { t with bypass := tdi }
    | _ => t
  { t with st := tapNext t.st tms }

/-- A falling edge: TDO, and the instruction takes effect. -/
def tapFall (t : Tap) (scanEn : Bool) (tms tdi : Bool) (v : BitVec 64) : Tap :=
  let t := { t with tms := tms, tdi := tdi, tck := false }
  match t.st with
  | .reset => { t with ir := 1, tdo := none }
  | .upIr => { t with ir := t.irSh, tdo := none }
  | .shIr => { t with tdo := some (t.irSh.getLsbD 0) }
  | .shDr =>
    { t with tdo := some (match tapDr scanEn t.ir with | .idcode => t.drSh.getLsbD 0 | .boundary => v.getLsbD 0 | .bypass => t.bypass) }
  | _ => { t with tdo := none }

/-- The edge meets a value that the spec does not give. -/
def tapOpen (t : Tap) (scanEn rise : Bool) : Bool :=
  (rise && t.st == .capIr) || (!rise && t.st == .shDr && tapDr scanEn t.ir == .boundary)

/-- TCK: an edge, if the level changes. -/
def tapEdge (d : Data) (t : Tap) (rise tms tdi : Bool) : Data × Tap :=
  if t.tck = rise then (d, t)
  else
    let s := d.pwr.scanEn
    let v := Config.freeValue d.free
    let d' := if tapOpen t s rise then { d with free := d.free + 1 } else d
    (d', if rise then tapRise t s d.fuses.maker tms tdi v else tapFall t s tms tdi v)

/-- TRST_N low. -/
def tapReset (t : Tap) : Tap := { t with st := .reset, ir := 1, tdo := none }

namespace Data

/-! ## Temperature -/

/-- STACK_TEMPERATURE: the refresh rate, doubled above 85 °C and quadrupled above 105 °C. -/
def stackTemp (d : Data) (t : Byte) : Data :=
  d.modStore fun s => { s with refresh := if 105 < t.toNat then 4 else if 85 < t.toNat then 2 else 1 }

/-- THERMTRIP_N falls, and stays low until PWRGD falls. -/
def thermTrip (d : Data) : Data := if d.pwr.pwrgd then d.modPwr fun p => { p with thermtrip := true } else d

end Data

end Sys2Proof.Machine
end

