-- ==== Sys2Proof/Machine/Settle.lean ====
section
/-!
DEFINITION. What follows of itself once a command has taken effect: the device takes no time for it (assumption 1). Every
meaning of a command ends with it.
-/

namespace Sys2Proof.Machine

namespace Data

/-- A slice has work that wakes it: a maintenance operation, or a background step that only it can make (R409). -/
def sliceWork (d : Data) (n : SliceId) : Bool :=
  let s := d.slices[n]
  !s.mnt.isEmpty || !s.waiters.isEmpty || s.arts.isSome || s.cnsWalk.isSome || s.resync.isSome || !s.redirty.isEmpty || d.sealWork n

/-- A slice has a read or a write for a port. -/
def bkpWork (d : Data) (b : BkpId) : Bool :=
  d.serving.any fun n =>
    (d.slices[n].mt.any fun e => e.issued.isNone && !e.zero && !e.failed && e.got.isNone && d.bkpOf (2 * e.sec) == b) ||
      (d.slices[n].wb.any fun e => e.issued && d.bkpOf e.ga == b) ||
      (d.slices[n].side.toList.any fun e => e.st == .pend && !e.zero && e.issued.isNone && d.bkpOf (2 * e.sec) == b)

/-- Wake sources that are conditions and not commands: work of a slice, reads and writes for a backing port (R409). -/
def wakeSettle (d : Data) : Data :=
  if !d.ready then d
  else
    let d := d.serving.foldl (fun (d : Data) n => if !d.domUp (slcDom n) && d.sliceWork n then d.domWake (slcDom n) else d) d
    let d := d.usedBkps.foldl (fun (d : Data) b => if !d.domUp (bkpDom b) && d.bkpWork b then d.domWake (bkpDom b) else d) d
    d.serving.foldl (fun (d : Data) n => if d.running n then d.issueReads n else d) d

/-- Journal copies on a port that failed before its flush are dropped (R242). -/
def flushSettle (d : Data) : Data :=
  if d.pwr.boot = .flushing then
    (d.dur.flush.map (·.1)).foldl (fun (d : Data) b => if d.bkps[b].st = .failed then d.journalDrop b else d) d
  else d

/-- A device consumer whose command queue is enabled and unassigned has met it (R295). -/
def qMeet (d : Data) : Data :=
  if !d.ready || !d.domUp 2 then d
  else
    let meet := fun (d : Data) (a : Nat) => if d.flag a 14 && (d.qRec (d.fld a 0 14)).isNone then d.qOnce (d.fld a 0 14) else d
    let d := allAgents.foldl (fun (d : Data) p => meet d (Reg.hlmAgq p.val)) d
    (List.range 17).foldl (fun (d : Data) r => meet d (Reg.topMagq r)) d

/-- Procedures of the device that go on as far as they can. -/
def settle (d : Data) : Data :=
  let d := d.qMeet.censusSettle.handSettle.mntSettle.svcSettle
  let d := d.budgetSettle.durSettle.reloadSettle.flushSettle
  let d := d.usedBkps.foldl (fun (d : Data) b => d.wrate b) d
  let d := (d.heldSettle.wakeSettle).rowSettle.prevSettle
  d.serving.foldl (fun (d : Data) n => if d.running n then (d.plSettle n).dueSettle n else d) d

end Data

namespace DM

/-- Everything that follows of itself: MGQ items, the management cluster, the procedures, the links, the idle times, what
firmware keeps. -/
def settle (x : DM) : DM :=
  let x := x.mgqSettle.mgtSettle
  let d := x.d.settle.linksSettle
  ({ x with d := d.idleSettle x.mgtIdle } : DM).keptSettle

end DM

/-! ## How a command works on the whole state -/

namespace State

/-- The device and the cluster as a command finds them: what the cluster sent before is gone (assumption 32). -/
def begun (s : State) : DM := { d := s.d, m := { s.m with out := [] } }

/-- The state once a command has left the device and the cluster at `x` and everything that follows of itself has happened. -/
def afterDM (s : State) (x : DM) : State := { s with d := x.settle.d, m := x.settle.m }

/-- The same where the command has changed the device alone, to `d`. -/
def after (s : State) (d : Data) : State := s.afterDM { s.begun with d := d }

/-- A command that concerns the management cluster too. -/
def onDM (s : State) (f : DM → DM) : State := s.afterDM (f s.begun)

/-- A command on the device. -/
def onData (s : State) (f : Data → Data) : State := s.after (f s.d)

end State

end Sys2Proof.Machine
end

