-- ==== Sys2Proof/Machine/Commands.lean ====
section
/-!
DEFINITION. What several commands share: a control triggered by a register write, an access of any requester, a domain named by a
number, acknowledgements of backing writes, a tick.
-/

namespace Sys2Proof.Machine

namespace Data

/-- A backing write is acknowledged (R217): of a write-buffer entry below 48, else the oldest of the mirror drain (48, R392), of
the shadow writes of a takeover (49, R391), of a salvage (50, R398), or the witness write (51, R383). -/
def backingAck (d : Data) (n : SliceId) (i : Nat) : Data :=
  if i < 48 then d.wbAck n i
  else if i = 48 then d.drainAck
  else if i = 49 then d.shadowAck
  else if i = 50 then d.salvAck n
  else if i = 51 then d.modPair fun p => { p with witSent := none }
  else d

/-- The stale timer of a queue expires (R307): it does not run again until the next pop. -/
def qStale (d : Data) (q : Nat) : Data :=
  let t := d.fld (Reg.quedStale q) 0 16
  match d.qRec q, (d.que1 q).timer with
  | some _, some b =>
    if t ≠ 0 ∧ d.domUp 2 ∧ b + us (10 * t) ≤ d.now then
      ((d.modQue q fun x => { x with stale := true, timer := none, expired := true }).stampQue q 21).qEv 0 q
    else d
  | _, _ => d

end Data

namespace DM

/-- A register write that takes effect at its target, of the bits `en` alone: what a write that keeps the other fields does. The
management cluster makes it (assumption 10): one to a far register follows those that it posted before (R342). -/
def trigger (x : DM) (a : Nat) (v en : Word) (m : BitVec 67 := 0) : DM :=
  if x.mgtUp then (if regNear a then x else x.postedAll 16).writePart 16 a v en m else x

/-- An agent's access reaches the fabric: its port serves it, D1 is up, and no earlier item of the agent waits. -/
def accOpen (x : DM) (p : Agent) : Bool := x.d.portOpen p && x.d.domUp 1 && x.d.ports[p].mgqIn.isEmpty
/-- One that does not yet is held at the port; it wakes D1 as it comes to its turn (R344). -/
def accHold (x : DM) (p : Agent) (i : MgqItem) : DM := { x with d := x.d.mgqPut p i false }

/-- A write by any requester; an agent's is 32 or 64 bits wide. -/
def accWrite (x : DM) (r : Requester) (a : Nat) (width : AccWidth) (be : Byte) (v : Dword) : DM :=
  match reqAgent r with
  | none => x.mgtWrite a width be v
  | some p =>
    if accBytes width < 4 then x
    else if x.accOpen p then (x.agentWrite p a (accBytes width == 8) be v (x.d.regOk p a true be v)).1
    else x.accHold p (.acc (BitVec.ofNat 32 a) (accBytes width == 8) true be v (x.d.regOk p a true be v))

/-- A read by any requester. -/
def accRead (x : DM) (r : Requester) (a : Nat) (width : AccWidth) : DM :=
  match reqAgent r with
  | none => (x.mgtRead a width).1
  | some p =>
    if accBytes width < 4 then x
    else if x.accOpen p then (x.agentRead p a (accBytes width == 8) (x.d.regOk p a false 0 0)).1
    else x.accHold p (.acc (BitVec.ofNat 32 a) (accBytes width == 8) false 0 0 (x.d.regOk p a false 0 0))

/-- What happens to a domain that the device has. -/
def onDom (x : DM) (i : BitVec 5) (f : DM → Fin 30 → DM) : DM := if h : i.toNat < 30 then f x ⟨i.toNat, h⟩ else x

/-- A tick (R315): the counters of cycles without credit, the events, the log. -/
def tickAll (x : DM) : DM :=
  let d := x.d.creditTick
  let y : DM := { x with d := d.eventTick }
  if d.pwr.boot = .off then x else y.logTick d.evt.latch y.d.evt.tick.toNat

/-- A RESTART message of one scope (R359): false the device, true the management cluster. -/
def restartRow (scope : Bool) (x : DM) (src : TmpSrc) (msg : List Byte) : DM :=
  if (leAt (tmpPayload msg) 0 1 == 1) = scope then tmpRow 0x1F x src msg else x

end DM

/-! ## A cycle without a command (assumption 1) -/

namespace Data

/-- The counters of a slice that run by the cycle (R322). -/
def cycleSlice (d : Data) (n : SliceId) : Data :=
  if d.domUp (slcDom n) then ((d.pmcSlc n 0).pmcSlc n 38 d.slices[n].htes.length).pmcSlc n 39 d.slices[n].mt.length else d

/-- A pass waits for MIR credit: the mirror throttle (R385). -/
def throttled (d : Data) : Bool := d.serving.any fun n => d.slices[n].waiters.any fun w => w.loc == .mirCredit

/-- A cycle in which a slice is reefed does not count toward the scrub period of its pseudo-channels (R270). -/
def scrubIdle (d : Data) : Data :=
  if d.activeSlices.all (fun n => d.domUp (slcDom n)) then d
  else
    let shift := fun (pc t : Nat) => if d.active (Fin.ofNat 8 (pc / 4)) && !d.domUp (slcDom (Fin.ofNat 8 (pc / 4))) then t + 1 else t
    d.modStore fun s => { s with periodAt := s.periodAt.mapIdx shift }

/-- One slice cycle passes. -/
def cycle (d : Data) : Data :=
  let d := { d with now := d.now + 1 }
  if d.pwr.boot = .off then d
  else
    let d := d.scrubIdle
    (d.activeSlices.foldl (fun (d : Data) n => d.cycleSlice n) d).when d.throttled fun d => d.tally 509

end Data

/-- The block idles for a cycle: time passes, and nothing else comes from outside. -/
def State.idle (s : State) : State := s.onData Data.cycle

end Sys2Proof.Machine
end

