-- ==== Sys2Proof/Machine/CmdAnswers.lean ====
section
/-!
DEFINITION. Meanings of the answers of an agent: RSP and DAT items (R151, R190, R234, R396).
-/

namespace Sys2Proof.Machine

/-- RSP_I (R151). An agent's answer that it is now invalid and sent no data is accepted for an open HTE or absorbed by an owed marker. -/
def execRspI (p : Fin 16) (g : BitVec 40) (s : State) : Host.Outcome State Fault Refusal :=
  .next (s.onData fun d => d.rspItem p 0x01 g)

/-- RSP_I_FWD (R151). An owner's answer that it is invalid and has sent its data to the requester is applied to the HTE. -/
def execRspIFwd (p : Fin 16) (g : BitVec 40) (s : State) : Host.Outcome State Fault Refusal :=
  .next (s.onData fun d => d.rspItem p 0x02 g)

/-- RSP_S_FWD (R151). An owner's answer that it kept S and sent clean data to the requester is applied to the HTE. -/
def execRspSFwd (p : Fin 16) (g : BitVec 40) (s : State) : Host.Outcome State Fault Refusal :=
  .next (s.onData fun d => d.rspItem p 0x03 g)

/-- RSP_O_FWD (R151). An owner's answer that it kept O and sent data to the requester is applied to the HTE. -/
def execRspOFwd (p : Fin 16) (g : BitVec 40) (s : State) : Host.Outcome State Fault Refusal :=
  .next (s.onData fun d => d.rspItem p 0x04 g)

/-- RSP_I_WB (R160). An owner in WB_A answers a snoop and the home records it as WBSRC and readmits its waiting WB. -/
def execRspIWb (p : Fin 16) (g : BitVec 40) (s : State) : Host.Outcome State Fault Refusal :=
  .next (s.onData fun d => d.rspItem p 0x05 g)

/-- RSP_RECALL (R234). An agent's end of its answer to RECALL or to a census is taken by the port and reported. -/
def execRspRecall (p : Fin 16) (g : BitVec 40) (s : State) : Host.Outcome State Fault Refusal :=
  .next (s.onData fun d => d.rspRecall p g)

/-- RSP_CN_S (R396). A census report that the agent holds a granule in S or S_WT is installed in the directory. -/
def execRspCnS (p : Fin 16) (g : BitVec 40) (s : State) : Host.Outcome State Fault Refusal :=
  .next (s.onData fun d => d.rspItem p 0x07 g)

/-- RSP_CN_X (R396). A census report that the agent holds a granule in E or M is installed and charged. -/
def execRspCnX (p : Fin 16) (g : BitVec 40) (s : State) : Host.Outcome State Fault Refusal :=
  .next (s.onData fun d => d.rspItem p 0x08 g)

/-- RSP_CN_O (R396). A census report that the agent holds a granule in O is installed and charged. -/
def execRspCnO (p : Fin 16) (g : BitVec 40) (s : State) : Host.Outcome State Fault Refusal :=
  .next (s.onData fun d => d.rspItem p 0x09 g)

/-- DAT_S (R190). Shared data sent by an owner is steered by the agent crossbar to the requester's port. -/
def execDatS (p : Fin 16) (g : BitVec 40) (peer : Fin 16) (poison : Bool) (dat : Gran) (s : State) : Host.Outcome State Fault Refusal :=
  .next (s.onData fun d => d.datPeer p 0x01 g peer poison dat)

/-- DAT_E (R190). Exclusive clean data sent by an owner is steered to the requester's port. -/
def execDatE (p : Fin 16) (g : BitVec 40) (peer : Fin 16) (poison : Bool) (dat : Gran) (s : State) : Host.Outcome State Fault Refusal :=
  .next (s.onData fun d => d.datPeer p 0x02 g peer poison dat)

/-- DAT_M (R190). Exclusive dirty data sent by an owner is steered to the requester's port. -/
def execDatM (p : Fin 16) (g : BitVec 40) (peer : Fin 16) (poison : Bool) (dat : Gran) (s : State) : Host.Outcome State Fault Refusal :=
  .next (s.onData fun d => d.datPeer p 0x03 g peer poison dat)

/-- DAT_SNP_C (R151). Clean snoop data from an agent to the home is placed in the HTE's buffer and applied. -/
def execDatSnpC (p : Fin 16) (g : BitVec 40) (poison : Bool) (dat : Gran) (s : State) : Host.Outcome State Fault Refusal :=
  .next (s.onData fun d => d.datHome p 0x0A g poison dat)

/-- DAT_SNP_D (R151). Dirty snoop data from an agent to the home is placed in the HTE's buffer and applied. -/
def execDatSnpD (p : Fin 16) (g : BitVec 40) (poison : Bool) (dat : Gran) (s : State) : Host.Outcome State Fault Refusal :=
  .next (s.onData fun d => d.datHome p 0x0B g poison dat)

end Sys2Proof.Machine
end

