-- ==== Sys2Proof/Machine/CmdControls.lean ====
section
/-!
DEFINITION. Meanings of the controls that a register write triggers, of reloads, events and counters.
-/

namespace Sys2Proof.Machine

/-- GO (R61). A write of 1 to RIG_RELOAD.GO starts a runtime reload of the staged rig. -/
def execGo (s : State) : Host.Outcome State Fault Refusal :=
  .next (s.onDM fun x => x.trigger Reg.rigReload 1 1)

/-- RELOAD_SWITCH (R61). Once affected transactions have completed, the three runtime sections switch in one cycle and held REQs are released. -/
def execReloadSwitch (s : State) : Host.Outcome State Fault Refusal :=
  .next (s.onData fun d => d.reloadSwitch)

/-- RELOAD_TIMEOUT (R63). A reload whose steps 5 to 7 have not completed in 50 ms is abandoned with error 0x0F. -/
def execReloadTimeout (s : State) : Host.Outcome State Fault Refusal :=
  .next (s.onData fun d => d.reloadTimeout)

/-- RLD (R65). The partner's reload readiness arrives over the shroud link. -/
def execRld (seq : Word) (s : State) : Host.Outcome State Fault Refusal :=
  .next (s.onData fun d => d.rldRecv seq)

/-- RELOAD_PARTNER_TIMEOUT (R65). The partner has not reported readiness in 10 ms and the reload is abandoned with error 0x11. -/
def execReloadPartnerTimeout (s : State) : Host.Outcome State Fault Refusal :=
  .next (s.onData fun d => d.reloadPartnerTimeout)

/-- SLC_DIS_GO (R123). A request to disable a slice's cache is granted or refused in cycle E. -/
def execSlcDisGo (n : Fin 8) (s : State) : Host.Outcome State Fault Refusal :=
  .next (s.onDM fun x => x.trigger (Reg.slcCdis n.val) 1 1)

/-- SLC_EN_GO (R125). A request to re-enable a slice's cache is granted or refused in cycle E. -/
def execSlcEnGo (n : Fin 8) (s : State) : Host.Outcome State Fault Refusal :=
  .next (s.onDM fun x => x.trigger (Reg.slcCdis n.val) 2 2)

/-- CBYP_DIS_GO (R123). A request to bypass a region's cache is granted or refused in cycle E. -/
def execCbypDisGo (rgn : BitVec 6) (s : State) : Host.Outcome State Fault Refusal :=
  .next (s.onDM fun x => x.trigger Reg.topCbypCtl ((rgn.setWidth 32) ||| 0x40) 0xFF)

/-- CBYP_EN_GO (R125). A request to end a region's bypass is granted or refused in cycle E. -/
def execCbypEnGo (rgn : BitVec 6) (s : State) : Host.Outcome State Fault Refusal :=
  .next (s.onDM fun x => x.trigger Reg.topCbypCtl ((rgn.setWidth 32) ||| 0x80) 0xFF)

/-- EVENT_TICK (R315). A tick samples every pending event latch and delivers the events in order of precedence. -/
def execEventTick (s : State) : Host.Outcome State Fault Refusal :=
  .next (s.onDM fun x => x.tickAll)

/-- EVENT_QUEUE_PUSH (R319). The delivery list pushes event items into their queues, up to 32 per tick. -/
def execEventQueuePush (s : State) : Host.Outcome State Fault Refusal :=
  .next (s.onData fun d => d.evPush)

/-- EVT_FORCE (R321). A write of EVT_FORCE.GO sets the pending latch of the named source. -/
def execEvtForce (src : BitVec 10) (s : State) : Host.Outcome State Fault Refusal :=
  .next (s.onDM fun x => x.trigger Reg.evtForce ((src.setWidth 32) ||| 0x400) 0x7FF)

/-- SNAP (R329). A write of 1 to PMC_CTL.SNAP requests a snapshot at the next tick edge. -/
def execSnap (s : State) : Host.Outcome State Fault Refusal :=
  .next (s.onDM fun x => x.trigger Reg.pmcCtl 1 1)

/-- SNAPSHOT_PERIOD_EXPIRY (R329). SNAP_PER × 1,024 ticks elapse since the last snapshot and a snapshot is requested. -/
def execSnapshotPeriodExpiry (s : State) : Host.Outcome State Fault Refusal :=
  .next (s.onData fun d => d.snapExpiry)

/-- SNAPSHOT (R329). All 512 counters are copied to their shadows at one tick edge and SEQ increments. -/
def execSnapshot (s : State) : Host.Outcome State Fault Refusal :=
  .next (s.onData fun d => d.snapshot)

/-- CLR_ALL (R327). A write of 1 to PMC_CTL.CLR_ALL clears every counter and overflow bit at the next tick edge. -/
def execClrAll (s : State) : Host.Outcome State Fault Refusal :=
  .next (s.onDM fun x => x.trigger Reg.pmcCtl 2 2)

/-- PMC_WVAL_HI (R327). A write of PMC_WVAL_HI loads the selected counter with the latched value. -/
def execPmcWvalHi (v : Word) (s : State) : Host.Outcome State Fault Refusal :=
  .next (s.onDM fun x => x.trigger Reg.pmcWvalHi v 0xFFFFFFFF)

/-- PMC_SMP_SEED (R330). A write of the seed reloads every port's sampling LFSR. -/
def execPmcSmpSeed (v : Word) (s : State) : Host.Outcome State Fault Refusal :=
  .next (s.onDM fun x => x.trigger Reg.pmcSmpSeed v 0xFFFFFFFF)

/-- APT_SWEV (R313). A write of APTn_SWEV raises software events of the port at the next tick. -/
def execAptSwev (p : Fin 16) (v : Byte) (s : State) : Host.Outcome State Fault Refusal :=
  .next (s.onDM fun x => x.trigger (Reg.aptSwev p.val) (v.setWidth 32) 0xFF)

/-- DIS (R180). A write of 1 to APTn_LINK_CTL.DIS takes the link to DOWN and isolates the agent. -/
def execDis (p : Fin 16) (s : State) : Host.Outcome State Fault Refusal :=
  .next (s.onDM fun x => x.trigger (Reg.aptLinkCtl p.val) 1 1)

/-- RETRAIN (R206). A write of APTn_LINK_CTL.RETRAIN returns a DOWN link to DETECT. -/
def execRetrain (p : Fin 16) (s : State) : Host.Outcome State Fault Refusal :=
  .next (s.onDM fun x => x.trigger (Reg.aptLinkCtl p.val) 2 2)

end Sys2Proof.Machine
end

