-- ==== Sys2Proof/Machine/CmdDurability.lean ====
section
/-!
DEFINITION. Meanings of the failures of backing ports and of the power-fail sequence (R216 to R242).
-/

namespace Sys2Proof.Machine

/-- VIRAL_INDICATION (R231). A viral indication from the expander fails the backing port. -/
def execViralIndication (b : Fin 4) (s : State) : Host.Outcome State Fault Refusal :=
  .next (s.onData fun d => if d.bkpUsed b then d.bkpFailPort b else d)

/-- BACKING_LINK_LOST (R231). The CXL link of a backing port is lost, which raises event 1 (R254), and the port fails. -/
def execBackingLinkLost (b : Fin 4) (s : State) : Host.Outcome State Fault Refusal :=
  .next (s.onData fun d => d.bkpLose b (some 1))

/-- DIRTY_MAP_EPOCH (R222). The dirty-map epoch expires, the oldest map merges into the next and becomes current. -/
def execDirtyMapEpoch (s : State) : Host.Outcome State Fault Refusal :=
  .next (s.onData fun d => d.epochAdvance)

/-- EARLY_CLEANING_STEP (R223). A priority-5 cleaning step creates CLN entries for the durable dirty sectors of the oldest dirty set. -/
def execEarlyCleaningStep (n : Fin 8) (s : State) : Host.Outcome State Fault Refusal :=
  .next (s.onData fun d => d.cleanIf n false)

/-- DUR_BUDGET (R221). A write of the dirty budget takes effect in the next cycle and may set OVER. -/
def execDurBudget (v : Word) (s : State) : Host.Outcome State Fault Refusal :=
  .next (s.onDM fun x => x.trigger Reg.durBudget v 0xFFFFFFFF)

/-- POWER_FAIL_WARNING (R232). PFW_N is recognised low, BUD is set, the hallmark engine stops and the Recall phase starts. -/
def execPowerFailWarning (s : State) : Host.Outcome State Fault Refusal :=
  .next (s.onData fun d => DM.powerFail d)

/-- RECALL_DEADLINE (R233). The Recall deadline passes and the Drain phase begins. -/
def execRecallDeadline (s : State) : Host.Outcome State Fault Refusal :=
  .next (s.onData fun d => d.deadline .recalling)

/-- DRAIN_STEP (R235). A slice walks its dirty maps during Drain creating CLN entries. -/
def execDrainStep (n : Fin 8) (s : State) : Host.Outcome State Fault Refusal :=
  .next (s.onData fun d => d.cleanIf n true)

/-- DRAIN_DEADLINE (R233). The Drain deadline passes, unacknowledged granules count as DRAIN losses and Persist begins. -/
def execDrainDeadline (s : State) : Host.Outcome State Fault Refusal :=
  .next (s.onData fun d => d.deadline .drain)

/-- GPF_PHASE1_RESPONSE (R236). A backing port's GPF Phase 1 response arrives. -/
def execGpfPhase1Response (b : Fin 4) (err : Bool) (s : State) : Host.Outcome State Fault Refusal :=
  .next (s.onData fun d => d.gpf1 b err)

/-- GPF_PHASE2_RESPONSE (R236). A backing port's GPF Phase 2 response arrives. -/
def execGpfPhase2Response (b : Fin 4) (err : Bool) (s : State) : Host.Outcome State Fault Refusal :=
  .next (s.onData fun d => d.gpf2 b err)

/-- PERSIST_DEADLINE (R233). The Persist deadline passes, unanswered ports are marked and Journal begins. -/
def execPersistDeadline (s : State) : Host.Outcome State Fault Refusal :=
  .next (s.onData fun d => d.deadline .persist)

/-- SET_SHUTDOWN_STATE_COMPLETE (R237). A Set Shutdown State clean command to an expander completes. -/
def execSetShutdownStateComplete (b : Fin 4) (s : State) : Host.Outcome State Fault Refusal :=
  .next (s.onData fun d => d.shutdownDone b)

/-- JOURNAL_DEADLINE (R237). The Journal deadline passes and PFD is asserted. -/
def execJournalDeadline (s : State) : Host.Outcome State Fault Refusal :=
  .next (s.onData fun d => d.deadline .journal)

/-- DONE_RESTART (R238). After Done, PFW_N high for 10 ms with good supplies starts the device as from power good. -/
def execDoneRestart (e : StartEnv) (s : State) : Host.Outcome State Fault Refusal :=
  .next (s.onDM fun x => x.doneRestart e)

/-- JOURNAL_FLUSH_TIMEOUT (R242). A journal port has not answered GPF Phase 2 within 5 ms at start-up and its copy is dropped. -/
def execJournalFlushTimeout (b : Fin 4) (s : State) : Host.Outcome State Fault Refusal :=
  .next (s.onData fun d => d.flushTimeout b)

end Sys2Proof.Machine
end

