-- ==== Sys2Proof/Machine/CmdLinks.lean ====
section
/-!
DEFINITION. Meanings of what arrives on a link and of its timers (R179 to R207).
-/

namespace Sys2Proof.Machine

/-- RECEIVER_DETECTED (R180). A receiver is detected on lane 0 and the port enters TRAIN. -/
def execReceiverDetected (l : LinkId) (s : State) : Host.Outcome State Fault Refusal :=
  .next (s.onData fun d => d.receiverDetected l)

/-- DETECT_TIMEOUT (R180). No receiver is detected in 12 ms and detection repeats. -/
def execDetectTimeout (l : LinkId) (s : State) : Host.Outcome State Fault Refusal :=
  .next (s.onData fun d => d.detectTimeout l)

/-- STS1 (R179). A training set STS1 is received on a lane. -/
def execSts1 (l : LinkId) (lane : Fin 16) (w : BitVec 256) (s : State) : Host.Outcome State Fault Refusal :=
  .next (s.onData fun d => d.stsRecv l lane w false)

/-- STS2 (R179). A training set STS2 carrying a lane number is received. -/
def execSts2 (l : LinkId) (lane : Fin 16) (w : BitVec 256) (s : State) : Host.Outcome State Fault Refusal :=
  .next (s.onData fun d => d.stsRecv l lane w true)

/-- SDM (R180). A start-of-flits block is received in INIT. -/
def execSdm (l : LinkId) (lane : Fin 16) (w : BitVec 256) (s : State) : Host.Outcome State Fault Refusal :=
  .next (s.onData fun d => d.sdmRecv l lane w)

/-- TRAIN_TIMEOUT (R180). TRAIN lasts 24 ms and the port returns to DETECT with a training-failure event. -/
def execTrainTimeout (l : LinkId) (s : State) : Host.Outcome State Fault Refusal :=
  .next (s.onData fun d => d.trainTimeout l)

/-- CFG_TIMEOUT (R180). CFG lasts 2 ms and the port returns to DETECT. -/
def execCfgTimeout (l : LinkId) (s : State) : Host.Outcome State Fault Refusal :=
  .next (s.onData fun d => d.cfgTimeout l)

/-- EQUALISATION_COMPLETE (R180). PCIe 6.0 equalisation at 32 or 64 GT/s completes and its settings are stored. -/
def execEqualisationComplete (l : LinkId) (s : State) : Host.Outcome State Fault Refusal :=
  .next (s.onData fun d => d.eqComplete l)

/-- EQUALISATION_FAILURE (R180). Equalisation fails or lasts 32 ms and the agreed rate drops one step. -/
def execEqualisationFailure (l : LinkId) (s : State) : Host.Outcome State Fault Refusal :=
  .next (s.onData fun d => d.eqFailure l)

/-- INIT_TIMEOUT (R180). INIT lasts 1 ms without sufficient credits and the port returns to DETECT. -/
def execInitTimeout (l : LinkId) (s : State) : Host.Outcome State Fault Refusal :=
  .next (s.onData fun d => d.initTimeout l)

/-- PAYLOAD (R202). A good PAYLOAD flit is received and accepted, discarded, or answered with NAK by sequence. -/
def execPayload (l : LinkId) (w : BitVec 2048) (s : State) : Host.Outcome State Fault Refusal :=
  .next (s.onData fun d => d.payload l w)

/-- NOP (R202). A good NOP flit is received and its LNK slots processed. -/
def execNop (l : LinkId) (w : BitVec 2048) (s : State) : Host.Outcome State Fault Refusal :=
  .next (s.onData fun d => d.nop l w)

/-- BAD_FLIT (R202). A flit with an uncorrectable interleave or failing CRC is discarded and a NAK sent. -/
def execBadFlit (l : LinkId) (w : BitVec 2048) (s : State) : Host.Outcome State Fault Refusal :=
  .next (s.onData fun d => d.badFlit l w)

/-- NAK_RESEND_TIMEOUT (R202). The replayed flit has not arrived 2 µs after a NAK and the NAK is sent again. -/
def execNakResendTimeout (l : LinkId) (s : State) : Host.Outcome State Fault Refusal :=
  .next (s.onData fun d => d.nakResend l)

/-- REPLAY_TIMEOUT (R203). ACKSEQ has not advanced for RPLT and the transmitter replays. -/
def execReplayTimeout (l : LinkId) (s : State) : Host.Outcome State Fault Refusal :=
  .next (s.onData fun d => d.replayTimeout l)

/-- LANE_LOCK_LOST (R204). The receiver loses lane lock and the link enters RECOVER. -/
def execLaneLockLost (l : LinkId) (s : State) : Host.Outcome State Fault Refusal :=
  .next (s.onData fun d => d.laneLockLost l)

/-- RECOVER_COMPLETE (R180). Retraining in RECOVER completes and the link returns to ACTIVE with replay. -/
def execRecoverComplete (l : LinkId) (lanes : BitVec 16) (s : State) : Host.Outcome State Fault Refusal :=
  .next (s.onData fun d => d.recoverComplete l lanes)

/-- RECOVER_TIMEOUT (R180). RECOVER lasts 2 ms and the rate drops or, at 16 GT/s, the link goes DOWN. -/
def execRecoverTimeout (l : LinkId) (s : State) : Host.Outcome State Fault Refusal :=
  .next (s.onData fun d => d.recoverTimeout l)

/-- L1_REQ (R207). A request for low-power entry is received and answered. -/
def execL1Req (p : Fin 16) (s : State) : Host.Outcome State Fault Refusal :=
  .next (s.onData fun d => d.l1ReqRecv p)

/-- L1_ACK (R207). An acceptance of low-power entry is received and the link goes to L1. -/
def execL1Ack (p : Fin 16) (s : State) : Host.Outcome State Fault Refusal :=
  .next (s.onData fun d => d.l1AckRecv p)

/-- L1_NAK (R207). A refusal of low-power entry is received and the link stays ACTIVE. -/
def execL1Nak (p : Fin 16) (s : State) : Host.Outcome State Fault Refusal :=
  .next (s.onData fun d => d.l1NakRecv p)

/-- L1_ANSWER_TIMEOUT (R207). No answer to L1_REQ arrives in 2 µs and it counts as L1_NAK. -/
def execL1AnswerTimeout (p : Fin 16) (s : State) : Host.Outcome State Fault Refusal :=
  .next (s.onData fun d => d.l1AnswerTimeout p)

/-- L1IDLE_EXPIRY (R207). The link has been idle for L1IDLE and the device sends L1_REQ. -/
def execL1idleExpiry (p : Fin 16) (s : State) : Host.Outcome State Fault Refusal :=
  .next (s.onData fun d => d.l1Idle p)

/-- ELECTRICAL_IDLE_EXIT (R180). An end leaves electrical idle, or an item waits, and the link enters WAKE. -/
def execElectricalIdleExit (p : Fin 16) (s : State) : Host.Outcome State Fault Refusal :=
  .next (s.onData fun d => d.idleExit p)

/-- WAKE_COMPLETE (R180). Lanes lock and flits flow within 10 µs and the link returns to ACTIVE. -/
def execWakeComplete (p : Fin 16) (s : State) : Host.Outcome State Fault Refusal :=
  .next (s.onData fun d => d.wakeComplete p)

/-- WAKE_TIMEOUT (R180). WAKE lasts 10 µs and the link enters RECOVER. -/
def execWakeTimeout (p : Fin 16) (s : State) : Host.Outcome State Fault Refusal :=
  .next (s.onData fun d => d.wakeTimeout p)

/-- CREDIT_WAIT (R200). An item toward an agent waits CRDW without credit and the credit-wait event is raised. -/
def execCreditWait (p : Fin 16) (c : MsgClass) (s : State) : Host.Outcome State Fault Refusal :=
  .next (s.onData fun d => d.creditWait p c)

/-- CREDIT_WAIT_ISOLATION (R200). An item waits CRDN with no credit arriving and the agent is isolated. -/
def execCreditWaitIsolation (p : Fin 16) (c : MsgClass) (s : State) : Host.Outcome State Fault Refusal :=
  .next (s.onData fun d => d.creditIsolate p c)

end Sys2Proof.Machine
end

