-- ==== Sys2Proof/Machine/CmdMaintenance.lean ====
section
/-!
DEFINITION. Meanings of seals (R247), maintenance items (R277 to R281), planishing, scrubbing and error injection (R268 to R274).
-/

namespace Sys2Proof.Machine

/-- SEAL_ITEM (R247). The hallmark engine takes a seal item from a command queue and checks it. -/
def execSealItem (s : State) : Host.Outcome State Fault Refusal :=
  .next (s.onData fun d => d.sealTake)

/-- SEAL_DURABILITY_STEP (R247). A priority-5 step brings a covered granule to a stable state with no owner. -/
def execSealDurabilityStep (n : Fin 8) (s : State) : Host.Outcome State Fault Refusal :=
  .next (s.onData fun d => d.stepIf n 4)

/-- SEAL_HASH_COMPLETE (R247). A lane finishes hashing a seal preimage and the chain advances. -/
def execSealHashComplete (lane : Fin 8) (s : State) : Host.Outcome State Fault Refusal :=
  .next (s.onData fun d => d.sealDone lane)

/-- CLEAN (R277). A maintenance item with OP CLEAN is taken and queued at its slices. -/
def execClean (s : State) : Host.Outcome State Fault Refusal :=
  .next (s.onData fun d => d.mntTake 0)

/-- INV (R277). A maintenance item with OP INV is taken and queued at its slices. -/
def execInv (s : State) : Host.Outcome State Fault Refusal :=
  .next (s.onData fun d => d.mntTake 1)

/-- CLINV (R277). A maintenance item with OP CLINV is taken and queued at its slices. -/
def execClinv (s : State) : Host.Outcome State Fault Refusal :=
  .next (s.onData fun d => d.mntTake 2)

/-- RETIRE (R277). A set/way maintenance item with OP RETIRE is taken. -/
def execRetire (s : State) : Host.Outcome State Fault Refusal :=
  .next (s.onData fun d => d.mntTake 3)

/-- UNRETIRE (R277). A set/way maintenance item with OP UNRETIRE is taken. -/
def execUnretire (s : State) : Host.Outcome State Fault Refusal :=
  .next (s.onData fun d => d.mntTake 4)

/-- MAINTENANCE_STEP (R280). A priority-5 maintenance step acts on one way of its set. -/
def execMaintenanceStep (n : Fin 8) (s : State) : Host.Outcome State Fault Refusal :=
  .next (s.onData fun d => d.stepIf n 0)

/-- PLANISH_STEP (R268). The planish interval expires and a step recomputes the frame parity of one stale clean line. -/
def execPlanishStep (n : Fin 8) (s : State) : Host.Outcome State Fault Refusal :=
  .next (s.onData fun d => d.stepIf n 3)

/-- SCRUB_READ (R270). Patrol scrub reads the next codeword of a pseudo-channel and corrects or recovers it. -/
def execScrubRead (pc : Fin 32) (upset : BitVec 544) (s : State) : Host.Outcome State Fault Refusal :=
  .next (s.onData fun d => d.scrubRead pc upset)

/-- SCRUB_PERIOD_END (R270). A scrub period ends, an unfinished walk sets LATE and the row error table clears. -/
def execScrubPeriodEnd (s : State) : Host.Outcome State Fault Refusal :=
  .next (s.onData fun d => d.scrubPeriodEnd)

/-- ARM (R274). A write of 1 to STO_FLIP_HI.ARM arms the flip-mask. -/
def execArm (v : Word) (s : State) : Host.Outcome State Fault Refusal :=
  .next (s.onDM fun x => x.trigger Reg.stoFlipHi v 0xFFFFFFFF)

end Sys2Proof.Machine
end

