-- ==== Sys2Proof/Machine/CmdManagement.lean ====
section
/-!
DEFINITION. Meanings of the halyard chain, firmware update, time and Ethernet (R361 to R377).
-/

namespace Sys2Proof.Machine

/-- CHAIN_PORT_UP (R363). A halyard chain port receives 64 valid characters and comes up. -/
def execChainPortUp (down : Bool) (s : State) : Host.Outcome State Fault Refusal :=
  .next (s.onDM fun x => x.portUp down)

/-- CHAIN_PORT_DOWN (R363). A halyard chain port sees code violations or silence and goes down. -/
def execChainPortDown (down : Bool) (s : State) : Host.Outcome State Fault Refusal :=
  .next (s.onDM fun x => x.portDown down)

/-- ENUM (R365). An ENUM frame assigns the receiving unit an address and is passed on. -/
def execEnum (down : Bool) (f : List Byte) (s : State) : Host.Outcome State Fault Refusal :=
  .next (s.onDM fun x => DM.frameRow 1 x down f)

/-- ENUM_DONE (R365). An ENUM_DONE frame reports the last chain address to the head. -/
def execEnumDone (down : Bool) (f : List Byte) (s : State) : Host.Outcome State Fault Refusal :=
  .next (s.onDM fun x => DM.frameRow 2 x down f)

/-- TMP_FRAME (R366). A TMP frame on the chain is served by its destination or forwarded. -/
def execTmpFrame (down : Bool) (f : List Byte) (s : State) : Host.Outcome State Fault Refusal :=
  .next (s.onDM fun x => DM.frameRow 3 x down f)

/-- IMG_OFFER (R371). A neighbour's image offer is accepted as an update start or refused BUSY. -/
def execImgOffer (down : Bool) (f : List Byte) (s : State) : Host.Outcome State Fault Refusal :=
  .next (s.onDM fun x => DM.frameRow 4 x down f)

/-- IMG_REQ (R371). A neighbour's request for image bytes is answered with IMG_DATA. -/
def execImgReq (down : Bool) (f : List Byte) (s : State) : Host.Outcome State Fault Refusal :=
  .next (s.onDM fun x => DM.frameRow 5 x down f)

/-- IMG_DATA (R371). Image bytes from a neighbour are written to the crucible. -/
def execImgData (down : Bool) (f : List Byte) (s : State) : Host.Outcome State Fault Refusal :=
  .next (s.onDM fun x => DM.frameRow 6 x down f)

/-- IMG_RSP (R371). A neighbour's result of a chain image transfer is received. -/
def execImgRsp (down : Bool) (f : List Byte) (s : State) : Host.Outcome State Fault Refusal :=
  .next (s.onDM fun x => DM.frameRow 7 x down f)

/-- IMG_REQ_RESEND_TIMEOUT (R371). An IMG_REQ unanswered for 10 ms is resent, and aborted after 8 tries. -/
def execImgReqResendTimeout (down : Bool) (s : State) : Host.Outcome State Fault Refusal :=
  .next (s.onDM fun x => x.imgResend down)

/-- CRUCIBLE_LOCK_TIMEOUT (R375). No update data for 60 s releases the crucible lock and empties the crucible. -/
def execCrucibleLockTimeout (s : State) : Host.Outcome State Fault Refusal :=
  .next (s.onDM fun x => x.lockTimeout)

/-- SYNC (R362). An IEEE 1588 Sync message is timestamped and may lock or unlock the clock. -/
def execSync (ofs : BitVec 64) (ival : Nat) (s : State) : Host.Outcome State Fault Refusal :=
  .next (s.onData fun d => DM.syncRecv d ofs ival)

/-- SYNC_TIMEOUT (R362). No Sync arrives within three announced intervals and the clock enters holdover. -/
def execSyncTimeout (s : State) : Host.Outcome State Fault Refusal :=
  .next (s.onData fun d => DM.syncTimeout d)

/-- TRIAL_RECORD_TIMER (R373). Every 60 s of trial uptime TRIAL_SEC is recorded, and at 600 s the cluster restarts to roll back. -/
def execTrialRecordTimer (s : State) : Host.Outcome State Fault Refusal :=
  .next (s.onDM fun x => x.trialTimer)

/-- AUTO_CONFIRM_EXPIRY (R373). After 60 s of uptime with AUTO_CONFIRM set and no FATAL event the trial image is confirmed. -/
def execAutoConfirmExpiry (s : State) : Host.Outcome State Fault Refusal :=
  .next (s.onDM fun x => x.autoConfirm)

/-- ETHERNET_LINK_UP (R377). The management port's Ethernet link comes up, MGT_STAT.ETH_UP sets and management event 3 is raised. -/
def execEthernetLinkUp (s : State) : Host.Outcome State Fault Refusal :=
  .next (s.onDM fun x => x.ethSet true)

/-- ETHERNET_LINK_DOWN (R377). The management port's Ethernet link goes down, MGT_STAT.ETH_UP clears and management event 4 is raised. -/
def execEthernetLinkDown (s : State) : Host.Outcome State Fault Refusal :=
  .next (s.onDM fun x => x.ethSet false)

/-- FLASH_BLOCK_ERASED (R370). An erase of a 64 KiB crucible block completes, releasing UPD_DATA or IMG_DATA chunks waiting on it and the UPD_START answer for the first block. -/
def execFlashBlockErased (s : State) : Host.Outcome State Fault Refusal :=
  .next (s.onDM fun x => x.blockErased)

/-- FRAME_BUFFER_CREDIT (R363). A K28.6 received on a halyard chain port returns one frame-buffer credit to the sender. -/
def execFrameBufferCredit (down : Bool) (s : State) : Host.Outcome State Fault Refusal :=
  .next (s.onDM fun x => x.frameCredit down)

end Sys2Proof.Machine
end

