-- ==== Sys2Proof/Machine/CmdMessages.lean ====
section
/-!
DEFINITION. Meanings of the TMP messages (R357 to R359) and of the timers of subscriptions and relays.
-/

namespace Sys2Proof.Machine

/-- HELLO (R359). A TMP HELLO returns the boot ID, serial, versions, chain address and time flag. -/
def execHello (src : TmpSrc) (msg : List Byte) (s : State) : Host.Outcome State Fault Refusal :=
  .next (s.onDM fun x => DM.tmpRow 0x01 x src msg)

/-- TMP_REG_RD (R359). A TMP register read is performed as a management-cluster access. -/
def execTmpRegRd (src : TmpSrc) (msg : List Byte) (s : State) : Host.Outcome State Fault Refusal :=
  .next (s.onDM fun x => DM.tmpRow 0x02 x src msg)

/-- TMP_REG_WR (R359). A TMP register write is performed as a management-cluster access. -/
def execTmpRegWr (src : TmpSrc) (msg : List Byte) (s : State) : Host.Outcome State Fault Refusal :=
  .next (s.onDM fun x => DM.tmpRow 0x03 x src msg)

/-- MBX_RD (R359). A TMP mailbox read fills a mailbox and returns its data words. -/
def execMbxRd (src : TmpSrc) (msg : List Byte) (s : State) : Host.Outcome State Fault Refusal :=
  .next (s.onDM fun x => DM.tmpRow 0x04 x src msg)

/-- Q_SUB (R359). A TMP subscription to a management queue is set or cleared. -/
def execQSub (src : TmpSrc) (msg : List Byte) (s : State) : Host.Outcome State Fault Refusal :=
  .next (s.onDM fun x => DM.tmpRow 0x05 x src msg)

/-- TMP_Q_PUSH (R359). A TMP push lands words in a management queue. -/
def execTmpQPush (src : TmpSrc) (msg : List Byte) (s : State) : Host.Outcome State Fault Refusal :=
  .next (s.onDM fun x => DM.tmpRow 0x06 x src msg)

/-- EVT_SUB (R359). A TMP event subscription is set, renewed or cleared. -/
def execEvtSub (src : TmpSrc) (msg : List Byte) (s : State) : Host.Outcome State Fault Refusal :=
  .next (s.onDM fun x => DM.tmpRow 0x07 x src msg)

/-- LOG_RD (R359). A TMP log read returns bytes of the log ring. -/
def execLogRd (src : TmpSrc) (msg : List Byte) (s : State) : Host.Outcome State Fault Refusal :=
  .next (s.onDM fun x => DM.tmpRow 0x08 x src msg)

/-- TIME (R359). A TMP time request returns the IEEE 1588 time, flag and offset. -/
def execTime (src : TmpSrc) (msg : List Byte) (s : State) : Host.Outcome State Fault Refusal :=
  .next (s.onDM fun x => DM.tmpRow 0x09 x src msg)

/-- TMP_SNAP (R359). A TMP request triggers a counter snapshot and returns its sequence number. -/
def execTmpSnap (src : TmpSrc) (msg : List Byte) (s : State) : Host.Outcome State Fault Refusal :=
  .next (s.onDM fun x => DM.tmpRow 0x0A x src msg)

/-- UPD_START (R370). An update start takes the crucible lock and erases the crucible. -/
def execUpdStart (src : TmpSrc) (msg : List Byte) (s : State) : Host.Outcome State Fault Refusal :=
  .next (s.onDM fun x => DM.tmpRow 0x10 x src msg)

/-- UPD_DATA (R370). An update chunk is written to the crucible at its offset. -/
def execUpdData (src : TmpSrc) (msg : List Byte) (s : State) : Host.Outcome State Fault Refusal :=
  .next (s.onDM fun x => DM.tmpRow 0x11 x src msg)

/-- UPD_END (R370). The crucible image is verified and the lock released. -/
def execUpdEnd (src : TmpSrc) (msg : List Byte) (s : State) : Host.Outcome State Fault Refusal :=
  .next (s.onDM fun x => DM.tmpRow 0x12 x src msg)

/-- UPD_ACTIVATE (R370). A verified image is recorded for activation at the next start of the management cluster. -/
def execUpdActivate (src : TmpSrc) (msg : List Byte) (s : State) : Host.Outcome State Fault Refusal :=
  .next (s.onDM fun x => DM.tmpRow 0x13 x src msg)

/-- UPD_CONFIRM (R373). A trial image is confirmed, the anti-rollback count raised and the older settings slot released. -/
def execUpdConfirm (src : TmpSrc) (msg : List Byte) (s : State) : Host.Outcome State Fault Refusal :=
  .next (s.onDM fun x => DM.tmpRow 0x14 x src msg)

/-- UPD_ABORT (R370). An update is aborted, the crucible emptied and the lock released. -/
def execUpdAbort (src : TmpSrc) (msg : List Byte) (s : State) : Host.Outcome State Fault Refusal :=
  .next (s.onDM fun x => DM.tmpRow 0x15 x src msg)

/-- UPD_STAT (R359). A TMP request returns the newest activation record. -/
def execUpdStat (src : TmpSrc) (msg : List Byte) (s : State) : Host.Outcome State Fault Refusal :=
  .next (s.onDM fun x => DM.tmpRow 0x16 x src msg)

/-- RIG_WRITE (R359). A TMP write stores bytes into a rig area not in use. -/
def execRigWrite (src : TmpSrc) (msg : List Byte) (s : State) : Host.Outcome State Fault Refusal :=
  .next (s.onDM fun x => DM.tmpRow 0x18 x src msg)

/-- RIG_ERASE (R359). A TMP request erases a rig area not in use. -/
def execRigErase (src : TmpSrc) (msg : List Byte) (s : State) : Host.Outcome State Fault Refusal :=
  .next (s.onDM fun x => DM.tmpRow 0x19 x src msg)

/-- SET_RD (R359). A TMP request reads a tagged value of the settings store. -/
def execSetRd (src : TmpSrc) (msg : List Byte) (s : State) : Host.Outcome State Fault Refusal :=
  .next (s.onDM fun x => DM.tmpRow 0x1A x src msg)

/-- SET_WR (R374). A TMP request writes a tagged value to the settings store. -/
def execSetWr (src : TmpSrc) (msg : List Byte) (s : State) : Host.Outcome State Fault Refusal :=
  .next (s.onDM fun x => DM.tmpRow 0x1B x src msg)

/-- RESTART_DEVICE (R415). A TMP RESTART of scope 0 is a warm reset of the device, flushing first after RDY. -/
def execRestartDevice (src : TmpSrc) (msg : List Byte) (s : State) : Host.Outcome State Fault Refusal :=
  .next (s.onDM fun x => DM.restartRow false x src msg)

/-- RESTART_MANAGEMENT_CLUSTER (R414). A TMP RESTART of scope 1 restarts D1 alone. -/
def execRestartManagementCluster (src : TmpSrc) (msg : List Byte) (s : State) : Host.Outcome State Fault Refusal :=
  .next (s.onDM fun x => DM.restartRow true x src msg)

/-- EVT_SUB_LAPSE (R359). An event subscription not renewed for 60 s lapses. -/
def execEvtSubLapse (i : BitVec 6) (s : State) : Host.Outcome State Fault Refusal :=
  .next (s.onDM fun x => x.subLapse i.toNat)

/-- RELAY_EXPIRY (R366). A gateway relay unanswered for 100 ms expires and the host is answered UNREACH. -/
def execRelayExpiry (i : BitVec 6) (s : State) : Host.Outcome State Fault Refusal :=
  .next (s.onDM fun x => x.relayExpiry i.toNat)

end Sys2Proof.Machine
end

