-- ==== Sys2Proof/Machine/CmdPairs.lean ====
section
/-!
DEFINITION. Meanings of what concerns a pair: the shroud link, the witness, mirroring, takeover, slice faults (R379 to R398).
-/

namespace Sys2Proof.Machine

/-- SHROUD_HELLO (R382). A HELLO from the partner is compared and moves the pair state. -/
def execShroudHello (member : Bool) (pstate : BitVec 3) (pairId sum : Word) (s : State) : Host.Outcome State Fault Refusal :=
  .next (s.onData fun d => d.helloRecv member pstate pairId sum)

/-- HB (R389). A heartbeat from the partner arrives and updates PSTATE, PFAIL, MSYNC and BUDGET. -/
def execHb (_hbseq : Byte) (pstate : BitVec 3) (pfail msync : Bool) (budget : Word) (s : State) : Host.Outcome State Fault Refusal :=
  .next (s.onData fun d => d.hbRecv pstate pfail msync budget)

/-- HEARTBEAT_MISSED (R389). No heartbeat arrives within 50 µs; the third miss declares the partner failed. -/
def execHeartbeatMissed (s : State) : Host.Outcome State Fault Refusal :=
  .next (s.onData fun d => d.hbMissed)

/-- CENSUS_LIMIT_EXPIRY (R396). The census limit expires, unanswered ports are isolated and the census closes. -/
def execCensusLimitExpiry (s : State) : Host.Outcome State Fault Refusal :=
  .next (s.onData fun d => d.censusLimit)

/-- CENSUS_CLOSE_WALK_STEP (R396). A priority-5 step clears CNS in a backstop set after census close. -/
def execCensusCloseWalkStep (n : Fin 8) (s : State) : Host.Outcome State Fault Refusal :=
  .next (s.onData fun d => d.stepIf n 5)

/-- FAILOVER_RESUME (R391). After census and shadow writes, the taken-over buckets are rewritten and held REQs released. -/
def execFailoverResume (s : State) : Host.Outcome State Fault Refusal :=
  .next (s.onData fun d => d.foResumeDue)

/-- SALVAGE_STEP (R398). A salvage step writes a faulty slice's dirty data or write-buffer entries to backing. -/
def execSalvageStep (n : Fin 8) (s : State) : Host.Outcome State Fault Refusal :=
  .next (s.onData fun d => d.salvStep n)

/-- SLICE_FAULT_RESUME (R397). After census and salvage, FENCED clears on the remapped buckets and held REQs are released. -/
def execSliceFaultResume (n : Fin 8) (s : State) : Host.Outcome State Fault Refusal :=
  .next (s.onData fun d => d.slcResumeDue n)

/-- WITNESS_WRITE (R383). Every 50 µs the member writes its witness granule. -/
def execWitnessWrite (s : State) : Host.Outcome State Fault Refusal :=
  .next (s.onData fun d => d.witWriteDue)

/-- WITNESS_WRITE_TIMEOUT (R382). A witness write unacknowledged in 100 µs while heartbeats are missed moves the member to YIELDED. -/
def execWitnessWriteTimeout (s : State) : Host.Outcome State Fault Refusal :=
  .next (s.onData fun d => d.witWriteTimeout)

/-- WITNESS_READ_COMPLETE (R384). A read of the partner's witness completes and may decide dead, alive or unknown. -/
def execWitnessReadComplete (ok : Bool) (wcnt : Dword) (pstate : Byte) (pairId : Word) (s : State) : Host.Outcome State Fault Refusal :=
  .next (s.onData fun d => d.witReadDone { ok := ok, wcnt := wcnt, pstate := pstate, pairId := pairId })

/-- JOINW_EXPIRY (R382). WAIT lasts JOINW and the member takes over or detaches by the witness decision. -/
def execJoinwExpiry (s : State) : Host.Outcome State Fault Refusal :=
  .next (s.onData fun d => d.joinwExpiry)

/-- SHROUD_RETRY (R379). A DOWN shroud link returns to DETECT by itself after 1 ms. -/
def execShroudRetry (s : State) : Host.Outcome State Fault Refusal :=
  .next (s.onData fun d => d.shroudRetry)

/-- MWR (R386). A mirror write is stored in its mirror set or answered MFULL. -/
def execMwr (ga : BitVec 36) (poison : Bool) (dat : Gran) (s : State) : Host.Outcome State Fault Refusal :=
  .next (s.onData fun d => d.mwrRecv ga.toNat poison dat)

/-- MCLR (R386). A mirror clear invalidates the matching mirror entry. -/
def execMclr (ga : BitVec 36) (s : State) : Host.Outcome State Fault Refusal :=
  .next (s.onData fun d => d.mclrRecv ga.toNat)

/-- SWR (R386). A shadow write replaces the shadow entry of a partner's write-buffer entry. -/
def execSwr (ga : BitVec 36) (poison : Bool) (src : Fin 8) (entry : BitVec 6) (seq : BitVec 6) (be : ByteEn) (dat : Gran) (s : State) : Host.Outcome State Fault Refusal :=
  .next (s.onData fun d => d.swrRecv src entry.toNat ga.toNat be dat poison seq)

/-- SCLR (R386). A shadow clear invalidates the matching shadow entry. -/
def execSclr (src : Fin 8) (entry : BitVec 6) (s : State) : Host.Outcome State Fault Refusal :=
  .next (s.onData fun d => d.sclrRecv src entry.toNat)

/-- MRD (R388). A mirror read request is answered with MDAT after every earlier MIR item. -/
def execMrd (ga : BitVec 36) (tag : Byte) (s : State) : Host.Outcome State Fault Refusal :=
  .next (s.onData fun d => d.mrdRecv ga.toNat tag)

/-- MDAT (R388). Mirror read data arrives and recovers an uncorrectable dirty granule. -/
def execMdat (ga : BitVec 36) (poison hit : Bool) (tag : Byte) (dat : Gran) (s : State) : Host.Outcome State Fault Refusal :=
  .next (s.onData fun d => d.mdatRecv ga.toNat poison hit tag dat)

/-- MFULL (R386). The partner's full-set answer makes the sender admit a clean step for the sector. -/
def execMfull (ga : BitVec 36) (s : State) : Host.Outcome State Fault Refusal :=
  .next (s.onData fun d => d.mfullRecv ga.toNat)

/-- MIRROR_READ_TIMEOUT (R388). No MDAT arrives in 20 µs and the granule is poisoned. -/
def execMirrorReadTimeout (tag : Byte) (s : State) : Host.Outcome State Fault Refusal :=
  .next (s.onData fun d => d.mirrorReadTimeout tag)

/-- MIRROR_DRAIN_STEP (R392). A priority-5 step issues the valid mirror entries of one set as backing writes. -/
def execMirrorDrainStep (n : Fin 8) (s : State) : Host.Outcome State Fault Refusal :=
  .next (s.onData fun d => d.stepIf n 6)

/-- MIRROR_RESYNC_STEP (R386). A priority-5 step mirrors the durable dirty sectors of a dirty-map set after re-pairing. -/
def execMirrorResyncStep (n : Fin 8) (s : State) : Host.Outcome State Fault Refusal :=
  .next (s.onData fun d => d.stepIf n 7)

/-- DXF (R394). A transferred directory entry is installed and charged by the receiver. -/
def execDxf (e : Dword) (s : State) : Host.Outcome State Fault Refusal :=
  .next (s.onData fun d => d.dxfRecv e)

/-- DXF_END (R394). The end of a directory transfer is checked against the count received. -/
def execDxfEnd (count : Word) (s : State) : Host.Outcome State Fault Refusal :=
  .next (s.onData fun d => d.dxfEndRecv count.toNat)

/-- HEARTBEAT_SEND (R389). Every 50 µs each paired member sends HB with its next HBSEQ, PSTATE, PFAIL, MSYNC and BUDGET. -/
def execHeartbeatSend (s : State) : Host.Outcome State Fault Refusal :=
  .next (s.onData fun d => d.hbSend)

/-- WAIT_WITNESS_READ (R384). 100 µs before JOINW in state WAIT the member issues the first read of its partner's witness. -/
def execWaitWitnessRead (s : State) : Host.Outcome State Fault Refusal :=
  .next (s.onData fun d => d.waitWitRead)

end Sys2Proof.Machine
end

