-- ==== Sys2Proof/Machine/CmdPins.lean ====
section
/-!
DEFINITION. Meanings of the test access port (R403).
-/

namespace Sys2Proof.Machine

/-- TCK (R403). A TCK edge advances the IEEE 1149.1 TAP controller, shifting TDI, TMS and TDO and applying the instruction. -/
def execTck (rise tms tdi : Bool) (s : State) : Host.Outcome State Fault Refusal :=
  let r := tapEdge s.d s.tap rise tms tdi
  .next { s with d := r.1, tap := r.2 }

/-- TRST_N (R403). TRST_N held low for at least 100 ns resets the TAP controller. -/
def execTrstN (s : State) : Host.Outcome State Fault Refusal :=
  .next { s with tap := tapReset s.tap }

end Sys2Proof.Machine
end

