-- ==== Sys2Proof/Machine/CmdPower.lean ====
section
/-!
DEFINITION. Meanings of power, clocks, resets and start-up (R406 to R422, R444, R445).
-/

namespace Sys2Proof.Machine

/-- UNREEF (R409). PWR_DOM_CTL with OP UNREEF wakes the named domain. -/
def execUnreef (dom : BitVec 5) (s : State) : Host.Outcome State Fault Refusal :=
  .next (s.onDM fun x => x.trigger Reg.pwrDomCtl ((dom.setWidth 32) ||| 0x80) 0xFF)

/-- REEF (R407). PWR_DOM_CTL with OP REEF reefs the named domain when its conditions hold. -/
def execReef (dom : BitVec 5) (s : State) : Host.Outcome State Fault Refusal :=
  .next (s.onDM fun x => x.trigger Reg.pwrDomCtl ((dom.setWidth 32) ||| 0xA0) 0xFF)

/-- RESET (R416). PWR_DOM_CTL with OP RESET resets the named domain unless refused. -/
def execReset (dom : BitVec 5) (s : State) : Host.Outcome State Fault Refusal :=
  .next (s.onDM fun x => x.trigger Reg.pwrDomCtl ((dom.setWidth 32) ||| 0xC0) 0xFF)

/-- KICK (R420). A write of PWR_WDT.KICK restarts the D1 watchdog count. -/
def execKick (s : State) : Host.Outcome State Fault Refusal :=
  .next (s.onDM fun x => x.trigger Reg.pwrWdt 0x10000 0x10000)

/-- POWER_GOOD (R417). PWRGD passes its filter high and start-up runs its steps, loading firmware, rig and store. -/
def execPowerGood (e : StartEnv) (s : State) : Host.Outcome State Fault Refusal :=
  .next (s.onDM fun x => x.powerGood e)

/-- STRAP_SAMPLE (R420). A strap sample is taken 100, 200 or 300 µs after PG and the majority stands. -/
def execStrapSample (k : Fin 3) (mgtMode chainHead scanEn : Bool) (s : State) : Host.Outcome State Fault Refusal :=
  .next (s.onData fun d => DM.strapSample d k mgtMode chainHead scanEn)

/-- RDY (R417). Start-up completes, slices admit and port state machines leave DISABLED. -/
def execRdy (s : State) : Host.Outcome State Fault Refusal :=
  .next (s.onData fun d => DM.rdy d)

/-- PWRGD_LOW (R414). PWRGD passes its filter low and causes a cold reset. -/
def execPwrgdLow (s : State) : Host.Outcome State Fault Refusal :=
  .next (s.onDM fun x => x.pwrgdLow)

/-- RESET_N (R415). RESET_N passes its filter low and a warm reset is recognised, flushing first after RDY. -/
def execResetN (s : State) : Host.Outcome State Fault Refusal :=
  .next (s.onData fun d => DM.resetN d)

/-- WARM_RESET_EFFECT (R415). The warm reset takes effect 10 µs after Done and PFD is released. -/
def execWarmResetEffect (e : StartEnv) (s : State) : Host.Outcome State Fault Refusal :=
  .next (s.onDM fun x => x.warmEffect e)

/-- DOMAIN_IDLE_REEF (R407). A domain's conditions have held for its IDLE time and the power manager reefs it. -/
def execDomainIdleReef (dom : BitVec 5) (s : State) : Host.Outcome State Fault Refusal :=
  .next (s.onDM fun x => x.onDom dom fun x i => { x with d := x.d.domIdleReef x.mgtIdle i })

/-- DOMAIN_WAKE (R409). A wake source arrives and a reefed domain begins to unreef. -/
def execDomainWake (dom : BitVec 5) (s : State) : Host.Outcome State Fault Refusal :=
  .next (s.onDM fun x => x.onDom dom fun x i => { x with d := x.d.domWakeSrc i })

/-- DOMAIN_WAKE_COMPLETE (R409). A waking domain and its dependencies are up and held items proceed. -/
def execDomainWakeComplete (dom : BitVec 5) (s : State) : Host.Outcome State Fault Refusal :=
  .next (s.onDM fun x => x.onDom dom fun x i => { x with d := x.d.domWoken i })

/-- DOMAIN_WAKE_TIMEOUT (R410). A domain not up 1 ms after its wake source stays reefed and its resource fails. -/
def execDomainWakeTimeout (dom : BitVec 5) (s : State) : Host.Outcome State Fault Refusal :=
  .next (s.onDM fun x => x.onDom dom fun x i => { x with d := x.d.domWakeTimeout i })

/-- PLL_LOCK_FAILURE (R412). A PLL has not locked after three tries and its domain's resource fails. -/
def execPllLockFailure (dom : BitVec 5) (s : State) : Host.Outcome State Fault Refusal :=
  .next (s.onDM fun x => x.onDom dom fun x i => { x with d := x.d.pllFail i })

/-- REFCLK_FAILURE (R413). A reference clock is absent or out of range for 10 µs and every link on it goes DOWN. -/
def execRefclkFailure (k : Fin 4) (s : State) : Host.Outcome State Fault Refusal :=
  .next (s.onData fun d => d.refFail k)

/-- CRYSTAL_FAILURE (R413). The crystal differs from the 32.768 kHz oscillator by over 2 % for 1 ms and all domains but D0 are held in reset. -/
def execCrystalFailure (s : State) : Host.Outcome State Fault Refusal :=
  .next (s.onDM fun x => x.crystalFail)

/-- WATCHDOG_EXPIRY (R420). The D1 watchdog expires and D1 alone restarts. -/
def execWatchdogExpiry (s : State) : Host.Outcome State Fault Refusal :=
  .next (s.onDM fun x => x.watchdog)

/-- D1_WAKE_TIMER (R409). The PWR_WDT.WAKE timer expires while D1 is reefed and wakes D1. -/
def execD1WakeTimer (s : State) : Host.Outcome State Fault Refusal :=
  .next (s.onData fun d => DM.d1Wake d)

/-- STACK_TEMPERATURE (R444). The stack temperature crosses 85 °C or 105 °C and the refresh rate changes. -/
def execStackTemperature (t : Byte) (s : State) : Host.Outcome State Fault Refusal :=
  .next (s.onData fun d => d.stackTemp t)

/-- THERMTRIP (R445). A die passes its trip temperature and THERMTRIP_N falls. -/
def execThermtrip (s : State) : Host.Outcome State Fault Refusal :=
  .next (s.onData fun d => d.thermTrip)

/-- DOMAIN_REEF_COMPLETE (R410). A reef ends at most 5 µs after its decision, and any wake source that arrived meanwhile is then acted on. -/
def execDomainReefComplete (dom : BitVec 5) (s : State) : Host.Outcome State Fault Refusal :=
  .next (s.onDM fun x => x.onDom dom fun x i => { x with d := x.d.domReefed i })

end Sys2Proof.Machine
end

