-- ==== Sys2Proof/Machine/CmdQueues.lean ====
section
/-!
DEFINITION. Meanings of the pushes, pops and timers of the hardware queues (R295 to R308).
-/

namespace Sys2Proof.Machine

/-- Q_PUSH (R296). An agent pushes one word into a queue it owns by MGQ and receives Q_ACK. The
word's upset strikes it in the pool (R292). -/
def execQPush (p : Fin 16) (tag : Byte) (q : BitVec 14) (eop poison : Bool) (w : PoolWord 64) (s : State) : Host.Outcome State Fault Refusal :=
  .next (s.onData fun d => d.mgqPut p (.push tag q eop poison w.bits (d.perm p) w.upset) false)

/-- Q_POP (R298). An agent pops one word from a queue it owns by MGQ and receives Q_WORD. -/
def execQPop (p : Fin 16) (tag : Byte) (q : BitVec 14) (upset : BitVec 67) (s : State) : Host.Outcome State Fault Refusal :=
  .next (s.onData fun d => d.mgqPut p (.pop tag q upset (d.perm p)) false)

/-- QUE_PUSH_HI (R297). A management-cluster write of PUSH_HI pushes one word with the latched data and flags. -/
def execQuePushHi (q : BitVec 14) (v : PoolWord 32) (s : State) : Host.Outcome State Fault Refusal :=
  .next (s.onDM fun x => x.trigger (Reg.quedPushHi q.toNat) v.bits 0xFFFFFFFF v.upset)

/-- QUE_POP_LO (R297). A management-cluster read of POP_LO of 32 bits or wider pops a word and latches its upper half and flags. -/
def execQuePopLo (q : BitVec 14) (upset : BitVec 67) (s : State) : Host.Outcome State Fault Refusal :=
  .next (s.onDM fun x => (x.mgtRead (Reg.quedPopLo q.toNat) .w32 upset).1)

/-- FLUSH (R305). A write of 1 to QUE_Dq_CTL.FLUSH discards every word of the queue and may enter RESYNC. -/
def execFlush (q : BitVec 14) (s : State) : Host.Outcome State Fault Refusal :=
  .next (s.onDM fun x => x.trigger (Reg.quedCtl q.toNat) 1 1)

/-- QUEUE_STALE_TIMEOUT (R307). A queue's stale timer expires, sets STALE and raises an event. -/
def execQueueStaleTimeout (q : BitVec 14) (s : State) : Host.Outcome State Fault Refusal :=
  .next (s.onData fun d => d.qStale q.toNat)

/-- GAP_MARKER (R302). A GAP marker is written when the queue has room, no item is open and GAP_PEND is not 0. -/
def execGapMarker (q : BitVec 14) (s : State) : Host.Outcome State Fault Refusal :=
  .next (s.onData fun d => d.qGap q.toNat)

end Sys2Proof.Machine
end

