-- ==== Sys2Proof/Machine/CmdRegisters.lean ====
section
/-!
DEFINITION. Meanings of register accesses and mailboxes (R211, R335 to R350).
-/

namespace Sys2Proof.Machine

/-- REG_RD (R211). An agent's register read by MGQ is performed and answered with REG_RSP. -/
def execRegRd (p : Fin 16) (tag : Byte) (a : Word) (w64 : Bool) (s : State) : Host.Outcome State Fault Refusal :=
  .next (s.onData fun d => d.mgqPut p (d.regRdItem p tag a w64) false)

/-- REG_WR (R211). An agent's register write by MGQ is performed or posted and answered with REG_RSP. -/
def execRegWr (p : Fin 16) (tag : Byte) (a : Word) (w64 : Bool) (be : Byte) (w : Dword) (s : State) : Host.Outcome State Fault Refusal :=
  .next (s.onData fun d => d.mgqPut p (d.regWrItem p tag a w64 be w) false)

/-- REGISTER_WRITE (R338). A write to a register with no behaviour of its own updates its fields by type and byte enables. -/
def execRegisterWrite (r : Requester) (a : Word) (width : AccWidth) (be : Byte) (w : Dword) (s : State) : Host.Outcome State Fault Refusal :=
  .next (s.onDM fun x => x.accWrite r a.toNat width be w)

/-- RC_FIELD_READ (R9). A read of 32 bits or wider of a register holding an RC field returns it and clears or resets it. -/
def execRcFieldRead (r : Requester) (a : Word) (w64 : Bool) (s : State) : Host.Outcome State Fault Refusal :=
  .next (s.onDM fun x => x.accRead r a.toNat (if w64 then .w64 else .w32))

/-- POSTED_WRITE_EFFECT (R341). A posted far write takes effect at its target and BUSY clears. -/
def execPostedWriteEffect (r : Requester) (s : State) : Host.Outcome State Fault Refusal :=
  .next (s.onDM fun x => x.postedRun r)

/-- FAR_ACCESS_TIMEOUT (R343). A far access not completed in 2 µs is abandoned with ACC_ERR cause 4: the oldest posted write, or an
access that stalls its requester. -/
def execFarAccessTimeout (r : FarLoss) (s : State) : Host.Outcome State Fault Refusal :=
  .next (s.onDM fun x => match r.lost with | none => x.postedTimeout r.who | some a => x.farLost r.who a)

/-- MBX_SEL (R348). A write of MBXm_SEL starts a mailbox fill of the selected object. -/
def execMbxSel (m : Fin 8) (r : Requester) (v : Word) (s : State) : Host.Outcome State Fault Refusal :=
  .next (s.onDM fun x => x.accWrite r (Reg.mbxSel m.val) .w32 0x0F (v.setWidth 64))

/-- MBX_FILL_COMPLETE (R348). A mailbox fill completes, PEND clears and VALID sets. -/
def execMbxFillComplete (m : Fin 8) (s : State) : Host.Outcome State Fault Refusal :=
  .next (s.onDM fun x => x.mbxFill m)

/-- MBX_ACK (R349). A write of MBXm_ACK clears VALID. -/
def execMbxAck (m : Fin 8) (r : Requester) (s : State) : Host.Outcome State Fault Refusal :=
  .next (s.onDM fun x => x.accWrite r (Reg.mbxAck m.val) .w32 0x0F 1)

/-- MBX_DATA_READ (R349). A read of a mailbox data word while PEND is 1 returns the previous fill and sets EARLY. -/
def execMbxDataRead (m : Fin 8) (r : Requester) (k : Fin 12) (s : State) : Host.Outcome State Fault Refusal :=
  .next (s.onDM fun x => x.accRead r (Reg.mbxD m.val k.val) .w32)

end Sys2Proof.Machine
end

