-- ==== Sys2Proof/Machine/CmdRequests.lean ====
section
/-!
DEFINITION. Meanings of the requests of an agent (R26): each is taken whole at its port.
-/

namespace Sys2Proof.Machine

/-- RD_SH (R26). An agent's read-for-shared request is taken whole at its agent port, checked, and passed to its home slice or held. -/
def execRdSh (p : Fin 16) (g : BitVec 40) (s : State) : Host.Outcome State Fault Refusal :=
  .next (s.onData fun d => d.reqItem p g false (Data.reqOf p opRdSh g))

/-- RD_OWN (R26). An agent's read-for-exclusive request is taken whole at its agent port, checked, and passed to its home slice or held. -/
def execRdOwn (p : Fin 16) (g : BitVec 40) (s : State) : Host.Outcome State Fault Refusal :=
  .next (s.onData fun d => d.reqItem p g false (Data.reqOf p opRdOwn g))

/-- UPGRADE (R26). An agent's request for exclusive right to a held S or O copy is taken whole at its agent port and forwarded. -/
def execUpgrade (p : Fin 16) (g : BitVec 40) (s : State) : Host.Outcome State Fault Refusal :=
  .next (s.onData fun d => d.reqItem p g false (Data.reqOf p opUpgrade g))

/-- WR (R26). An agent's write of 1 to 64 bytes, with its DAT_WR data, is taken whole at the port and forwarded to the home slice. -/
def execWr (p : Fin 16) (g : BitVec 40) (wt bef : Bool) (be : ByteEn) (dat : Gran) (s : State) : Host.Outcome State Fault Refusal :=
  .next (s.onData fun d => d.reqItem p g bef { Data.reqOf p opWr g with wt := wt, be := if bef then be else beAll, data := dat })

/-- EVICT (R26). An agent's drop of a clean copy is taken whole at the port and forwarded to the home slice. -/
def execEvict (p : Fin 16) (g : BitVec 40) (s : State) : Host.Outcome State Fault Refusal :=
  .next (s.onData fun d => d.reqItem p g false (Data.reqOf p opEvict g))

/-- WB (R26). An agent's write-back of a dirty granule, with its DAT_WB data, is taken on its WB channel and forwarded to the home slice. -/
def execWb (p : Fin 16) (g : BitVec 40) (ch : Fin 8) (dat : Gran) (s : State) : Host.Outcome State Fault Refusal :=
  .next (s.onData fun d => d.reqItem p g false { Data.reqOf p opWb g with be := beAll, data := dat, ch := ch })

end Sys2Proof.Machine
end

