-- ==== Sys2Proof/Machine/CmdService.lean ====
section
/-!
DEFINITION. Meanings of the service controls (R394, R400 to R402, R365).
-/

namespace Sys2Proof.Machine

/-- DRAIN (R400). TOP_SLC_CTL with OP DRAIN takes a slice out of service. -/
def execDrain (n : Fin 8) (s : State) : Host.Outcome State Fault Refusal :=
  .next (s.onDM fun x => x.trigger Reg.topSlcCtl ((BitVec.ofNat 32 n.val) ||| 0x10) 0x1F)

/-- RETURN (R400). TOP_SLC_CTL with OP RETURN returns an assayed slice to service. -/
def execReturnSlc (n : Fin 8) (s : State) : Host.Outcome State Fault Refusal :=
  .next (s.onDM fun x => x.trigger Reg.topSlcCtl ((BitVec.ofNat 32 n.val) ||| 0x18) 0x1F)

/-- ARTS_GO (R401). A write of TOP_ARTS.GO removes an isolated agent from the directory and clears its isolation. -/
def execArtsGo (p : Fin 16) (s : State) : Host.Outcome State Fault Refusal :=
  .next (s.onDM fun x => x.trigger Reg.topArts ((BitVec.ofNat 32 p.val) ||| 0x10) 0x1F)

/-- ASSAY (R400). A write of TST_ASSAY_CTL.GO starts the assay of an out-of-service slice. -/
def execAssay (n : Fin 8) (s : State) : Host.Outcome State Fault Refusal :=
  .next (s.onDM fun x => x.trigger Reg.tstAssayCtl ((BitVec.ofNat 32 n.val) ||| 0x8) 0xF)

/-- ASSAY_COMPLETE (R400). An assay ends and reports PASS or FAIL. -/
def execAssayComplete (struct : BitVec 3) (s : State) : Host.Outcome State Fault Refusal :=
  .next (s.onData fun d => d.assayDone struct)

/-- BKP_RETURN (R402). A write of BKPn_CTL.RETURN reruns the link step on a failed backing port. -/
def execBkpReturn (b : Fin 4) (s : State) : Host.Outcome State Fault Refusal :=
  .next (s.onDM fun x => x.trigger (Reg.bkpCtl b.val) 1 1)

/-- BKP_RETURN_COMPLETE (R402). A returning backing port reaches READY or FAILED. -/
def execBkpReturnComplete (b : Fin 4) (e : PortEnv) (s : State) : Host.Outcome State Fault Refusal :=
  .next (s.onData fun d => d.bkpReturned b e)

/-- BKP_FAIL (R402). A write of BKPn_CTL.FAIL fails the backing port. -/
def execBkpFail (b : Fin 4) (s : State) : Host.Outcome State Fault Refusal :=
  .next (s.onDM fun x => x.trigger (Reg.bkpCtl b.val) 2 2)

/-- HANDOVER (R394). A write of SHD_CTL.HANDOVER starts handing this device's half to its partner. -/
def execHandover (s : State) : Host.Outcome State Fault Refusal :=
  .next (s.onDM fun x => x.trigger Reg.shdCtl 1 1)

/-- HANDBACK (R394). A write of SHD_CTL.HANDBACK starts handing the partner's half back. -/
def execHandback (s : State) : Host.Outcome State Fault Refusal :=
  .next (s.onDM fun x => x.trigger Reg.shdCtl 2 2)

/-- HAL_CTL_ENUM (R365). A write of HAL_CTL.ENUM on the chain head sends ENUM downstream. -/
def execHalCtlEnum (s : State) : Host.Outcome State Fault Refusal :=
  .next (s.onDM fun x => x.trigger Reg.halCtl 1 1)

end Sys2Proof.Machine
end

