-- ==== Sys2Proof/Machine/CmdSlices.lean ====
section
/-!
DEFINITION. Meanings of what happens at a slice: passes, returns, timers, the write buffer and the prefetcher.
-/

namespace Sys2Proof.Machine

/-- PASS_ADMISSION (R92). A slice admits the waiting pass of highest priority and runs it through stages S1 to S16. -/
def execPassAdmission (n : Fin 8) (u : Upset) (s : State) : Host.Outcome State Fault Refusal :=
  .next (s.onData fun d => d.admitPass n u)

/-- WAIT_LIST_READMISSION (R95). A pass waiting for a miss-tracker entry, write-buffer space, ledger room or credit is readmitted at priority 3 when the resource frees. -/
def execWaitListReadmission (n : Fin 8) (s : State) : Host.Outcome State Fault Refusal :=
  .next (s.onData fun d => d.waitReadmit n)

/-- RETRY_REENTRY (R153). The oldest REQ of a directory set's retry queue whose blocking condition has cleared re-enters at priority 3. -/
def execRetryReentry (n : Fin 8) (dset : BitVec 14) (s : State) : Host.Outcome State Fault Refusal :=
  .next (s.onData fun d => d.retryReenter n dset.toNat)

/-- FILL (R100). Backing data for a miss-tracker entry arrives, is merged, written to store or side buffer, and the waiters are readmitted. -/
def execFill (n : Fin 8) (mt : BitVec 6) (d0 d1 : Gran) (p0 p1 : Bool) (s : State) : Host.Outcome State Fault Refusal :=
  .next (s.onData fun d => d.fillArrive n mt.toNat ({ d0 := d0, d1 := d1, p0 := p0, p1 := p1 }))

/-- STORE_READ_RETURN (R263). The store controller returns a codeword read, decoded, corrected or recovered, to its slice. -/
def execStoreReadReturn (n : Fin 8) (s : State) : Host.Outcome State Fault Refusal :=
  .next (s.onData fun d => d.storeReturn n)

/-- BINV (R138). A back-invalidation pass applies BINV through the protocol table to a pinned spill-buffer entry. -/
def execBinv (n : Fin 8) (s : State) : Host.Outcome State Fault Refusal :=
  .next (s.onData fun d => d.binvRun n)

/-- DIRECTORY_FETCH_RETURN (R136). A backstop set read returns and a matching entry moves to the pinned on-die way. -/
def execDirectoryFetchReturn (n : Fin 8) (s : State) : Host.Outcome State Fault Refusal :=
  .next (s.onData fun d => d.fetchReturn n)

/-- SPILL_BACKSTOP_WRITE (R137). The spill buffer writes an entry into its backstop set by read-modify-write and sets BOCC. -/
def execSpillBackstopWrite (n : Fin 8) (s : State) : Host.Outcome State Fault Refusal :=
  .next (s.onData fun d => d.spillWrite n)

/-- HOLD_EXPIRY (R154). A hold record expires and REQs blocked by it re-enter in the next cycle. -/
def execHoldExpiry (n : Fin 8) (s : State) : Host.Outcome State Fault Refusal :=
  .next (s.onData fun d => d.holdExpire n)

/-- SNOOP_ANSWER_TIMEOUT (R172). The snoop-answer timer of an HTE expires and every agent still in PENDING, and WBSRC, is isolated. -/
def execSnoopAnswerTimeout (n : Fin 8) (ga : BitVec 36) (s : State) : Host.Outcome State Fault Refusal :=
  .next (s.onData fun d => d.snoopTimeout n ga.toNat)

/-- OWED_ANSWER_TIMEOUT (R172). An owed marker is not absorbed in time, its agent is isolated and the marker freed. -/
def execOwedAnswerTimeout (n : Fin 8) (ga : BitVec 36) (p : Fin 16) (s : State) : Host.Outcome State Fault Refusal :=
  .next (s.onData fun d => d.owedTimeout n ga.toNat p)

/-- BACKING_READ_TIMEOUT (R172). A backing read expires and is treated as failed. -/
def execBackingReadTimeout (n : Fin 8) (side : Bool) (i : BitVec 6) (s : State) : Host.Outcome State Fault Refusal :=
  .next (s.onData fun d => d.readTimeout n side i.toNat)

/-- BACKING_WRITE_TIMEOUT (R172). An unacknowledged backing write is reissued at first expiry and fails its port at the second. -/
def execBackingWriteTimeout (n : Fin 8) (i : BitVec 6) (s : State) : Host.Outcome State Fault Refusal :=
  .next (s.onData fun d => d.writeTimeout n i.toNat)

/-- STORE_DIRECTORY_TIMEOUT (R172). A backstop read or write not completed in 20 µs is a slice fault. -/
def execStoreDirectoryTimeout (n : Fin 8) (s : State) : Host.Outcome State Fault Refusal :=
  .next (s.onData fun d => d.bstTimeout n)

/-- RETRY_WAIT_TIMEOUT (R172). A REQ that has waited RTRY in a retry queue is captured and reported. -/
def execRetryWaitTimeout (n : Fin 8) (s : State) : Host.Outcome State Fault Refusal :=
  .next (s.onData fun d => d.retryTimeout n)

/-- BUDGET_WAIT_TIMEOUT (R224). A request stalled under the budget wait is released after 20 µs and counted. -/
def execBudgetWaitTimeout (n : Fin 8) (s : State) : Host.Outcome State Fault Refusal :=
  .next (s.onData fun d => d.budgetTimeout n)

/-- BACKING_WRITE_ACK (R217). A backing port acknowledges a write-buffer entry, which frees it and credits the ledger. -/
def execBackingWriteAck (n : Fin 8) (i : BitVec 6) (s : State) : Host.Outcome State Fault Refusal :=
  .next (s.onData fun d => d.backingAck n i.toNat)

/-- WB_ENTRY_SEND (R107). A backing port takes the oldest ISSUED write-buffer entry bound for it and sends it as MemWr or MemWrPtl. -/
def execWbEntrySend (b : Fin 4) (s : State) : Host.Outcome State Fault Refusal :=
  .next (s.onData fun d => d.wbSend b)

/-- COMBINE_EXPIRY (R107). An OPEN WT or NA entry's combining time passes and the entry becomes ISSUED. -/
def execCombineExpiry (n : Fin 8) (i : BitVec 6) (s : State) : Host.Outcome State Fault Refusal :=
  .next (s.onData fun d => d.combineExpire n i.toNat)

/-- PREFETCH (R116). A priority-6 prefetch pass takes a side-buffer entry in PEND and reads a sector from backing. -/
def execPrefetch (n : Fin 8) (s : State) : Host.Outcome State Fault Refusal :=
  .next (s.onData fun d => if d.running n then d.pfStep n else d)

/-- PREFETCH_DATA (R118). Prefetch data arrives at a PEND side-buffer entry, which becomes READY or, if cancelled, FREE. -/
def execPrefetchData (n : Fin 8) (i : BitVec 5) (d0 d1 : Gran) (p0 p1 : Bool) (s : State) : Host.Outcome State Fault Refusal :=
  .next (s.onData fun d => d.prefetchArrive n (Fin.ofNat 32 i.toNat) ({ d0 := d0, d1 := d1, p0 := p0, p1 := p1 }))

/-- SIDE_BUFFER_AGE_OUT (R118). A READY or USED side-buffer entry unused for AGE × 1,024 cycles becomes FREE. -/
def execSideBufferAgeOut (n : Fin 8) (i : BitVec 5) (s : State) : Host.Outcome State Fault Refusal :=
  .next (s.onData fun d => d.sideAge n (Fin.ofNat 32 i.toNat))

end Sys2Proof.Machine
end

