-- ==== Sys2Proof/Machine/Dispatch.lean ====
section
/-!
DEFINITION. One arm for each command of the table: what it does to everything but the queue of commands.
-/

namespace Sys2Proof.Machine

def exec (i : Instr) (s : State) : Host.Outcome State Fault Refusal :=
  match i with
  | .rdSh p g => Sys2Proof.Machine.execRdSh p g s
  | .rdOwn p g => Sys2Proof.Machine.execRdOwn p g s
  | .upgrade p g => Sys2Proof.Machine.execUpgrade p g s
  | .wr p g wt bef be dat => Sys2Proof.Machine.execWr p g wt bef be dat s
  | .evict p g => Sys2Proof.Machine.execEvict p g s
  | .wb p g ch dat => Sys2Proof.Machine.execWb p g ch dat s
  | .passAdmission n u => Sys2Proof.Machine.execPassAdmission n u s
  | .waitListReadmission n => Sys2Proof.Machine.execWaitListReadmission n s
  | .retryReentry n dset => Sys2Proof.Machine.execRetryReentry n dset s
  | .rspI p g => Sys2Proof.Machine.execRspI p g s
  | .rspIFwd p g => Sys2Proof.Machine.execRspIFwd p g s
  | .rspSFwd p g => Sys2Proof.Machine.execRspSFwd p g s
  | .rspOFwd p g => Sys2Proof.Machine.execRspOFwd p g s
  | .rspIWb p g => Sys2Proof.Machine.execRspIWb p g s
  | .rspRecall p g => Sys2Proof.Machine.execRspRecall p g s
  | .rspCnS p g => Sys2Proof.Machine.execRspCnS p g s
  | .rspCnX p g => Sys2Proof.Machine.execRspCnX p g s
  | .rspCnO p g => Sys2Proof.Machine.execRspCnO p g s
  | .datS p g peer poison dat => Sys2Proof.Machine.execDatS p g peer poison dat s
  | .datE p g peer poison dat => Sys2Proof.Machine.execDatE p g peer poison dat s
  | .datM p g peer poison dat => Sys2Proof.Machine.execDatM p g peer poison dat s
  | .datSnpC p g poison dat => Sys2Proof.Machine.execDatSnpC p g poison dat s
  | .datSnpD p g poison dat => Sys2Proof.Machine.execDatSnpD p g poison dat s
  | .fill n mt d0 d1 p0 p1 => Sys2Proof.Machine.execFill n mt d0 d1 p0 p1 s
  | .storeReadReturn n => Sys2Proof.Machine.execStoreReadReturn n s
  | .binv n => Sys2Proof.Machine.execBinv n s
  | .directoryFetchReturn n => Sys2Proof.Machine.execDirectoryFetchReturn n s
  | .spillBackstopWrite n => Sys2Proof.Machine.execSpillBackstopWrite n s
  | .holdExpiry n => Sys2Proof.Machine.execHoldExpiry n s
  | .snoopAnswerTimeout n ga => Sys2Proof.Machine.execSnoopAnswerTimeout n ga s
  | .owedAnswerTimeout n ga p => Sys2Proof.Machine.execOwedAnswerTimeout n ga p s
  | .backingReadTimeout n side k => Sys2Proof.Machine.execBackingReadTimeout n side k s
  | .backingWriteTimeout n k => Sys2Proof.Machine.execBackingWriteTimeout n k s
  | .storeDirectoryTimeout n => Sys2Proof.Machine.execStoreDirectoryTimeout n s
  | .retryWaitTimeout n => Sys2Proof.Machine.execRetryWaitTimeout n s
  | .budgetWaitTimeout n => Sys2Proof.Machine.execBudgetWaitTimeout n s
  | .backingWriteAck n k => Sys2Proof.Machine.execBackingWriteAck n k s
  | .wbEntrySend b => Sys2Proof.Machine.execWbEntrySend b s
  | .combineExpiry n k => Sys2Proof.Machine.execCombineExpiry n k s
  | .prefetch n => Sys2Proof.Machine.execPrefetch n s
  | .prefetchData n k d0 d1 p0 p1 => Sys2Proof.Machine.execPrefetchData n k d0 d1 p0 p1 s
  | .sideBufferAgeOut n k => Sys2Proof.Machine.execSideBufferAgeOut n k s
  | .viralIndication b => Sys2Proof.Machine.execViralIndication b s
  | .backingLinkLost b => Sys2Proof.Machine.execBackingLinkLost b s
  | .dirtyMapEpoch => Sys2Proof.Machine.execDirtyMapEpoch s
  | .earlyCleaningStep n => Sys2Proof.Machine.execEarlyCleaningStep n s
  | .durBudget v => Sys2Proof.Machine.execDurBudget v s
  | .powerFailWarning => Sys2Proof.Machine.execPowerFailWarning s
  | .recallDeadline => Sys2Proof.Machine.execRecallDeadline s
  | .drainStep n => Sys2Proof.Machine.execDrainStep n s
  | .drainDeadline => Sys2Proof.Machine.execDrainDeadline s
  | .gpfPhase1Response b err => Sys2Proof.Machine.execGpfPhase1Response b err s
  | .gpfPhase2Response b err => Sys2Proof.Machine.execGpfPhase2Response b err s
  | .persistDeadline => Sys2Proof.Machine.execPersistDeadline s
  | .setShutdownStateComplete b => Sys2Proof.Machine.execSetShutdownStateComplete b s
  | .journalDeadline => Sys2Proof.Machine.execJournalDeadline s
  | .doneRestart e => Sys2Proof.Machine.execDoneRestart e s
  | .journalFlushTimeout b => Sys2Proof.Machine.execJournalFlushTimeout b s
  | .sealItem => Sys2Proof.Machine.execSealItem s
  | .sealDurabilityStep n => Sys2Proof.Machine.execSealDurabilityStep n s
  | .sealHashComplete lane => Sys2Proof.Machine.execSealHashComplete lane s
  | .clean => Sys2Proof.Machine.execClean s
  | .inv => Sys2Proof.Machine.execInv s
  | .clinv => Sys2Proof.Machine.execClinv s
  | .retire => Sys2Proof.Machine.execRetire s
  | .unretire => Sys2Proof.Machine.execUnretire s
  | .maintenanceStep n => Sys2Proof.Machine.execMaintenanceStep n s
  | .planishStep n => Sys2Proof.Machine.execPlanishStep n s
  | .scrubRead pc upset => Sys2Proof.Machine.execScrubRead pc upset s
  | .scrubPeriodEnd => Sys2Proof.Machine.execScrubPeriodEnd s
  | .arm v => Sys2Proof.Machine.execArm v s
  | .qPush p tag q eop poison w => Sys2Proof.Machine.execQPush p tag q eop poison w s
  | .qPop p tag q upset => Sys2Proof.Machine.execQPop p tag q upset s
  | .quePushHi q v => Sys2Proof.Machine.execQuePushHi q v s
  | .quePopLo q upset => Sys2Proof.Machine.execQuePopLo q upset s
  | .flush q => Sys2Proof.Machine.execFlush q s
  | .queueStaleTimeout q => Sys2Proof.Machine.execQueueStaleTimeout q s
  | .gapMarker q => Sys2Proof.Machine.execGapMarker q s
  | .regRd p tag a w64 => Sys2Proof.Machine.execRegRd p tag a w64 s
  | .regWr p tag a w64 be w => Sys2Proof.Machine.execRegWr p tag a w64 be w s
  | .registerWrite r a width be w => Sys2Proof.Machine.execRegisterWrite r a width be w s
  | .rcFieldRead r a w64 => Sys2Proof.Machine.execRcFieldRead r a w64 s
  | .postedWriteEffect r => Sys2Proof.Machine.execPostedWriteEffect r s
  | .farAccessTimeout r => Sys2Proof.Machine.execFarAccessTimeout r s
  | .mbxSel m r v => Sys2Proof.Machine.execMbxSel m r v s
  | .mbxFillComplete m => Sys2Proof.Machine.execMbxFillComplete m s
  | .mbxAck m r => Sys2Proof.Machine.execMbxAck m r s
  | .mbxDataRead m r k => Sys2Proof.Machine.execMbxDataRead m r k s
  | .go => Sys2Proof.Machine.execGo s
  | .reloadSwitch => Sys2Proof.Machine.execReloadSwitch s
  | .reloadTimeout => Sys2Proof.Machine.execReloadTimeout s
  | .rld seq => Sys2Proof.Machine.execRld seq s
  | .reloadPartnerTimeout => Sys2Proof.Machine.execReloadPartnerTimeout s
  | .slcDisGo n => Sys2Proof.Machine.execSlcDisGo n s
  | .slcEnGo n => Sys2Proof.Machine.execSlcEnGo n s
  | .cbypDisGo rgn => Sys2Proof.Machine.execCbypDisGo rgn s
  | .cbypEnGo rgn => Sys2Proof.Machine.execCbypEnGo rgn s
  | .eventTick => Sys2Proof.Machine.execEventTick s
  | .eventQueuePush => Sys2Proof.Machine.execEventQueuePush s
  | .evtForce src => Sys2Proof.Machine.execEvtForce src s
  | .snap => Sys2Proof.Machine.execSnap s
  | .snapshotPeriodExpiry => Sys2Proof.Machine.execSnapshotPeriodExpiry s
  | .snapshot => Sys2Proof.Machine.execSnapshot s
  | .clrAll => Sys2Proof.Machine.execClrAll s
  | .pmcWvalHi v => Sys2Proof.Machine.execPmcWvalHi v s
  | .pmcSmpSeed v => Sys2Proof.Machine.execPmcSmpSeed v s
  | .aptSwev p v => Sys2Proof.Machine.execAptSwev p v s
  | .dis p => Sys2Proof.Machine.execDis p s
  | .retrain p => Sys2Proof.Machine.execRetrain p s
  | .drain n => Sys2Proof.Machine.execDrain n s
  | .returnSlc n => Sys2Proof.Machine.execReturnSlc n s
  | .artsGo p => Sys2Proof.Machine.execArtsGo p s
  | .assay n => Sys2Proof.Machine.execAssay n s
  | .assayComplete struct => Sys2Proof.Machine.execAssayComplete struct s
  | .bkpReturn b => Sys2Proof.Machine.execBkpReturn b s
  | .bkpReturnComplete b e => Sys2Proof.Machine.execBkpReturnComplete b e s
  | .bkpFail b => Sys2Proof.Machine.execBkpFail b s
  | .handover => Sys2Proof.Machine.execHandover s
  | .handback => Sys2Proof.Machine.execHandback s
  | .halCtlEnum => Sys2Proof.Machine.execHalCtlEnum s
  | .unreef dom => Sys2Proof.Machine.execUnreef dom s
  | .reef dom => Sys2Proof.Machine.execReef dom s
  | .reset dom => Sys2Proof.Machine.execReset dom s
  | .kick => Sys2Proof.Machine.execKick s
  | .powerGood e => Sys2Proof.Machine.execPowerGood e s
  | .strapSample k mgtMode chainHead scanEn => Sys2Proof.Machine.execStrapSample k mgtMode chainHead scanEn s
  | .rdy => Sys2Proof.Machine.execRdy s
  | .pwrgdLow => Sys2Proof.Machine.execPwrgdLow s
  | .resetN => Sys2Proof.Machine.execResetN s
  | .warmResetEffect e => Sys2Proof.Machine.execWarmResetEffect e s
  | .domainIdleReef dom => Sys2Proof.Machine.execDomainIdleReef dom s
  | .domainWake dom => Sys2Proof.Machine.execDomainWake dom s
  | .domainWakeComplete dom => Sys2Proof.Machine.execDomainWakeComplete dom s
  | .domainWakeTimeout dom => Sys2Proof.Machine.execDomainWakeTimeout dom s
  | .pllLockFailure dom => Sys2Proof.Machine.execPllLockFailure dom s
  | .refclkFailure k => Sys2Proof.Machine.execRefclkFailure k s
  | .crystalFailure => Sys2Proof.Machine.execCrystalFailure s
  | .watchdogExpiry => Sys2Proof.Machine.execWatchdogExpiry s
  | .d1WakeTimer => Sys2Proof.Machine.execD1WakeTimer s
  | .stackTemperature t => Sys2Proof.Machine.execStackTemperature t s
  | .thermtrip => Sys2Proof.Machine.execThermtrip s
  | .receiverDetected l => Sys2Proof.Machine.execReceiverDetected l s
  | .detectTimeout l => Sys2Proof.Machine.execDetectTimeout l s
  | .sts1 l lane w => Sys2Proof.Machine.execSts1 l lane w s
  | .sts2 l lane w => Sys2Proof.Machine.execSts2 l lane w s
  | .sdm l lane w => Sys2Proof.Machine.execSdm l lane w s
  | .trainTimeout l => Sys2Proof.Machine.execTrainTimeout l s
  | .cfgTimeout l => Sys2Proof.Machine.execCfgTimeout l s
  | .equalisationComplete l => Sys2Proof.Machine.execEqualisationComplete l s
  | .equalisationFailure l => Sys2Proof.Machine.execEqualisationFailure l s
  | .initTimeout l => Sys2Proof.Machine.execInitTimeout l s
  | .payload l w => Sys2Proof.Machine.execPayload l w s
  | .nop l w => Sys2Proof.Machine.execNop l w s
  | .badFlit l w => Sys2Proof.Machine.execBadFlit l w s
  | .nakResendTimeout l => Sys2Proof.Machine.execNakResendTimeout l s
  | .replayTimeout l => Sys2Proof.Machine.execReplayTimeout l s
  | .laneLockLost l => Sys2Proof.Machine.execLaneLockLost l s
  | .recoverComplete l lanes => Sys2Proof.Machine.execRecoverComplete l lanes s
  | .recoverTimeout l => Sys2Proof.Machine.execRecoverTimeout l s
  | .l1Req p => Sys2Proof.Machine.execL1Req p s
  | .l1Ack p => Sys2Proof.Machine.execL1Ack p s
  | .l1Nak p => Sys2Proof.Machine.execL1Nak p s
  | .l1AnswerTimeout p => Sys2Proof.Machine.execL1AnswerTimeout p s
  | .l1idleExpiry p => Sys2Proof.Machine.execL1idleExpiry p s
  | .electricalIdleExit p => Sys2Proof.Machine.execElectricalIdleExit p s
  | .wakeComplete p => Sys2Proof.Machine.execWakeComplete p s
  | .wakeTimeout p => Sys2Proof.Machine.execWakeTimeout p s
  | .creditWait p c => Sys2Proof.Machine.execCreditWait p c s
  | .creditWaitIsolation p c => Sys2Proof.Machine.execCreditWaitIsolation p c s
  | .shroudHello member pstate pairId sum => Sys2Proof.Machine.execShroudHello member pstate pairId sum s
  | .hb hbseq pstate pfail msync budget => Sys2Proof.Machine.execHb hbseq pstate pfail msync budget s
  | .heartbeatMissed => Sys2Proof.Machine.execHeartbeatMissed s
  | .censusLimitExpiry => Sys2Proof.Machine.execCensusLimitExpiry s
  | .censusCloseWalkStep n => Sys2Proof.Machine.execCensusCloseWalkStep n s
  | .failoverResume => Sys2Proof.Machine.execFailoverResume s
  | .salvageStep n => Sys2Proof.Machine.execSalvageStep n s
  | .sliceFaultResume n => Sys2Proof.Machine.execSliceFaultResume n s
  | .witnessWrite => Sys2Proof.Machine.execWitnessWrite s
  | .witnessWriteTimeout => Sys2Proof.Machine.execWitnessWriteTimeout s
  | .witnessReadComplete ok wcnt pstate pairId => Sys2Proof.Machine.execWitnessReadComplete ok wcnt pstate pairId s
  | .joinwExpiry => Sys2Proof.Machine.execJoinwExpiry s
  | .shroudRetry => Sys2Proof.Machine.execShroudRetry s
  | .mwr ga poison dat => Sys2Proof.Machine.execMwr ga poison dat s
  | .mclr ga => Sys2Proof.Machine.execMclr ga s
  | .swr ga poison src entry seq be dat => Sys2Proof.Machine.execSwr ga poison src entry seq be dat s
  | .sclr src entry => Sys2Proof.Machine.execSclr src entry s
  | .mrd ga tag => Sys2Proof.Machine.execMrd ga tag s
  | .mdat ga poison hit tag dat => Sys2Proof.Machine.execMdat ga poison hit tag dat s
  | .mfull ga => Sys2Proof.Machine.execMfull ga s
  | .mirrorReadTimeout tag => Sys2Proof.Machine.execMirrorReadTimeout tag s
  | .mirrorDrainStep n => Sys2Proof.Machine.execMirrorDrainStep n s
  | .mirrorResyncStep n => Sys2Proof.Machine.execMirrorResyncStep n s
  | .dxf e => Sys2Proof.Machine.execDxf e s
  | .dxfEnd count => Sys2Proof.Machine.execDxfEnd count s
  | .hello src msg => Sys2Proof.Machine.execHello src msg s
  | .tmpRegRd src msg => Sys2Proof.Machine.execTmpRegRd src msg s
  | .tmpRegWr src msg => Sys2Proof.Machine.execTmpRegWr src msg s
  | .mbxRd src msg => Sys2Proof.Machine.execMbxRd src msg s
  | .qSub src msg => Sys2Proof.Machine.execQSub src msg s
  | .tmpQPush src msg => Sys2Proof.Machine.execTmpQPush src msg s
  | .evtSub src msg => Sys2Proof.Machine.execEvtSub src msg s
  | .evtSubLapse k => Sys2Proof.Machine.execEvtSubLapse k s
  | .logRd src msg => Sys2Proof.Machine.execLogRd src msg s
  | .time src msg => Sys2Proof.Machine.execTime src msg s
  | .tmpSnap src msg => Sys2Proof.Machine.execTmpSnap src msg s
  | .updStart src msg => Sys2Proof.Machine.execUpdStart src msg s
  | .updData src msg => Sys2Proof.Machine.execUpdData src msg s
  | .updEnd src msg => Sys2Proof.Machine.execUpdEnd src msg s
  | .updActivate src msg => Sys2Proof.Machine.execUpdActivate src msg s
  | .updConfirm src msg => Sys2Proof.Machine.execUpdConfirm src msg s
  | .updAbort src msg => Sys2Proof.Machine.execUpdAbort src msg s
  | .updStat src msg => Sys2Proof.Machine.execUpdStat src msg s
  | .rigWrite src msg => Sys2Proof.Machine.execRigWrite src msg s
  | .rigErase src msg => Sys2Proof.Machine.execRigErase src msg s
  | .setRd src msg => Sys2Proof.Machine.execSetRd src msg s
  | .setWr src msg => Sys2Proof.Machine.execSetWr src msg s
  | .restartDevice src msg => Sys2Proof.Machine.execRestartDevice src msg s
  | .restartManagementCluster src msg => Sys2Proof.Machine.execRestartManagementCluster src msg s
  | .relayExpiry k => Sys2Proof.Machine.execRelayExpiry k s
  | .chainPortUp down => Sys2Proof.Machine.execChainPortUp down s
  | .chainPortDown down => Sys2Proof.Machine.execChainPortDown down s
  | .enum down f => Sys2Proof.Machine.execEnum down f s
  | .enumDone down f => Sys2Proof.Machine.execEnumDone down f s
  | .tmpFrame down f => Sys2Proof.Machine.execTmpFrame down f s
  | .imgOffer down f => Sys2Proof.Machine.execImgOffer down f s
  | .imgReq down f => Sys2Proof.Machine.execImgReq down f s
  | .imgData down f => Sys2Proof.Machine.execImgData down f s
  | .imgRsp down f => Sys2Proof.Machine.execImgRsp down f s
  | .imgReqResendTimeout down => Sys2Proof.Machine.execImgReqResendTimeout down s
  | .crucibleLockTimeout => Sys2Proof.Machine.execCrucibleLockTimeout s
  | .sync ofs ival => Sys2Proof.Machine.execSync ofs ival s
  | .syncTimeout => Sys2Proof.Machine.execSyncTimeout s
  | .trialRecordTimer => Sys2Proof.Machine.execTrialRecordTimer s
  | .autoConfirmExpiry => Sys2Proof.Machine.execAutoConfirmExpiry s
  | .ethernetLinkUp => Sys2Proof.Machine.execEthernetLinkUp s
  | .ethernetLinkDown => Sys2Proof.Machine.execEthernetLinkDown s
  | .heartbeatSend => Sys2Proof.Machine.execHeartbeatSend s
  | .waitWitnessRead => Sys2Proof.Machine.execWaitWitnessRead s
  | .domainReefComplete dom => Sys2Proof.Machine.execDomainReefComplete dom s
  | .flashBlockErased => Sys2Proof.Machine.execFlashBlockErased s
  | .tck rise tms tdi => Sys2Proof.Machine.execTck rise tms tdi s
  | .trstN => Sys2Proof.Machine.execTrstN s
  | .frameBufferCredit down => Sys2Proof.Machine.execFrameBufferCredit down s

end Sys2Proof.Machine
end

