-- ==== Sys2Proof/Safety.lean ====
section
/-!
DEFINITION. What a safe run is: no step stops, and what the machine keeps is in order.
-/

namespace Sys2Proof.Machine

/-- A sparse map is in its canonical form: keys strictly rising, no entry equal to what an unlisted key reads as. -/
def SMap.ok {β : Type} [DecidableEq β] (dflt : β) (m : SMap β) : Bool :=
  m.all (fun x => x.2 != dflt) && decide (m.Pairwise fun a b => a.1 < b.1)

/-- The flash is in its canonical form: 0xFF is what an unlisted byte reads as. -/
def Mgmt.flashOk (m : Mgmt) : Bool := SMap.ok (0xFF : Byte) m.flash

/-- The addressed memories of the block, the flash of the management cluster and the cache store, are in their canonical form. -/
abbrev Memory.wf (s : State) : Bool := s.m.flashOk && SMap.ok 0 s.d.store.cw

/-- The management cluster runs: its domain is up and so are its cores. -/
def State.clusterUp (s : State) : Prop := s.d.domUp 1 = true ∧ s.m.up = true

/-- The hardware has done nothing yet in this cycle to a register as a requester sees it: it has set no W1C bit, counted in no field,
raised no peak and held no late capture (R351). -/
def Data.quiet (d : Data) (r : Requester) (a : Nat) : Prop :=
  Data.hwSet d.cycNow (Data.cycReg r a) = 0 ∧ SMap.get none d.cycNow.late a = none ∧
  ∀ row, regRow a = some row → ∀ f ∈ row.flds, SMap.get none d.cycNow.was (32 * a + f.lo) = none

/-- No posted write of the management cluster goes before its next access to a register: it is near, or none is posted (R342). -/
def Data.flushed (d : Data) (a : Nat) : Prop := regNear a = true ∨ d.banks[(16 : Fin 17)].posted = []

/-- A write of a register by the management cluster reaches it as the only thing that happens to it: the cluster runs, the block of
the register is up, no posted write goes before, and the hardware does nothing to it in this cycle. -/
structure State.Reaches (s : State) (a : Nat) : Prop where
  up : s.clusterUp
  here : s.d.blockReefed a = false
  first : s.d.flushed a
  quiet : s.d.quiet 16 a

/-- What the TAP keeps between edges of TCK: with TCK low, Test-Logic-Reset holds IDCODE and TDO is driven in the shift states
alone. -/
def Tap.kept (t : Tap) : Prop :=
  t.tck = false → (t.st = .reset → t.ir = 1) ∧ (t.tdo.isSome = true ↔ t.st = .shDr ∨ t.st = .shIr)

/-! ## Requests of management hosts that are accepted (R357) -/

namespace DM

/-- The request that a message makes. -/
def tmpReq (src : TmpSrc) (b : List Byte) : TmpReq := { src := src, key := tmpKey b, unit := tmpUnit b, ty := b.getD 3 0, seq := tmpSeq b }

/-- Every check of R357 passes: the cluster runs, the message is well formed and for this device, its slot has a key and the MAC is
good, BOOT_ID and SEQ are acceptable, and the slot's rights and the form of the payload admit the operation `o` of its TYPE. -/
structure Accepts (x : DM) (src : TmpSrc) (b : List Byte) (o : TmpOp) : Prop where
  up : x.mgtUp = true
  framed : tmpFramed b = true
  here : ∀ ip port, src = .host ip port → x.unitHere (tmpUnit b) = true
  mac : ∃ k, x.m.key (tmpKey b) = some k ∧ tmpMac k (b.take (32 + leAt b 24 2)) = b.drop (32 + leAt b 24 2)
  boot : tmpType b = 1 ∨ leAt b 28 4 = x.m.bootId.toNat
  fresh : seqOk (x.slot (tmpKey b)) (tmpSeq b) = true
  op : tmpOp (b.getD 3 0).toNat = some o
  right : o.right (tmpPayload b) = 0 ∨ o.right (tmpPayload b) &&& x.m.rights (tmpKey b) ≠ 0
  form : o.form (tmpPayload b) = true

/-- The device as an accepted request finds it: the message is counted and timed, and its SEQ is taken. -/
def taken (x : DM) (src : TmpSrc) (b : List Byte) : DM :=
  ((x.modM fun m => { m with msgAt := x.d.now }).modD fun d => d.tally 43).modM fun m =>
    { m with slots := vmod m.slots (tmpReq src b).key fun s => seqTake s (tmpReq src b).seq }

/-- The device as a frame finds it that a chain port has received: its buffer goes back to the sender. -/
def heard (x : DM) (down : Bool) : DM := x.modM fun m => { m with msgAt := x.d.now, out := m.out.concat (chainSrc down 0xFF, [0xDC]) }

end DM

/-- A step is safe in a state: it answers a next state. -/
def Safe (s : State) : Prop := ∃ t, step s = .next t

end Sys2Proof.Machine
end

