-- ==== Sys2Proof/Certificates/Slice0/Obligations.lean ====
section
/-!
DEFINITION. The statements for the provers. A completion statement says, for every command it names, that `exec` answers the next
state that the rules give, under conditions on the state and the operands alone; `State.after` and `State.afterDM` add what
follows of itself in the device and the cluster once the command has taken effect.
-/

open Sys2Proof Sys2Proof.Machine

/-- A step with command `c` at the front of the queue is `exec c` on the state with the queue's rest. -/
def Obligations.StepTakesTheFrontCommand : Prop :=
  ∀ (c : Instr) (rest : List Instr) (s : State),
    s.pending = c :: rest → step s = exec c { s with pending := rest }

/-- With no command waiting, a step lets one slice cycle pass (assumption 1, the model's choice): the clock advances by one and what follows of itself happens. -/
def Obligations.EmptyQueuePassesACycle : Prop :=
  ∀ s : State, s.pending = [] →
    step s = .next (s.after s.d.cycle) ∧ s.d.cycle.now = s.d.now + 1 ∧ (s.after s.d.cycle).pending = []

/-- No command stops the block: in every state `exec` answers a next state, which keeps the queue; every command but those of the test access port keeps the TAP. -/
def Obligations.EveryCommandCompletes : Prop :=
  ∀ (c : Instr) (s : State), ∃ t, exec c s = .next t ∧ t.pending = s.pending ∧
    ((∀ rise tms tdi, c ≠ .tck rise tms tdi) → c ≠ .trstN → t.tap = s.tap)

/-- TCK and TRST_N (R403) work on the TAP alone: an edge moves the controller, and of the device at most the count of free values drawn changes; the management cluster and the queue stand. -/
def Obligations.TestPortCommandsTouchTheTapAlone : Prop :=
  (∀ (rise tms tdi : Bool) (s : State),
    exec (.tck rise tms tdi) s = .next { s with d := (tapEdge s.d s.tap rise tms tdi).1, tap := (tapEdge s.d s.tap rise tms tdi).2 } ∧
    (∃ n, (tapEdge s.d s.tap rise tms tdi).1 = { s.d with free := n }) ∧
    (s.tap.tck = rise → tapEdge s.d s.tap rise tms tdi = (s.d, s.tap)) ∧
    (s.tap.tck = false → rise = true →
      (tapEdge s.d s.tap rise tms tdi).2.st = tapNext s.tap.st tms ∧ (tapEdge s.d s.tap rise tms tdi).2.ir = s.tap.ir)) ∧
  (∀ s : State, exec .trstN s = .next { s with tap := { s.tap with st := .reset, ir := 0x01, tdo := none } })

/-- The reset state meets the TAP invariant. -/
def Obligations.TapKeptAtReset : Prop :=
  State.reset.tap.kept

/-- Every step keeps the TAP invariant (R403, IEEE 1149.1): with TCK low, Test-Logic-Reset has IDCODE as its instruction and TDO is driven in the shift states alone. -/
def Obligations.EveryStepKeepsTheTap : Prop :=
  ∀ s t : State, s.tap.kept → step s = .next t → t.tap.kept

/-- From every controller state five rising edges of TCK with TMS high reach Test-Logic-Reset, which TMS high does not leave (IEEE 1149.1, R403). -/
def Obligations.FiveEdgesResetTheTap : Prop :=
  ∀ st : TapSt, tapNext (tapNext (tapNext (tapNext (tapNext st true) true) true) true) true = .reset ∧
    tapNext .reset true = .reset

/-- Completion of the six requests (R16, R24, R26, R191): a REQ of an open port, whose granule lies in the backing map and is homed here or fenced, is taken whole and accepted as the request it spells; WR takes its byte enables where they come with it, WB all bytes and its channel. -/
def Obligations.RequestsAreAccepted : Prop :=
  ∀ (p : Fin 16) (g : BitVec 40) (s : State),
    s.d.portOpen p = true → g.toNat < 2 ^ 36 → s.d.inMap g.toNat = true → s.d.pairMute = false →
    (s.d.homed g.toNat = true ∨ s.d.fencedAt g.toNat = true) →
    exec (.rdSh p g) s = .next (s.after (s.d.reqAccept p { agent := p, op := 0x01, ga := g.toNat })) ∧
    exec (.rdOwn p g) s = .next (s.after (s.d.reqAccept p { agent := p, op := 0x02, ga := g.toNat })) ∧
    exec (.upgrade p g) s = .next (s.after (s.d.reqAccept p { agent := p, op := 0x03, ga := g.toNat })) ∧
    (∀ wt bef be dat, (bef = true → be ≠ 0) →
      exec (.wr p g wt bef be dat) s = .next (s.after (s.d.reqAccept p
        { agent := p, op := 0x04, ga := g.toNat, wt := wt, be := if bef then be else BitVec.allOnes 64, data := dat }))) ∧
    ((s.d.dur.phase = .run ∨ s.d.dur.phase = .recalling) →
      exec (.evict p g) s = .next (s.after (s.d.reqAccept p { agent := p, op := 0x05, ga := g.toNat })) ∧
      ∀ ch dat, exec (.wb p g ch dat) s = .next (s.after (s.d.reqAccept p
        { agent := p, op := 0x06, ga := g.toNat, be := BitVec.allOnes 64, data := dat, ch := ch })))

/-- What acceptance does and where the crossbar takes a request (R15, R16, R21, R25): an accepted request joins the list that its port holds, as it came but for its instant, its sampling tag and the slice that its interleave entry names, sampled there; no slice changes. The grant of a slice takes it from there to the end of the waiting passes of that slice, at its input, at most one in a cycle. -/
def Obligations.AcceptedRequestWaitsAtItsHome : Prop :=
  (∀ (d : Data) (p : Agent) (r : Req),
    (∃ t0 tag, (d.reqAccept p r).ports[p].held = d.ports[p].held.concat { r with t0 := t0, tagged := tag, dst := d.sampled r.ga }) ∧
    (d.reqAccept p r).slices = d.slices ∧
    (∀ q, q ≠ p → (d.reqAccept p r).ports[q] = d.ports[q])) ∧
  (∀ (d : Data) (n : SliceId) (p : Agent) (r : Req), d.reqNext n p = some r → r.cred = false →
    (d.reqGrant n p r).slices[n].waiters = d.slices[n].waiters.concat { seq := d.seq, since := d.now, kind := .req r, loc := .input } ∧
    (d.reqGrant n p r).slices[n].arbAt = some d.now ∧
    (∀ m, m ≠ n → (d.reqGrant n p r).slices[m] = d.slices[m]) ∧
    (d.reqGrant n p r).ports[p].held = d.ports[p].held.erase r ∧
    (∀ q, q ≠ p → (d.reqGrant n p r).ports[q] = d.ports[q]) ∧
    d.reqHeld r = false ∧ d.reqDst r = some n) ∧
  (∀ (d : Data) (n : SliceId),
    (d.slices[n].arbAt = some d.now → d.arbitrate n = d) ∧
    (d.slices[n].arbAt ≠ some d.now → d.arbitrate n = d ∨ ∃ p r, d.reqNext n p = some r ∧ d.arbitrate n = d.reqGrant n p r))

/-- R16: a request whose granule lies outside the backing map is answered by its port with RSP_ERR and the address-error event; no slice changes. -/
def Obligations.UnmappedRequestIsAnsweredAndChangesNoSlice : Prop :=
  ∀ (p : Fin 16) (g : BitVec 40) (s : State),
    s.d.portOpen p = true → (2 ^ 36 ≤ g.toNat ∨ s.d.inMap g.toNat = false) →
    exec (.rdSh p g) s = .next (s.after ((s.d.rspTo p 0x1E g).evApt p 9)) ∧
    exec (.rdOwn p g) s = .next (s.after ((s.d.rspTo p 0x1E g).evApt p 9)) ∧
    exec (.upgrade p g) s = .next (s.after ((s.d.rspTo p 0x1E g).evApt p 9)) ∧
    (∀ wt be dat, be ≠ 0 → exec (.wr p g wt true be dat) s = .next (s.after ((s.d.rspTo p 0x1E g).evApt p 9))) ∧
    ((s.d.rspTo p 0x1E g).evApt p 9).slices = s.d.slices ∧
    ((s.d.rspTo p 0x1E g).evApt p 9).ports[p].tx = s.d.ports[p].tx.concat { cls := .rsp, op := 0x1E, gaddr := g, since := s.d.now } ∧
    ((s.d.rspTo p 0x1E g).evApt p 9).evt.latch.getLsbD (576 + 24 * p.val + 9) = true

/-- R24: a request for a bucket of the other member, not fenced, is answered with REDIRECT (0x1F) naming the home member, and no slice changes. -/
def Obligations.MisdirectedRequestIsRedirected : Prop :=
  ∀ (p : Fin 16) (g : BitVec 40) (s : State),
    s.d.portOpen p = true → g.toNat < 2 ^ 36 → s.d.inMap g.toNat = true → s.d.pairMute = false →
    s.d.homed g.toNat = false → s.d.fencedAt g.toNat = false →
    exec (.rdSh p g) s = .next (s.after (s.d.redirect p g.toNat (s.d.memberOf g.toNat))) ∧
    exec (.rdOwn p g) s = .next (s.after (s.d.redirect p g.toNat (s.d.memberOf g.toNat))) ∧
    (s.d.redirect p g.toNat (s.d.memberOf g.toNat)).slices = s.d.slices ∧
    (s.d.redirect p g.toNat (s.d.memberOf g.toNat)).ports[p].tx = s.d.ports[p].tx.concat
      { cls := .rsp, op := 0x1F, gaddr := g, peer := if s.d.memberOf g.toNat then 1 else 0, since := s.d.now }

/-- Completion of the answers of an agent (R151, R190, R234, R396): a snoop answer clears the port's record of the snoop and is processed at the home slice; RSP_I_WB is also noted at the port; owner data goes to the port that PEER names; RSP_RECALL ends the agent's answer to RECALL. -/
def Obligations.AnswersAreTaken : Prop :=
  ∀ (p : Fin 16) (g : BitVec 40) (s : State), s.d.portOpen p = true → s.d.pairMute = false →
    (s.d.ports[p].recalling = true → g = 0 →
      exec (.rspRecall p g) s = .next (s.after (s.d.modPort p fun x => { x with recalling := false }))) ∧
    (s.d.ansInMap g = true →
      exec (.rspI p g) s = .next (s.after ((s.d.snpAnswered p g.toNat).answerRun { agent := p, dat := false, op := 0x01, ga := g.toNat })) ∧
      exec (.rspIFwd p g) s = .next (s.after ((s.d.snpAnswered p g.toNat).answerRun { agent := p, dat := false, op := 0x02, ga := g.toNat })) ∧
      exec (.rspSFwd p g) s = .next (s.after ((s.d.snpAnswered p g.toNat).answerRun { agent := p, dat := false, op := 0x03, ga := g.toNat })) ∧
      exec (.rspOFwd p g) s = .next (s.after ((s.d.snpAnswered p g.toNat).answerRun { agent := p, dat := false, op := 0x04, ga := g.toNat })) ∧
      exec (.rspIWb p g) s = .next (s.after (((s.d.snpAnswered p g.toNat).modPort p fun x => { x with wbs := x.wbs.concat g.toNat }).answerRun
        { agent := p, dat := false, op := 0x05, ga := g.toNat })) ∧
      exec (.rspCnS p g) s = .next (s.after (s.d.answerRun { agent := p, dat := false, op := 0x07, ga := g.toNat })) ∧
      exec (.rspCnX p g) s = .next (s.after (s.d.answerRun { agent := p, dat := false, op := 0x08, ga := g.toNat })) ∧
      exec (.rspCnO p g) s = .next (s.after (s.d.answerRun { agent := p, dat := false, op := 0x09, ga := g.toNat })) ∧
      (∀ poison dat,
        exec (.datSnpC p g poison dat) s = .next (s.after ((s.d.snpAnswered p g.toNat).answerRun
          { agent := p, dat := true, op := 0x0A, ga := g.toNat, poison := poison, data := dat })) ∧
        exec (.datSnpD p g poison dat) s = .next (s.after ((s.d.snpAnswered p g.toNat).answerRun
          { agent := p, dat := true, op := 0x0B, ga := g.toNat, poison := poison, data := dat }))) ∧
      (∀ (peer : Fin 16) poison dat, peer ≠ p → s.d.portEn peer = true →
        exec (.datS p g peer poison dat) s = .next (s.after ((s.d.toAgent peer
          { cls := .dat, op := 0x01, gaddr := g, peer := BitVec.ofNat 4 p.val, poison := poison, data := some dat }).sampleFwd
            (s.d.homeOf g.toNat) peer g.toNat true)) ∧
        exec (.datE p g peer poison dat) s = .next (s.after ((s.d.toAgent peer
          { cls := .dat, op := 0x02, gaddr := g, peer := BitVec.ofNat 4 p.val, poison := poison, data := some dat }).sampleFwd
            (s.d.homeOf g.toNat) peer g.toNat true)) ∧
        exec (.datM p g peer poison dat) s = .next (s.after ((s.d.toAgent peer
          { cls := .dat, op := 0x03, gaddr := g, peer := BitVec.ofNat 4 p.val, poison := poison, data := some dat }).sampleFwd
            (s.d.homeOf g.toNat) peer g.toNat true))))

/-- R190: data of an owner reaches the transmit buffer of the port that PEER names, with the owner's ID in its PEER field, and no slice but the sample record of its home changes. -/
def Obligations.OwnerDataIsSteeredToItsReceiver : Prop :=
  ∀ (d : Data) (q : Agent) (it : TxItem), d.ports[q].iso = false → it.cls = .dat →
    (d.toAgent q it).ports[q].tx = d.ports[q].tx.concat { it with since := d.now } ∧
    (∀ p, p ≠ q → (d.toAgent q it).ports[p] = d.ports[p]) ∧ (d.toAgent q it).slices = d.slices ∧ (d.toAgent q it).regs = d.regs

/-- Completion of the cache controls (R121 to R125): where the write reaches its register, SLC_DIS_GO disables a cache that holds nothing dirty, SLC_EN_GO enables a disabled one that is not stale, CBYP_DIS_GO and CBYP_EN_GO do so for a region. -/
def Obligations.CacheControlsComplete : Prop :=
  (∀ (n : Fin 8) (s : State), s.Reaches (Reg.slcCdis n.val) →
    (s.d.slices[n].cdis = false → s.d.rangeDirty n none = false →
      exec (.slcDisGo n) s = .next (s.after (((((s.d.regWrite (Reg.slcCdis n.val) 1 1).modSlice n
        fun x => { x with cdis := true, cdisAt := s.d.seq }).rangeSide n none).evSlc n 8)))) ∧
    (s.d.slices[n].cdis = true → s.d.flag (Reg.slcCdis n.val) 3 = false →
      exec (.slcEnGo n) s = .next (s.after (((s.d.regWrite (Reg.slcCdis n.val) 2 2).modSlice n
        fun x => { x with cdis := false }).evSlc n 9)))) ∧
  (∀ (r : BitVec 6) (s : State), s.Reaches Reg.topCbypCtl →
    (s.d.byp.getLsbD r.toNat = false → s.d.reload = none → (∀ n ∈ s.d.activeSlices, s.d.rangeDirty n (some r.toNat) = false) →
      exec (.cbypDisGo r) s = .next (s.after ((s.d.activeSlices.foldl (fun (d : Data) n => d.rangeSide n (some r.toNat))
        { s.d.regWrite Reg.topCbypCtl (r.setWidth 32 ||| 0x40) 0xFF with
          byp := setBit s.d.byp r.toNat true, bypAt := SMap.set 0 s.d.bypAt r.toNat s.d.seq }).evSlices 8))) ∧
    (s.d.byp.getLsbD r.toNat = true → s.d.bypStale.getLsbD r.toNat = false →
      exec (.cbypEnGo r) s = .next (s.after (({ s.d.regWrite Reg.topCbypCtl (r.setWidth 32 ||| 0x80) 0xFF with
          byp := setBit s.d.byp r.toNat false } : Data).evSlices 9))))

/-- Completion of GO, RELOAD_SWITCH, RELOAD_TIMEOUT, RLD and RELOAD_PARTNER_TIMEOUT (R61 to R65). -/
def Obligations.ReloadCommandsComplete : Prop :=
  (∀ (s : State) (o r : Rig), s.Reaches Reg.rigReload → s.d.reload = none → s.d.byp = 0 → s.d.rig = some o →
    rigCheck s.d.fuses (!o.slot) (fun a n => flashRead s.m.flash (flRig (!o.slot) + a) n) (some o) = .ok r →
    s.d.rangeOwned (regionDiff cleansed o.regions r.regions) = false →
    exec .go s = .next (s.after ((regionDiff cleansed o.regions r.regions).foldl
      (fun (d : Data) x => d.mntAccept .reload d.serving 2 0 (x.1 / 32) (x.2 / 32) 0 0 none)
      { s.d.regWrite Reg.rigReload 1 1 with
        rigErr := 0, rigErrSec := 0
        reload := some
          { rig := r, start := s.d.now, hold := regionDiff affected o.regions r.regions
            clean := regionDiff cleansed o.regions r.regions } }))) ∧
  (∀ (s : State) (r : Reload), s.d.reload = some r →
    (r.ready = true → s.d.reloadQuiet r = true →
      (s.d.pair.st ≠ .paired ∨ (s.d.pair.rld = some (BitVec.ofNat 32 r.rig.seq) ∧ r.readyAt < s.d.pair.rldAt + ms 10)) →
      exec .reloadSwitch s = .next (s.after (s.d.reloadApply r.rig))) ∧
    (r.start + ms 50 ≤ s.d.now → exec .reloadTimeout s = .next (s.after (s.d.reloadAbandon 0x0F))) ∧
    (r.ready = true → s.d.pair.st = .paired → s.d.pair.rld ≠ some (BitVec.ofNat 32 r.rig.seq) → r.readyAt + ms 10 ≤ s.d.now →
      exec .reloadPartnerTimeout s = .next (s.after (s.d.reloadAbandon 0x11)))) ∧
  (∀ (seq : Word) (s : State), s.d.pair.st = .paired →
    exec (.rld seq) s = .next (s.after (s.d.modPair fun p => { p with rld := some seq, rldAt := s.d.now })))

/-- Completion of the event and counter commands (R313, R315, R319, R321, R326 to R330). -/
def Obligations.EventAndCounterCommandsComplete : Prop :=
  (∀ s : State, s.d.pwr.boot ≠ .off →
    exec .eventTick s = .next (s.afterDM (({ s.begun with d := s.d.creditTick.eventTick } : DM).logTick
      s.d.creditTick.evt.latch s.d.creditTick.eventTick.evt.tick.toNat))) ∧
  (∀ s : State, s.d.domUp 2 = true →
    exec .eventQueuePush s = .next (s.after ((s.d.evt.list.take 32).foldl (fun (d : Data) x => (d.qItem x.1 [x.2]).1)
      (s.d.modEvt fun e => { e with list := e.list.drop 32 }))) ∧
    (s.d.pmc.snap = true → s.d.pmc.edgeAt = some s.d.now →
      exec .snapshot s = .next (s.after ((({ s.d with pmc := { s.d.pmc with cnt := s.d.pmc.edge } } : Data).snapTake).modPmc fun p =>
        { p with cnt := s.d.pmc.cnt }))) ∧
    (s.d.fld Reg.pmcCtl 16 16 ≠ 0 → s.d.pmc.lastSnap.toNat + s.d.fld Reg.pmcCtl 16 16 * 1024 ≤ s.d.evt.tick.toNat →
      exec .snapshotPeriodExpiry s = .next (s.after (s.d.modPmc fun p => { p with snap := true })))) ∧
  (∀ s : State,
    (s.Reaches Reg.evtForce → ∀ src : BitVec 10, exec (.evtForce src) s = .next (s.after ((s.d.regWrite Reg.evtForce (src.setWidth 32 ||| 0x400) 0x7FF).evForce src))) ∧
    (s.Reaches Reg.pmcCtl →
      exec .snap s = .next (s.after ((s.d.regWrite Reg.pmcCtl 1 1).modPmc fun p => { p with snap := true })) ∧
      exec .clrAll s = .next (s.after ((s.d.regWrite Reg.pmcCtl 2 2).modPmc fun p => { p with clr := true }))) ∧
    (∀ v : Word,
      (s.Reaches Reg.pmcWvalHi → exec (.pmcWvalHi v) s = .next (s.after (s.d.regWrite Reg.pmcWvalHi v 0xFFFFFFFF).pmcLoad)) ∧
      (s.Reaches Reg.pmcSmpSeed → exec (.pmcSmpSeed v) s = .next (s.after (s.d.regWrite Reg.pmcSmpSeed v 0xFFFFFFFF).lfsrSeed)))) ∧
  (∀ (p : Fin 16) (v : Byte) (s : State), s.Reaches (Reg.aptSwev p.val) →
    exec (.aptSwev p v) s = .next (s.after ((s.d.regWrite (Reg.aptSwev p.val) (v.setWidth 32) 0xFF).swev p v)))

/-- Completion of the register accesses by MGQ and by the management cluster, of posted writes and of mailboxes (R211, R335 to R350). -/
def Obligations.RegisterAccessesComplete : Prop :=
  (∀ (p : Fin 16) (tag : Byte) (a : Word) (w64 : Bool) (be : Byte) (v : Dword) (s : State), s.d.portOpen p = true →
    exec (.regRd p tag a w64) s = .next (s.after (s.d.modPort p fun x =>
      { x with mgqIn := x.mgqIn.concat (.regRd tag a w64 (s.d.regOk p a.toNat false 0 0), false) })) ∧
    exec (.regWr p tag a w64 be v) s = .next (s.after (s.d.modPort p fun x =>
      { x with mgqIn := x.mgqIn.concat (.regWr tag a w64 be v (s.d.regOk p a.toNat true be v), false) })) ∧
    (s.d.domUp 1 = true → s.d.ports[p].mgqIn = [] → ∀ (m : Fin 8) (k : Fin 12),
      (∀ width : AccWidth, 4 ≤ accBytes width → exec (.registerWrite p.castSucc a width be v) s = .next (s.afterDM
        (s.begun.agentWrite p a.toNat (accBytes width == 8) be v (s.d.regOk p a.toNat true be v)).1)) ∧
      exec (.rcFieldRead p.castSucc a w64) s = .next (s.afterDM (s.begun.agentRead p a.toNat w64 (s.d.regOk p a.toNat false 0 0)).1) ∧
      exec (.mbxDataRead m p.castSucc k) s = .next (s.afterDM (s.begun.agentRead p (Reg.mbxD m.val k.val) false
        (s.d.regOk p (Reg.mbxD m.val k.val) false 0 0)).1))) ∧
  (∀ (a : Word) (width : AccWidth) (be : Byte) (v : Dword) (s : State), s.clusterUp →
    (accCause a.toNat (accBytes width) true false = none → (regNear a.toNat = true ∨ s.d.compact = true) →
      exec (.registerWrite 16 a width be v) s = .next (s.afterDM (s.begun.writeNow 16 a.toNat (accBytes width) be.toNat v))) ∧
    (∀ w64, accCause a.toNat (if w64 then 8 else 4) false false = none →
      exec (.rcFieldRead 16 a w64) s = .next (s.afterDM (DM.readKeep (s.begun.fabricRead 16 a.toNat (if w64 then 8 else 4)) 16).1))) ∧
  (∀ (m : Fin 8) (k : Fin 12) (v : Word) (s : State), s.clusterUp →
    s.d.quiet 16 (Reg.mbxSel m.val) → s.d.quiet 16 (Reg.mbxAck m.val) →
    exec (.mbxSel m 16 v) s = .next (s.after ((s.d.regWrite (Reg.mbxSel m.val) v 0xFFFFFFFF).modMbx m fun x =>
      { x with sel := v, owner := 16, valid := false, pend := true, start := s.d.now })) ∧
    exec (.mbxAck m 16) s = .next (s.after ((s.d.regWrite (Reg.mbxAck m.val) 1 0xFFFFFFFF).modMbx m fun x =>
      { x with valid := x.valid && (x.pend || x.doneAt == some s.d.now) })) ∧
    (s.d.mbx[m].pend = true →
      exec (.mbxDataRead m 16 k) s = .next (s.afterDM (DM.readKeep ({ s.begun with d := (s.d.modMbx m fun x => { x with early := true }).stamp (Reg.mbxStat m.val) 4 },
        (s.begun.view 16 (Reg.mbxD m.val k.val)).setWidth 64) 16).1))) ∧
  (∀ (m : Fin 8) (s : State), s.d.mbx[m].pend = true →
    ∃ err ws, exec (.mbxFillComplete m) s = .next (s.after (s.d.modMbx m fun x =>
      { x with pend := false, valid := true, doneAt := some s.d.now, err := err, data := ws }))) ∧
  (∀ (r : Requester) (p : Posted) (rest : List Posted) (s : State), s.d.banks[r].posted = p :: rest →
    exec (.postedWriteEffect r) s = .next (s.afterDM (({ s.begun with d := s.d.modBank r fun b => { b with posted := rest } } : DM).writeNow
      r p.a.toNat (accBytes p.width) p.be.toNat p.d)) ∧
    (p.start + us 2 ≤ s.d.now →
      exec (.farAccessTimeout { who := r }) s = .next (s.after
        (((s.d.modBank r fun b => { b with posted := rest }).accError r 4 p.a.toNat).evMgt 2)))) ∧
  (∀ (a : FarAcc) (s : State), s.begun.farStalls 16 a = true → s.d.banks[(16 : Fin 17)].posted = [] →
    (a.write = true → exec (.farAccessTimeout { who := 16, lost := some a }) s = .next (s.after ((s.d.accError 16 4 a.a.toNat).evMgt 2))) ∧
    (a.write = false → exec (.farAccessTimeout { who := 16, lost := some a }) s = .next (s.after
      (((s.d.accError 16 4 a.a.toNat).evMgt 2).modBank 16 fun b => { b with read := DM.allOnes (accBytes a.width) })))) ∧
  (∀ (d : Data) (r : Requester) (c : BitVec 3) (a : Nat),
    (d.accError r c a).banks[r].accErr = true ∧ (d.accError r c a).banks[r].cause = c ∧
    (d.accError r c a).banks[r].errAddr = BitVec.ofNat 32 a ∧ (d.accError r c a).banks[r].posted = d.banks[r].posted ∧
    (∀ q, q ≠ r → (d.accError r c a).banks[q] = d.banks[q]) ∧ (d.accError r c a).regs = d.regs ∧ (d.accError r c a).slices = d.slices)

/-- Completion of the queue commands (R295 to R308). -/
def Obligations.QueueCommandsComplete : Prop :=
  (∀ (p : Fin 16) (tag : Byte) (q : BitVec 14) (s : State), s.d.portOpen p = true →
    (∀ eop poison (v : PoolWord 64), exec (.qPush p tag q eop poison v) s = .next (s.after (s.d.modPort p fun x =>
      { x with mgqIn := x.mgqIn.concat (.push tag q eop poison v.bits (s.d.perm p) v.upset, false) }))) ∧
    ∀ upset, exec (.qPop p tag q upset) s = .next (s.after (s.d.modPort p fun x =>
      { x with mgqIn := x.mgqIn.concat (.pop tag q upset (s.d.perm p), false) }))) ∧
  (∀ (q : BitVec 14) (s : State) (r : QRec), s.clusterUp → s.d.domUp 2 = true → s.d.qRec q.toNat = some r →
    (r.owner = 0x10 ∨ r.owner = 0x11 → s.Reaches (Reg.quedPushHi q.toNat) → ∀ v : PoolWord 32, exec (.quePushHi q v) s = .next (s.after
      (((s.d.regWrite (Reg.quedPushHi q.toNat) v.bits 0xFFFFFFFF).qPush r q.toNat
        (qWord (v.bits ++ s.d.reg (Reg.quedPushLo q.toNat)) (s.d.flag (Reg.quedCtl q.toNat) 2) (s.d.flag (Reg.quedCtl q.toNat) 3)) none
          v.upset).1))) ∧
    (r.owner = 0x10 ∨ r.owner = 0x11 → s.d.banks[(16 : Fin 17)].posted = [] → ∀ upset,
      exec (.quePopLo q upset) s = .next (s.after ((s.d.qPopLo q.toNat upset).1.modBank 16 fun b =>
        { b with read := (s.d.qPopLo q.toNat upset).2.setWidth 64 }))) ∧
    (s.Reaches (Reg.quedCtl q.toNat) → (s.d.que1 q.toNat).pushAt ≠ some s.d.qCycle →
      ∃ head, exec (.flush q) s = .next (s.after ((s.d.regWrite (Reg.quedCtl q.toNat) 1 1).modQue q.toNat fun x =>
        { x with words := [], opn := .none, opener := none, resync := x.resync || decide (x.opn ≠ .none), gapPend := 0,
                 trunc := false, part := false, head := 0, tail := 0, timer := none, flushAt := some s.d.qCycle, flushHead := head })))) ∧
  (∀ (q : BitVec 14) (s : State) (r : QRec), s.d.qRec q.toNat = some r →
    (∀ t, (s.d.que1 q.toNat).timer = some t → s.d.domUp 2 = true → s.d.fld (Reg.quedStale q.toNat) 0 16 ≠ 0 →
      t + us (10 * s.d.fld (Reg.quedStale q.toNat) 0 16) ≤ s.d.now →
      exec (.queueStaleTimeout q) s = .next (s.after (((s.d.modQue q.toNat fun x =>
        { x with stale := true, timer := none, expired := true }).stampQue q.toNat 21).qEv 0 q.toNat))) ∧
    ((s.d.que1 q.toNat).gapPend ≠ 0 → (s.d.que1 q.toNat).opn = .none → (s.d.que1 q.toNat).resync = false →
      (s.d.que1 q.toNat).words.length < r.depth →
      exec (.gapMarker q) s = .next (s.after ((s.d.qLand r q.toNat
        (qWord (BitVec.ofNat 64 (0xFE + (s.d.que1 q.toNat).gapPend * 2 ^ 24)) true) .none none).modQue q.toNat fun x =>
          { x with gapPend := 0 }))))

/-- Completion of PASS_ADMISSION, WAIT_LIST_READMISSION, RETRY_REENTRY, BINV, FILL, STORE_READ_RETURN, PREFETCH and PREFETCH_DATA (R92 to R102, R116 to R118, R138, R153, R263): the pass that is due runs, the data that comes is merged and written. -/
def Obligations.SlicePassesComplete : Prop :=
  (∀ (n : Fin 8) (s : State), s.d.running n = true →
    (∀ c : Cand,
      (s.d.admitNext n = some c → exec (.passAdmission n .none) s = .next (s.after (c.run s.d))) ∧
      (∀ u d, u ≠ .none → s.d.modSlice n (fun x => { x with latent := u }) = d → d.admitNext n = some c →
        exec (.passAdmission n u) s = .next (s.after (c.run d)))) ∧
    (∀ w, minBy (·.seq) ((s.d.listHeads n).filter (s.d.listFree n)) = some w →
      exec (.waitListReadmission n) s = .next (s.after (s.d.runAny n w))) ∧
    (∀ (dset : BitVec 14) w, minBy (·.seq) (s.d.slices[n].waiters.filter fun w =>
        dsetOf w.kind.ga = dset.toNat && s.d.cleared n w) = some w →
      exec (.retryReentry n dset) s = .next (s.after (s.d.runWaiter n w))) ∧
    (∀ (i : BitVec 6) (d0 d1 : Gran) (p0 p1 : Bool) (e : MtEnt),
      s.d.slices[n].mt.find? (fun e => e.idx == i.toNat && e.issued.isSome && !e.zero && !e.failed && e.got.isNone) = some e →
      ∀ x, x = SecData.zeroed { d0 := d0, d1 := d1, p0 := p0, p1 := p1 } e.zs →
      exec (.fill n i d0 d1 p0 p1) s = .next (s.after (s.d.withLookup n e.first fun d =>
        ((d.pmcSlc n 1).readDone e.first (zsReads e.zs) e.issued (x.p0 || x.p1)).mtData n e x))) ∧
    (∀ sec rest, s.d.slices[n].pf = sec :: rest →
      exec (.prefetch n) s = .next (s.after (s.d.pfStep n))) ∧
    (∀ (i : BitVec 5) (d0 d1 : Gran) (p0 p1 : Bool) (k : Fin 32) (e : SideEnt), k.val = i.toNat → s.d.slices[n].side[k] = e →
      e.st = .pend → e.issued.isSome = true →
      ∀ x, x = SecData.zeroed { d0 := d0, d1 := d1, p0 := p0, p1 := p1 } e.zs →
      exec (.prefetchData n i d0 d1 p0 p1) s = .next (s.after (s.d.withLookup n (2 * e.sec) fun d =>
        (d.readDone (2 * e.sec) (zsReads e.zs) e.issued (x.p0 || x.p1)).sideArrive n k x)))) ∧
  (∀ (n : Fin 8) (s : State),
    (∀ w, minBy (·.seq) (s.d.slices[n].waiters.filter (s.d.binvReady n)) = some w →
      exec (.binv n) s = .next (s.after (s.d.runWaiter n w))) ∧
    (∀ r rs, s.d.slices[n].stRd = r :: rs →
      exec (.storeReadReturn n) s = .next (s.after (((s.d.modSlice n fun x => { x with stRd := rs }).toAgent r.port r.item).sampleEnd
        n r.port r.item.gaddr.toNat s.d.smpClock false)))) ∧
  (∀ (n : Fin 8) (d : Data) (ga : Nat) (f : Data → Data),
    (d.slices[n].latent = .none → d.withLookup n ga f = f d) ∧
    (∀ w, d.slices[n].latent = .tag w false → d.withLookup n ga f = f
      (((((d.modSlice n fun x => { x with latent := .none }).tagCapture n (setOf (lineOf ga)) w.val false false).fldCnt
        (Reg.slcTagCe n.val) 0 16 1).pmcSlc n 35).evSlc n 1)) ∧
    (∀ w, d.slices[n].latent = .tag w true → d.withLookup n ga f =
      (((d.modSlice n fun x => { x with latent := .none }).tagCapture n (setOf (lineOf ga)) w.val false true).evSlc n 2).sliceFault n))

/-- Completion of DIRECTORY_FETCH_RETURN and SPILL_BACKSTOP_WRITE (R136, R137): the backstop set read, an entry found moves to the pinned on-die way, a spilled entry takes an invalid entry of its set. -/
def Obligations.DirectoryTransfersComplete : Prop :=
  (∀ (n : Fin 8) (s : State) (f : Fetch) (fs : List Fetch) (d : Data) (es : List DirEnt),
    s.d.slices[n].fetches = f :: fs → (s.d.modSlice n fun x => { x with fetches := fs }).bstRead n (bsetOf f.ga) = (d, some es) →
    (es.find? (fun e => e.base != .i && e.ga == f.ga) = none →
      exec (.directoryFetchReturn n) s = .next (s.after ((d.dirPut n f.key {}).modSlice n fun x => { x with absent := x.absent.concat f.ga }))) ∧
    (∀ e, es.find? (fun e => e.base != .i && e.ga == f.ga) = some e → e.cns = false →
      exec (.directoryFetchReturn n) s = .next (s.after
        ((d.bstWrite n (bsetOf f.ga) es (es.map fun x => if x.base != .i && x.ga == f.ga then {} else x)).dirPut n f.key { e with pin := false })))) ∧
  (∀ (n : Fin 8) (s : State) (x : Spill) (d : Data) (es : List DirEnt) (w : Nat), s.d.spillNext n = some x → x.e.cns = false →
    s.d.bstRead n (bsetOf x.e.ga) = (d, some es) → es.findIdx? (fun e => e.base == .i) = some w →
    exec (.spillBackstopWrite n) s = .next (s.after
      (((d.bstWrite n (bsetOf x.e.ga) es (es.set w { x.e with pin := false })).pmcSlc n 26).modSlice n fun y =>
        { y with spill := y.spill.filter (fun z => z.e.ga != x.e.ga), absent := y.absent.filter (· != x.e.ga) })))

/-- Completion of the timers of a slice when they are due (R107, R118, R154, R172, R224). -/
def Obligations.SliceTimersComplete : Prop :=
  (∀ (n : Fin 8) (s : State),
    exec (.holdExpiry n) s = .next (s.after (s.d.modSlice n fun x => { x with
      holds := x.holds.filter fun h => decide (s.d.now < h.expiry) })) ∧
    (∀ i : BitVec 6, exec (.combineExpiry n i) s = .next (s.after (s.d.modWb n
      (fun e => e.idx == i.toNat && Data.wbOpen e && decide (e.made + s.d.fld (Reg.slcWbCfg n.val) 0 8 ≤ s.d.now)) fun e => { e with issued := true }))) ∧
    (∀ (i : BitVec 5) (k : Fin 32), k.val = i.toNat → s.d.fld (Reg.slcPfCfg n.val) 4 4 ≠ 0 →
      (s.d.slices[n].side[k].st = .ready ∨ s.d.slices[n].side[k].st = .used) →
      s.d.slices[n].side[k].since + s.d.fld (Reg.slcPfCfg n.val) 4 4 * 1024 ≤ s.d.now →
      exec (.sideBufferAgeOut n i) s = .next (s.after (s.d.sideFree n k)))) ∧
  (∀ (n : Fin 8) (ga : BitVec 36) (s : State),
    (∀ h a l, s.d.hteFind n ga.toNat = some h → agents h.pend ++ (h.wbsrc.toList.filter fun a => !h.pend.getLsbD a.val) = a :: l →
      h.start + 16 + s.d.snpTime n ≤ s.d.now →
      exec (.snoopAnswerTimeout n ga) s = .next (s.after ((a :: l).foldl (fun (d : Data) a => d.isolate a)
        (((s.d.tmoCap n a.val 0 ga.toNat).evSlc n 16).modHte n ga.toNat fun h => { h with start := s.d.now })))) ∧
    (∀ (p : Fin 16) (o : Owed), s.d.slices[n].owed.find? (fun o => o.ga == ga.toNat && o.agent == p && o.timer.isSome) = some o →
      o.timer.getD 0 + 16 + s.d.snpTime n ≤ s.d.now →
      exec (.owedAnswerTimeout n ga p) s = .next (s.after (Data.isolate (((s.d.tmoCap n p.val 1 ga.toNat).evSlc n 16).modSlice n
        fun x => { x with owed := x.owed.erase o }) p)))) ∧
  (∀ (n : Fin 8) (i : BitVec 6) (s : State),
    (∀ (e : MtEnt) t, s.d.slices[n].mt.find? (fun e => e.idx == i.toNat && e.got.isNone && !e.zero && !e.failed) = some e →
      e.issued = some t → t + s.d.fillTime n ≤ s.d.now →
      exec (.backingReadTimeout n false i) s = .next (s.after (((s.d.tmoCap n 0 2 e.first).evSlc n 17).mtFailed n e))) ∧
    (∀ (e : WbEnt) t, s.d.mayWrite = true → s.d.slices[n].wb.find? (fun e => e.idx == i.toNat) = some e → e.sent = some t →
      t + s.d.wackTime n ≤ s.d.now →
      (e.tries = 0 → exec (.backingWriteTimeout n i) s = .next (s.after
        ((((((s.d.tmoCap n 0 3 e.ga).evSlc n 18).modWb n (fun x => x.uid == e.uid) fun x => { x with sent := some s.d.now, tries := 1 }).fldCnt
          (Reg.bkpErrCnt (s.d.bkpOf e.ga).val) 16 16 1).evBkp (s.d.bkpOf e.ga) 3).pmcBkp (s.d.bkpOf e.ga) 5))) ∧
      (e.tries ≠ 0 → exec (.backingWriteTimeout n i) s = .next (s.after
        (((s.d.tmoCap n 0 3 e.ga).evSlc n 18).bkpFailPort (s.d.bkpOf e.ga)))))) ∧
  (∀ (n : Fin 8) (s : State),
    (∀ f fs, s.d.slices[n].fetches = f :: fs → f.start + us 20 ≤ s.d.now →
      exec (.storeDirectoryTimeout n) s = .next (s.after (((s.d.tmoCap n 0 4 f.ga).evSlc n 19).sliceFault n))) ∧
    (∀ w r, minBy (·.seq) (s.d.slices[n].waiters.filter (s.d.retryDue n)) = some w → w.kind = .req r →
      exec (.retryWaitTimeout n) s = .next (s.after (((s.d.tmoCap n r.agent.val 5 r.ga).evSlc n 20).putWaiter n { w with reported := true }))) ∧
    (∀ w, minBy (·.seq) (s.d.slices[n].waiters.filter s.d.budgetDue) = some w →
      exec (.budgetWaitTimeout n) s = .next (s.after (((s.d.fldCnt Reg.durStallCnt 0 32 1).evDur 3).putWaiter n
        { w with rel := true })))) ∧
  (∀ (d : Data) (n : Fin 8) (w : Waiter) (r : Req) (t : Nat), w.kind = .req r →
    (d.slices[n].waiters.any fun x => dsetOf x.kind.ga == dsetOf r.ga && d.wbTurn n x) = false → d.olderRetry n w.seq r.ga = false →
    (w.loc = .retry (.hold t) → r.op ≠ 6 → d.cleared n w = decide (t ≤ d.now)) ∧
    (w.loc = .retry (.budget t) → r.op ≠ 6 → d.cleared n w = (w.rel || !d.bud || d.dur.tr.isSome)))

/-- Completion of WB_ENTRY_SEND and BACKING_WRITE_ACK (R106, R107, R217, R383, R391, R392, R398). -/
def Obligations.WriteBufferCommandsComplete : Prop :=
  (∀ (b : Fin 4) (n : Fin 8) (e : WbEnt) (s : State), s.d.bkps[b].st = .ready → s.d.mayWrite = true → s.d.domUp (Data.bkpDom b) = true →
    minBy (fun x => x.2.uid) (allSlices.flatMap fun n => (s.d.wbSendable n b).map fun e => (n, e)) = some (n, e) →
    s.d.dur.tr = none → e.be = BitVec.allOnes 64 →
    exec (.wbEntrySend b) s = .next (s.after ((s.d.modWb n (fun x => x.uid == e.uid) fun x => { x with sent := some s.d.now }).pmcBkp b 1))) ∧
  (∀ (n : Fin 8) (i : BitVec 6) (e : WbEnt) (s : State), i.toNat < 48 → s.d.mayWrite = true →
    s.d.slices[n].wb.find? (fun e => e.idx == i.toNat && e.sent.isSome) = some e → (e.kind = .wt ∨ e.kind = .na) → e.dur = false →
    exec (.backingWriteAck n i) s = .next (s.after (s.d.withLookup n e.ga fun d => (((((d.pmcSlc n 1).modSlice n fun x =>
      { x with wb := x.wb.filter fun y => y.uid != e.uid }).ackCount e.ga).mntAcked n e).issueReads n).ledgerSettle))) ∧
  (∀ (n : Fin 8) (s : State), exec (.backingWriteAck n 51) s = .next (s.after (s.d.modPair fun p => { p with witSent := none })))

/-- Completion of the commands that train a link (R179, R180, R183, R195, R206, R215): detection, training sets, equalisation, the limits of its states, DIS and RETRAIN. -/
def Obligations.LinkTrainingCompletes : Prop :=
  (∀ (l : LinkId) (s : State),
    (s.d.links[l].st = .detect →
      exec (.receiverDetected l) s = .next (s.after ((s.d.linkEnter l .train).stsDrive l 1)) ∧
      (s.d.links[l].entered + ms 12 ≤ s.d.now → exec (.detectTimeout l) s = .next (s.after (s.d.linkEnter l .detect)))) ∧
    (∀ (lane : Fin 16) (w : BitVec 256), Data.laneOk l lane = true → s.d.links[l].st = .train → s.d.links[l].pol.getLsbD lane.val = false →
      (stsOk w 1 = true → exec (.sts1 l lane w) s = .next (s.after ((s.d.stsCount l lane w false).trainDone l))) ∧
      (stsOk w 2 = true → exec (.sts2 l lane w) s = .next (s.after ((s.d.stsCount l lane w false).trainDone l))) ∧
      (stsOk w 1 = false → stsOk (~~~w) 1 = true → exec (.sts1 l lane w) s = .next (s.after
        (((s.d.modLink l fun x => { x with pol := setBit x.pol lane.val true }).stsCount l lane (~~~w) false).trainDone l)))) ∧
    (∀ (lane : Fin 16) (w : BitVec 256), Data.laneOk l lane = true → s.d.links[l].st = .cfg → s.d.links[l].pol.getLsbD lane.val = false →
      stsOk w 2 = true → nbit (stsByte w 8) 1 ≠ s.d.linkRole l → stsByte w 5 = lane.val →
      exec (.sts2 l lane w) s = .next (s.after ((s.d.stsCount l lane w true).cfgDone l))) ∧
    (∀ w : BitVec 256, s.d.links[l].st = .init → s.d.links[l].pol.getLsbD 0 = false → stsOk w 3 = true →
      exec (.sdm l 0 w) s = .next (s.after ((s.d.modLink l fun x => { x with sdm := x.sdm + 1 }).initDone l))) ∧
    (s.d.linkOver l .train (ms 24) = true → exec (.trainTimeout l) s = .next (s.after (s.d.linkFail l))) ∧
    (s.d.linkOver l .cfg (ms 2) = true → exec (.cfgTimeout l) s = .next (s.after (s.d.linkFail l))) ∧
    (s.d.linkOver l .init (ms 1) = true → exec (.initTimeout l) s = .next (s.after (s.d.linkFail l))) ∧
    (s.d.links[l].st = .eq64 →
      exec (.equalisationComplete l) s = .next (s.after ((s.d.modLink l fun x => { x with eq64 := true }).linkInit l)) ∧
      exec (.equalisationFailure l) s = .next (s.after (((s.d.modLink l fun x => { x with rate := 1 }).linkInit l).linkDegrade l))) ∧
    (s.d.links[l].st = .eq32 →
      exec (.equalisationFailure l) s = .next (s.after (((s.d.modLink l fun x => { x with rate := 2 }).linkInit l).linkDegrade l)))) ∧
  (∀ (d : Data) (l : LinkId),
    (d.links[l].st = .train → d.stsSent l 16 2 = true → ((d.widths l).any fun n => d.trained l n) = true →
      d.trainDone l = ((d.linkEnter l .cfg).modLink l fun x => { x with sts2 := Vector.replicate 16 0 }).stsDrive l 2) ∧
    ((d.stsSent l 16 2 = false ∨ ((d.widths l).any fun n => d.trained l n) = false) → d.trainDone l = d) ∧
    (d.links[l].st = .init → d.links[l].initOk = true → 4 ≤ d.links[l].sdm → d.stsSent l 4 d.links[l].rate.toNat = true →
      d.initDone l = d.linkUp_ l) ∧
    ((d.links[l].initOk = false ∨ d.links[l].sdm < 4 ∨ d.stsSent l 4 d.links[l].rate.toNat = false) → d.initDone l = d)) ∧
  (∀ (p : Fin 16) (s : State), s.Reaches (Reg.aptLinkCtl p.val) →
    (s.d.links[Data.aptLink p].st = .active →
      exec (.dis p) s = .next (s.after (((s.d.regWrite (Reg.aptLinkCtl p.val) 1 1).flagSet (Reg.aptLinkCtl p.val) 0 true).linkDown (Data.aptLink p)))) ∧
    (s.d.links[Data.aptLink p].st = .down → s.d.flag (Reg.aptLinkCtl p.val) 0 = false →
      exec (.retrain p) s = .next (s.after ((s.d.regWrite (Reg.aptLinkCtl p.val) 2 2).linkDetect (Data.aptLink p)))))

/-- Completion of PAYLOAD, NOP, BAD_FLIT, NAK_RESEND_TIMEOUT, REPLAY_TIMEOUT, LANE_LOCK_LOST, RECOVER_COMPLETE and RECOVER_TIMEOUT (R182, R201 to R204, R180). -/
def Obligations.FlitCommandsComplete : Prop :=
  (∀ (l : LinkId) (s : State) (w : BitVec 2048), s.d.links[l].st = .active →
    (∀ b, Data.flitIn w = some b →
      (bits (leAt b 0 2) 0 2 = 1 → exec (.payload l w) s = .next (s.after ((s.d.flitTake l w).payloadRecv l b))) ∧
      (bits (leAt b 0 2) 0 2 = 0 → (∀ x ∈ Data.flitSlots b, bits x.toNat 0 4 ≠ 2) →
        exec (.nop l w) s = .next (s.after (s.d.flitTake l w))))) ∧
  (∀ (l : LinkId) (s : State) (w : BitVec 2048), (s.d.links[l].st = .active ∨ s.d.links[l].st = .init) → Data.flitIn w = none →
    (∀ p, Data.linkPort l = some p → exec (.badFlit l w) s = .next (s.after
      (((((s.d.flitTake l w).fldCnt (Reg.aptErrCnt p.val) 0 12 1).pmcApt p 2).evApt p 5).nakSend l))) ∧
    (Data.linkPort l = none → exec (.badFlit l w) s = .next (s.after (((s.d.flitTake l w).tally 510).nakSend l)))) ∧
  (∀ (l : LinkId) (s : State) (w : BitVec 2048) b x, s.d.links[l].st = .init → Data.flitIn w = some b → bits (leAt b 0 2) 0 2 = 0 →
    (Data.flitSlots b).find? (fun s => bits s.toNat 0 4 == 2) = some x →
    ((List.finRange 5).all fun c => decide ((minGrant l)[c] ≤ (lnkCredits x)[c].toNat)) = true →
    exec (.nop l w) s = .next (s.after (((s.d.flitTake l w).modLink l fun y => { y with recv := lnkCredits x, initOk := true }).initDone l))) ∧
  (∀ (l : LinkId) (s : State),
    (∀ t, s.d.links[l].nak = some t → t + us 2 ≤ s.d.now →
      exec (.nakResendTimeout l) s = .next (s.after (s.d.modLink l fun x => { x with nak := some s.d.now }))) ∧
    (s.d.links[l].st = .active →
      exec (.laneLockLost l) s = .next (s.after (s.d.linkRecover l)) ∧
      (∀ p, Data.linkPort l = some p → s.d.links[l].replay ≠ [] →
        s.d.links[l].ackAt + us (act1 (s.d.fld (Reg.aptTmoCfg p.val) 0 8)) ≤ s.d.now →
        exec (.replayTimeout l) s = .next (s.after ((s.d.evLink l 6).replay l)))) ∧
    (∀ lanes : BitVec 16, l = Data.shdLink → s.d.links[l].st = .recover →
      (lanes = BitVec.allOnes 16 → s.d.links[l].lanes = BitVec.allOnes 16 →
        exec (.recoverComplete l lanes) s = .next (s.after (((s.d.linkEnter l .active).modLink l fun x =>
          { x.scrReload with traffic := s.d.now }).replay l))) ∧
      (lanes ≠ BitVec.allOnes 16 → exec (.recoverComplete l lanes) s = .next (s.after (s.d.linkDown l)))) ∧
    (s.d.linkOver l .recover (ms 2) = true →
      (s.d.links[l].rate.toNat < 2 → exec (.recoverTimeout l) s = .next (s.after
        (((s.d.linkEnter l .recover).modLink l fun x => { x with rate := x.rate + 1 }).linkDegrade l))) ∧
      (2 ≤ s.d.links[l].rate.toNat → exec (.recoverTimeout l) s = .next (s.after (s.d.linkDown l))))) ∧
  (∀ (p : Fin 16) (lanes : BitVec 16) (s : State), s.d.links[Data.aptLink p].st = .recover → s.d.links[Data.aptLink p].width = 0 →
    (∀ k : Fin 16, k.val < 4 → lanes.getLsbD k.val = true ∧ s.d.links[Data.aptLink p].lanes.getLsbD k.val = true) →
    exec (.recoverComplete (Data.aptLink p) lanes) s = .next (s.after (((s.d.linkEnter (Data.aptLink p) .active).modLink (Data.aptLink p) fun x =>
      { x.scrReload with width := 0, lanes := 0xF, traffic := s.d.now }).replay (Data.aptLink p))))

/-- Completion of the L1 commands (R207, R208), of wakes from L1 and of the two credit waits (R200). -/
def Obligations.LowPowerAndCreditCommandsComplete : Prop :=
  (∀ (p : Fin 16) (s : State), s.d.links[Data.aptLink p].st = .active →
    (s.d.l1Ready p = true →
      (s.d.links[Data.aptLink p].l1Req ≠ none → exec (.l1Req p) s = .next (s.after (s.d.linkL1 (Data.aptLink p)))) ∧
      (s.d.links[Data.aptLink p].l1Req = none → exec (.l1Req p) s = .next (s.after
        ((s.d.modLink (Data.aptLink p) fun x => Link.nopOut { x with pm := 2 } s.d.now true).linkL1 (Data.aptLink p))))) ∧
    (s.d.l1Ready p = false → exec (.l1Req p) s = .next (s.after (s.d.modLink (Data.aptLink p) fun x => { x with pm := 3, l1Req := none }))) ∧
    (s.d.links[Data.aptLink p].l1Req ≠ none → exec (.l1Ack p) s = .next (s.after (s.d.linkL1 (Data.aptLink p)))) ∧
    (s.d.links[Data.aptLink p].lpok = true → s.d.fld (Reg.aptTmoCfg p.val) 24 8 ≠ 0 → s.d.txWaits p = false →
      s.d.links[Data.aptLink p].l1Req = none → s.d.links[Data.aptLink p].traffic + us (s.d.fld (Reg.aptTmoCfg p.val) 24 8) ≤ s.d.now →
      exec (.l1idleExpiry p) s = .next (s.after (s.d.modLink (Data.aptLink p) fun x => { x with pm := 1, l1Req := some s.d.now })))) ∧
  (∀ (p : Fin 16) (s : State),
    (∀ t, s.d.links[Data.aptLink p].l1Req = some t →
      exec (.l1Nak p) s = .next (s.after (s.d.modLink (Data.aptLink p) fun x => { x with pm := 0, l1Req := none })) ∧
      (t + us 2 ≤ s.d.now →
        exec (.l1AnswerTimeout p) s = .next (s.after (s.d.modLink (Data.aptLink p) fun x => { x with pm := 0, l1Req := none })))) ∧
    (s.d.links[Data.aptLink p].st = .l1 →
      (s.d.domUp (Data.aptDom p) = true → exec (.electricalIdleExit p) s = .next (s.after (s.d.linkWake (Data.aptLink p)))) ∧
      (s.d.domUp (Data.aptDom p) = false → exec (.electricalIdleExit p) s = .next (s.after
        ((s.d.modLink (Data.aptLink p) fun x => { x with exit := true }).domWake (Data.aptDom p))))) ∧
    (s.d.links[Data.aptLink p].st = .wake → exec (.wakeComplete p) s = .next (s.after
      (((s.d.linkEnter (Data.aptLink p) .active).modLink (Data.aptLink p) fun x => { x.scrReload with traffic := s.d.now, ackAt := s.d.now }).evApt p 15))) ∧
    (s.d.linkOver (Data.aptLink p) .wake (us 10) = true → exec (.wakeTimeout p) s = .next (s.after (s.d.linkRecover (Data.aptLink p)))) ∧
    (∀ (c : MsgClass) (i : TxItem), s.d.creditDry p c = true → i ∈ s.d.ports[p].tx → i.cls = c →
      (i.warned = false → i.since + us (10 * act1 (s.d.fld (Reg.aptTmoCfg p.val) 8 8)) ≤ s.d.now →
        ∃ tx, exec (.creditWait p c) s = .next (s.after ((s.d.modPort p fun x => { x with tx := tx }).evApt p 8)) ∧
          tx.map (fun x => { x with warned := false }) = s.d.ports[p].tx.map (fun x => { x with warned := false })) ∧
      (max i.since (s.d.links[Data.aptLink p].credAt[txCredit c]) + us (100 * act1 (s.d.fld (Reg.aptTmoCfg p.val) 16 8)) ≤ s.d.now →
        exec (.creditWaitIsolation p c) s = .next (s.after (s.d.isolate p)))))

/-- Completion of the commands of the pair's states (R382 to R384, R389 to R391, R394): HELLO, heartbeats, the witness, the limits, DXF and DXF_END, HANDOVER and HANDBACK. -/
def Obligations.PairStateCommandsComplete : Prop :=
  (∀ (s : State), s.d.paired = true →
    (∀ (m : Bool) (ps : BitVec 3) (pid sum : Word), s.d.pair.st = .wait →
      (pid = s.d.pairId → sum = s.d.shroudSum → m ≠ s.d.member → (ps = 1 ∨ ps = 2) →
        exec (.shroudHello m ps pid sum) s = .next (s.after (((s.d.modPair fun p => { p with pst := ps }).pairUp true).sendHello))) ∧
      ((pid ≠ s.d.pairId ∨ sum ≠ s.d.shroudSum ∨ m = s.d.member) →
        exec (.shroudHello m ps pid sum) s = .next (s.after
          (((s.d.modPair fun p => { p with pst := ps }).modPair fun p => { p with st := .mismatch }).evShd 3)))) ∧
    (∀ (sq : Byte) (ps : BitVec 3) (ms : Bool) (b : Word), s.d.pair.hand = none → s.d.pair.st = .paired → s.d.pair.deciding = false →
      exec (.hb sq ps false ms b) s = .next (s.after (s.d.modPair fun p =>
        { p with hbAt := s.d.now, miss := 0, pst := ps, pFail := false, pMsync := ms, pBudget := b, witOpen := 0, reads := [] }))) ∧
    (∀ t, s.d.pair.st ≠ .yielded → s.d.pair.witSent = some t → t + us 100 ≤ s.d.now → 0 < s.d.pair.miss →
      exec .witnessWriteTimeout s = .next (s.after s.d.yield_))) ∧
  (∀ (s : State), s.d.pair.st = .paired →
    (s.d.pair.miss = 1 → s.d.pair.hbAt + us 100 ≤ s.d.now →
      exec .heartbeatMissed s = .next (s.after (((s.d.modPair fun p => { p with miss := 2 }).evShd 4).tally 508))) ∧
    (s.d.links[Data.shdLink].st = .active → s.d.pair.hbSent + us 50 ≤ s.d.now →
      exec .heartbeatSend s = .next (s.after s.d.sendHb)) ∧
    (∀ b, s.d.pair.witAt + us 50 ≤ s.d.now → s.d.dur.jA = some b → s.d.dur.tr = none →
      exec .witnessWrite s = .next (s.after (s.d.modPair fun p =>
        { p with wcnt := p.wcnt + 1, witAt := s.d.now, witSent := some (p.witSent.getD s.d.now)
                 witLast := some (b, s.d.witAddr b s.d.member, s.d.witGran { p with wcnt := p.wcnt + 1 }) }))) ∧
    (∀ ok wc ps pid, s.d.pair.witOpen ≠ 0 → s.d.pair.deciding = false →
      exec (.witnessReadComplete ok wc ps pid) s = .next (s.after (s.d.modPair fun p =>
        { p with witOpen := p.witOpen - 1, reads := p.reads.concat ⟨ok, wc, ps, pid⟩, wit := ok }))) ∧
    (∀ (e : Dword) (h : Hand), s.d.pair.hand = some h → h.giver = false →
      exec (.dxf e) s = .next (s.after (((s.d.dirInstall (s.d.homeOf (bstDec e.toNat).ga) (bstDec e.toNat) true).modPair fun p =>
        { p with hand := some { h with installed := h.installed.concat (s.d.homeOf (bstDec e.toNat).ga, (bstDec e.toNat).ga), count := h.count + 1 } }).ledgerSettle)) ∧
      (∀ k : Word, h.count = k.toNat → exec (.dxfEnd k) s = .next (s.after
        (((((s.d.modPair fun p => { p with hand := none }).ilvMod (fun _ _ => true) fun _ x => setBit x 3 s.d.member).modPair fun p =>
          { p with st := .taken, takenOver := true }).evShd 13).sendHb)))) ∧
    (s.Reaches Reg.shdCtl → s.d.pair.hand = none → s.d.dur.tr = none →
      exec .handover s = .next (s.after ((s.d.regWrite Reg.shdCtl 1 1).handStart false)))) ∧
  (∀ (s : State), s.d.pair.st = .taken →
    (s.Reaches Reg.shdCtl → s.d.pair.hand = none → s.d.dur.tr = none → s.d.pair.pst = 6 → s.d.pair.failover = none →
      exec .handback s = .next (s.after ((s.d.regWrite Reg.shdCtl 2 2).handStart true))) ∧
    (∀ h, s.d.pair.failover = some h → s.d.pair.foDone = true → s.d.pair.shadowOut = [] →
      exec .failoverResume s = .next (s.after s.d.foResume))) ∧
  (∀ (s : State), s.d.pair.st = .wait →
    (s.d.pair.reads = [] → s.d.pair.witOpen = 0 → s.d.dur.jA ≠ none →
      s.d.pair.waitAt + ms (act1 (s.d.fld Reg.shdCfg 0 8)) ≤ s.d.now + us 100 →
      exec .waitWitnessRead s = .next (s.after (s.d.modPair fun p => { p with witOpen := p.witOpen + 1 }))) ∧
    (s.d.pair.deciding = false → s.d.dur.jA ≠ none → s.d.pair.waitAt + ms (act1 (s.d.fld Reg.shdCfg 0 8)) ≤ s.d.now →
      exec .joinwExpiry s = .next (s.after (s.d.modPair fun p => { p with witOpen := p.witOpen + 1, deciding := true })))) ∧
  (∀ (s : State), s.d.linkOver Data.shdLink .down (ms 1) = true → exec .shroudRetry s = .next (s.after (s.d.linkDetect Data.shdLink)))

/-- Completion of the mirror's items and steps (R386 to R388, R392), the census (R395, R396), salvage (R398) and the resume of a slice fault (R397). -/
def Obligations.MirrorAndCensusCommandsComplete : Prop :=
  (∀ (s : State) (ga : BitVec 36), s.d.mirrorOn = true →
    (∀ poison g,
      (∀ d, (s.d.tally 507).mirWrite ga.toNat g poison = (d, true) → exec (.mwr ga poison g) s = .next (s.after d)) ∧
      (∀ d, (s.d.tally 507).mirWrite ga.toNat g poison = (d, false) → exec (.mwr ga poison g) s = .next (s.after (d.shdSend (.mfull ga))))) ∧
    exec (.mclr ga) s = .next (s.after (s.d.mirClear ga.toNat).1) ∧
    (∀ (src : Fin 8) (e sq : BitVec 6) poison be g, (SMap.get {} s.d.pair.shadow (Data.shadowKey src e.toNat)).valid = false →
      exec (.swr ga poison src e sq be g) s = .next (s.after ({ s.d with seq := s.d.seq + 1 }.modPair fun p =>
        { p with shadow := SMap.set {} p.shadow (Data.shadowKey src e.toNat)
                        { ga := ga.toNat, be := be, data := g, poison := poison, seq := sq, born := s.d.seq, valid := true } }))) ∧
    (∀ (src : Fin 8) (e : BitVec 6), exec (.sclr src e) s = .next (s.after (s.d.modPair fun p =>
      { p with shadow := SMap.set {} p.shadow (Data.shadowKey src e.toNat) {} }))) ∧
    (∀ (tag : Byte) d,
      (∀ g p, s.d.mirRead ga.toNat = (d, some (g, p)) → exec (.mrd ga tag) s = .next (s.after (d.shdSend (.mdat ga p true tag g)))) ∧
      (s.d.mirRead ga.toNat = (d, none) → exec (.mrd ga tag) s = .next (s.after (d.shdSend (.mdat ga false false tag 0)))))) ∧
  (∀ (s : State) (tag : Byte),
    (∀ (ga : BitVec 36) p hit g, (s.d.pair.reads3.any fun r => r.1 == tag && r.2.2.2 == ga.toNat) = true →
      exec (.mdat ga p hit tag g) s = .next (s.after (s.d.mirrorReadEnd tag (if hit then some (g, p) else none)))) ∧
    ((s.d.pair.reads3.any fun r => r.1 == tag && decide (r.2.1 + us 20 ≤ s.d.now)) = true →
      exec (.mirrorReadTimeout tag) s = .next (s.after (s.d.mirrorReadEnd tag none)))) ∧
  (∀ (s : State) (ga : BitVec 36) (w : Nat), s.d.presentWay (s.d.homeOf ga.toNat) ga.toNat = some w →
    (s.d.tagEnt (s.d.homeOf ga.toNat) (setOf (lineOf ga.toNat)) w).sd.getLsbD (secIn ga.toNat) = true →
    (s.d.slices[s.d.homeOf ga.toNat].mfull.contains (secOf ga.toNat)) = false →
    exec (.mfull ga) s = .next (s.after (((s.d.fldCnt Reg.shdMfullCnt 0 32 1).evShd 9).modSlice (s.d.homeOf ga.toNat) fun x =>
      { x with mfull := x.mfull.concat (secOf ga.toNat) }))) ∧
  (∀ (s : State) (n : Fin 8), s.d.running n = true →
    (s.d.p5Work n 5 = true → exec (.censusCloseWalkStep n) s = .next (s.after (s.d.p5Run n 5))) ∧
    (s.d.p5Work n 6 = true → exec (.mirrorDrainStep n) s = .next (s.after (s.d.p5Run n 6))) ∧
    (s.d.p5Work n 7 = true → exec (.mirrorResyncStep n) s = .next (s.after (s.d.p5Run n 7)))) ∧
  (∀ (s : State) (c : Census), s.d.pair.census = some c → c.start + us (10 * act1 (s.d.fld Reg.shdCfg 8 8)) ≤ s.d.now →
    exec .censusLimitExpiry s = .next (s.after ((((agents c.left).foldl (fun (d : Data) p => d.isolate p) s.d).evShd 14).censusClose))) ∧
  (∀ (s : State) (n : Fin 8),
    (∀ x, s.d.slices[n].salv = some x → (s.d.slices[n].wb.any fun e => e.sent.isNone && !s.d.bkpFailed e.ga) = false →
      s.d.salvSet n x = none →
      exec (.salvageStep n) s = .next (s.after (s.d.modSlice n fun y => { y with salv := some { x with next := 32768 } }))) ∧
    (∀ x set d, s.d.slices[n].salv = some x → (s.d.slices[n].wb.any fun e => e.sent.isNone && !s.d.bkpFailed e.ga) = false →
      s.d.salvSet n x = some set → (∀ w, s.d.salvBad n ≠ some (set, w)) →
      ((s.d.salvDirty n set).any fun y => s.d.bkpFailed (s.d.wayLine n set y.1 * 32)) = false →
      (s.d.salvDirty n set).foldlM (fun (d : Data) y => d.salvSector n set y.1 y.2) s.d = .ok d →
      exec (.salvageStep n) s = .next (s.after (d.modSlice n fun y => { y with salv := y.salv.map fun z =>
        if set ≠ (minBy id ((d.slices[n].tags.filter fun t => t.2.sd != 0 && decide (x.next ≤ t.1 / 16)).map fun t => t.1 / 16)).getD set then
          { z with extra := z.extra.concat set } else { z with next := set + 1 } }))) ∧
    (∀ (d d1 d2 : Data) (set w k : Nat) g0 p0 g1 p1 ga b, d.frameRead n set w (2 * k) = .ok (d1, g0, p0) →
      d1.frameRead n set w (2 * k + 1) = .ok (d2, g1, p1) → ga = d2.wayLine n set w * 32 + 2 * k → b = d2.bkpOf ga →
      d.salvSector n set w k = .ok (((d2.pmcBkp b 1).pmcBkp b 1).modSlice n fun y =>
        { y with salv := y.salv.map fun z => { z with await := z.await ++ [(set, ga), (set, ga + 1)] } })) ∧
    (s.d.svc.fault.getLsbD n.val = true → s.d.svc.cnsDone.getLsbD n.val = true → s.d.svc.resumed.getLsbD n.val = false →
      (s.d.slices[n].wb.all fun e => s.d.bkpFailed e.ga) = true →
      exec (.sliceFaultResume n) s = .next (s.after (s.d.slcResume n))))

/-- Completion of the governor's commands and of the power-fail sequence's (R221 to R223, R231 to R238, R242). -/
def Obligations.DurabilityCommandsComplete : Prop :=
  (∀ (b : Fin 4) (s : State), s.d.bkpUsed b = true → s.d.bkps[b].st ≠ .failed →
    exec (.viralIndication b) s = .next (s.after (s.d.bkpFailPort b)) ∧
    (s.d.bkps[b].st ≠ .down → exec (.backingLinkLost b) s = .next (s.after ((s.d.evBkp b 1).bkpFailPort b)))) ∧
  (∀ s : State,
    exec .dirtyMapEpoch s = .next (s.after s.d.epochAdvance) ∧
    (s.Reaches Reg.durBudget → ∀ v : Word,
      exec (.durBudget v) s = .next (s.after ((s.d.regWrite Reg.durBudget v 0xFFFFFFFF).modDur fun u => { u with bPrev := some (s.d.budget, s.d.now) }))) ∧
    (s.d.pwr.boot = .rdy → s.d.pwr.xfail = false → s.d.dur.tr = none →
      exec .powerFailWarning s = .next (s.after s.d.failStart.pairTr.svcTr)) ∧
    (s.d.dur.phase = .recalling → s.d.phaseDue 0 = true → exec .recallDeadline s = .next (s.after (s.d.recallEnd true))) ∧
    (s.d.dur.phase = .drain → s.d.phaseDue 1 = true → exec .drainDeadline s = .next (s.after (s.d.drainEnd true))) ∧
    (s.d.dur.phase = .persist → s.d.phaseDue 2 = true → exec .persistDeadline s = .next (s.after (s.d.persistEnd true))) ∧
    (s.d.dur.phase = .journal → s.d.phaseDue 3 = true →
      (s.d.cleanSent = true → exec .journalDeadline s = .next (s.after s.d.journalEnd)) ∧
      (s.d.cleanSent = false → exec .journalDeadline s = .next (s.after s.d.shutdownClean.journalEnd))) ∧
    (∀ e t, s.d.dur.doneAt = some t → s.d.pwr.pwrgd = true → s.d.pwr.warm = none →
      exec (.doneRestart e) s = .next (s.afterDM (({ d := s.d.coldReset.modPwr fun p => { p with thermtrip := s.d.pwr.thermtrip }, m := DM.coldMgmt s.begun.m } : DM).coldStart e 1)))) ∧
  (∀ (b : Fin 4) (s : State),
    (s.d.dur.phase = .persist → s.d.bkps[b].gpf = .phase1 →
      exec (.gpfPhase1Response b false) s = .next (s.after (s.d.modBkp b fun x => { x with gpf := .gotPhase1 })) ∧
      exec (.gpfPhase1Response b true) s = .next (s.after ((s.d.persistFail b).modBkp b fun x => { x with gpf := .gotPhase1 }))) ∧
    (s.d.dur.phase = .persist → s.d.bkps[b].gpf = .phase2 →
      exec (.gpfPhase2Response b false) s = .next (s.after (s.d.modBkp b fun x => { x with gpf := .done })) ∧
      exec (.gpfPhase2Response b true) s = .next (s.after ((s.d.persistFail b).modBkp b fun x => { x with gpf := .done }))) ∧
    (s.d.dur.phase ≠ .persist → (s.d.dur.flush.any fun x => x.1 == b) = true →
      exec (.gpfPhase2Response b false) s = .next (s.after (s.d.modDur fun u => { u with flush := u.flush.filter fun x => x.1 != b })) ∧
      exec (.gpfPhase2Response b true) s = .next (s.after ((s.d.gpfFailed b).modDur fun u => { u with flush := u.flush.filter fun x => x.1 != b }))) ∧
    (s.d.bkps[b].cleanWait = true →
      exec (.setShutdownStateComplete b) s = .next (s.after (s.d.modBkp b fun x => { x with cleanWait := false, dirtySet := false }))) ∧
    (s.d.pwr.boot = .flushing → (s.d.dur.flush.any fun x => x.1 == b && decide (x.2 + ms 5 ≤ s.d.now)) = true →
      exec (.journalFlushTimeout b) s = .next (s.after (s.d.journalDrop b)))) ∧
  (∀ (n : Fin 8) (s : State), s.d.running n = true → s.d.p5Work n 1 = true →
    (s.d.dur.tr = none → exec (.earlyCleaningStep n) s = .next (s.after (s.d.p5Run n 1))) ∧
    (s.d.dur.tr ≠ none → exec (.drainStep n) s = .next (s.after (s.d.p5Run n 1)))) ∧
  (∀ (n : Fin 8) (d e f : Data) (set : Nat), d.oldestDirty n = some set →
    e = d.modSlice n (fun x => { x with p5 := 2, p5Due := none }) →
    (∀ w sec, (e.setOpen n set).head? = some (w, sec) → e.lineWait n e.seq (lineOf (e.wayLine n set w * 32)) = none) →
    e.cleanSet n set = .ok f →
    (∀ g, e.inTurn (if f.dur.tr.isSome then f else f.tally 12) n e.seq = .ok g → d.p5Run n 1 = g.pmcSlc n 1))

/-- Completion of seal items and their steps (R245 to R249), maintenance items and steps (R277 to R284), planish (R268), scrub (R270) and ARM (R274). -/
def Obligations.MaintenanceAndSealCommandsComplete : Prop :=
  (∀ (s : State) (a : Agent) (d : Data) (l : List QPop) (k : Fin 8), s.d.hlm.run = true → s.d.ready = true → s.d.sealNext = some a →
    (s.d.modHlm fun h => { h with turn := (a.val + 1) % 16 }).qTake (bits (s.d.agq a) 0 14) = (d, some l) →
    sealFormed (l.map (·.data)) = true → l.any (·.poison) = false → d.sealAllowed ((l.map (·.data)).drop 1) = true → d.sealLane = some k →
    exec .sealItem s = .next (s.after (d.modHlm fun h => { h with
      lanes := h.lanes.set k (some
        { agent := a, hdr := (l.map (·.data)).headD 0, ranges := (l.map (·.data)).drop 1
          total := (((l.map (·.data)).drop 1).map rngCount).sum }) }))) ∧
  (∀ (s : State) (k : Fin 8) (i : SealItem) (h : Head) (mark : List Byte), s.d.hlm.lanes[k] = some i → i.bad = false → i.sampled = true →
    i.rn = i.total → SMap.get {} s.d.hlm.heads (hdrStream i.hdr) = h → h.restart = false →
    mark = sha256 (sealPreimage (hdrStream i.hdr) i.tflag ((h.seq + 1) % 2 ^ 64) i.sec i.ns s.d.fuses.devSer
      (if h.valid then h.hash else 0) i.ranges i.got) →
    exec (.sealHashComplete k) s = .next (s.after ((s.d.modHlm fun x => { x with
      lanes := x.lanes.set k none
      heads := SMap.set {} x.heads (hdrStream i.hdr)
        { hash := BitVec.ofNat 256 (beNat mark), seq := (h.seq + 1) % 2 ^ 64, sec := i.sec, valid := true } }).sealReply i.agent
        ([Data.sealWord i.hdr 0 i.tflag 0, (h.seq + 1) % 2 ^ 64, i.sec, i.ns] ++ (List.range 4).map fun j => leAt mark (8 * j) 8) true))) ∧
  (∀ (s : State) (c : Instr) (op : Nat) (r : Requester) (i : MntItem) (d : Data) (l : List QPop),
    (op, c) ∈ [(0, Instr.clean), (1, .inv), (2, .clinv), (3, .retire), (4, .unretire)] →
    s.d.ready = true → s.d.dur.tr = none → s.d.mntNext = some (r, i) → i.op = op →
    ({ s.d with mntTurn := (r.val + 1) % 17 } : Data).qTake (bits (s.d.magq r) 0 14) = (d, some l) → i = mntItem (l.map (·.data)) (l.any (·.poison)) (permAll (l.map (·.perm))) →
    i.formed = true → Data.mntPerm r i = true → d.mntTarget i = true →
    (i.scope = 2 → exec c s = .next (s.after (d.mntAccept (.queue r i.tag) [i.slice] op 2 0 0 i.set i.way none))) ∧
    (i.scope ≠ 2 → exec c s = .next (s.after (d.mntAccept (.queue r i.tag) (d.mntSlices i) op i.scope i.line
      (if i.scope = 0 then i.line + i.nline else i.line + 1) 0 0 none)))) ∧
  (∀ (s : State) (n : Fin 8), s.d.running n = true →
    (s.d.p5Work n 0 = true → exec (.maintenanceStep n) s = .next (s.after (s.d.p5Run n 0))) ∧
    (s.d.p5Work n 3 = true → exec (.planishStep n) s = .next (s.after (s.d.p5Run n 3))) ∧
    (s.d.p5Work n 4 = true → exec (.sealDurabilityStep n) s = .next (s.after (s.d.p5Run n 4)))) ∧
  (∀ (s : State) (pc : Fin 32) (u : BitVec 544) (d : Data) (x : GRead), s.d.ready = true → s.d.flag Reg.stoEccCfg 0 = true → s.d.dur.tr = none →
    s.d.domUp 2 = true → s.d.storeAwake = true → s.d.store.scrub[pc] < pcCw → (s.d.active (Fin.ofNat 8 (pc.val / 4)) = true →
    s.d.domUp (Data.slcDom (Fin.ofNat 8 (pc.val / 4))) = true) →
    Data.cwRead (Data.tally (s.d.modStore fun y => { y with
      cw := SMap.set 0 y.cw (cwKey pc.val s.d.store.scrub[pc]) (SMap.get 0 y.cw (cwKey pc.val s.d.store.scrub[pc]) ^^^ u) }) 29)
      none (cwKey pc.val s.d.store.scrub[pc]) = (d, x) → x.bad = false → d.cwBad (cwKey pc.val s.d.store.scrub[pc]) = false →
    exec (.scrubRead pc u) s = .next (s.after (d.modStore fun y => { y with scrub := y.scrub.set pc (s.d.store.scrub[pc] + 1) }))) ∧
  (∀ (s : State),
    (s.d.ready = true → s.d.flag Reg.stoEccCfg 0 = true → s.d.dur.tr = none →
      ((∀ pc : Fin 32, s.d.store.periodAt[pc] + s.d.scrubPeriod ≤ s.d.now ∧ pcCw ≤ s.d.store.scrub[pc]) →
        exec .scrubPeriodEnd s = .next (s.after ((s.d.modStore fun y =>
          { y with rowCe := y.rowCe.filter fun x => decide (32 ≤ x.1)
                   periodAt := Vector.replicate 32 s.d.now, scrub := Vector.replicate 32 0, walked := 0 }).fldCnt Reg.stoScrubStat 0 16 1))) ∧
      (∀ pc : Fin 32, s.d.store.periodAt[pc] + s.d.scrubPeriod ≤ s.d.now → s.d.store.scrub[pc] < pcCw → s.d.store.walked ≠ BitVec.allOnes 32 →
        (∀ k : Fin 32, k ≠ pc → s.d.now < s.d.store.periodAt[k] + s.d.scrubPeriod) →
        exec .scrubPeriodEnd s = .next (s.after (((s.d.raise Reg.stoScrubStat 23).evSto 5).modStore fun y =>
          { y with rowCe := y.rowCe.filter fun x => x.1 != pc.val, periodAt := y.periodAt.set pc s.d.now })))) ∧
    (s.Reaches Reg.stoFlipHi → ∀ v : Word,
      exec (.arm v) s = .next (s.after ((s.d.regWrite Reg.stoFlipHi v 0xFFFFFFFF).flipWrite v 0xFFFFFFFF))))

/-- Completion of DRAIN, RETURN, ARTS_GO, ASSAY, ASSAY_COMPLETE, BKP_RETURN, BKP_RETURN_COMPLETE, BKP_FAIL and HAL_CTL_ENUM (R365, R400 to R402). -/
def Obligations.ServiceCommandsComplete : Prop :=
  (∀ (n : Fin 8) (s : State), s.d.svc.proc = none → s.d.dur.tr = none →
    (s.Reaches Reg.topSlcCtl → s.d.active n = true → s.d.svc.out.getLsbD n.val = false → s.d.svc.fault.getLsbD n.val = false →
      s.d.serving.filter (· != n) ≠ [] → s.d.ready = true →
      exec (.drain n) s = .next (s.after (((((((s.d.regWrite Reg.topSlcCtl (BitVec.ofNat 32 n.val ||| 0x10) 0x1F).fldSet Reg.topSlcCtl 0 3 n.val).flagSet
        Reg.topSlcCtl 3 false).mntDrop n).reloadCut.ilvMod (fun b _ => ((List.range 256).filter fun b => (s.d.ilvAt b).toNat % 8 = n.val).contains b) fun _ e => e ||| 0x10).modSvc
          fun x => { x with proc := some (false, n)
                            share := vmod x.share n fun _ => (List.range 256).filter fun b => (s.d.ilvAt b).toNat % 8 = n.val })))) ∧
    (s.Reaches Reg.topSlcCtl → ∀ r, s.d.rig = some r → s.d.svc.out.getLsbD n.val = true → s.d.svc.passed.getLsbD n.val = true → s.d.svc.assay ≠ some n →
      exec (.returnSlc n) s = .next (s.after ((((((s.d.regWrite Reg.topSlcCtl (BitVec.ofNat 32 n.val ||| 0x18) 0x1F).fldSet Reg.topSlcCtl 0 3 n.val).flagSet
        Reg.topSlcCtl 3 true).ilvMod (fun b _ => ((List.range 256).filter fun b => (r.ilv.getD b 0).toNat % 8 = n.val).contains b) fun _ e => e ||| 0x10).modSvc
          fun x => { x with proc := some (true, n)
                            share := vmod x.share n fun _ => (List.range 256).filter fun b => (r.ilv.getD b 0).toNat % 8 = n.val }).domWake (Data.slcDom n)))) ∧
    (s.Reaches Reg.tstAssayCtl → s.d.svc.out.getLsbD n.val = true → s.d.svc.assay = none →
      exec (.assay n) s = .next (s.after (((s.d.regWrite Reg.tstAssayCtl (BitVec.ofNat 32 n.val ||| 0x8) 0xF).fldSet Reg.tstAssayCtl 0 3 n.val).modSvc
        fun x => { x with assay := some n, struct := 0 })))) ∧
  (∀ (p : Fin 16) (s : State), s.Reaches Reg.topArts → s.d.ports[p].iso = true → s.d.svc.arts = none →
    exec (.artsGo p) s = .next (s.after (s.d.serving.foldl (fun (d : Data) n => d.modSlice n fun x => { x with arts := some (p, 0) })
      (((s.d.regWrite Reg.topArts (BitVec.ofNat 32 p.val ||| 0x10) 0x1F).fldSet Reg.topArts 0 4 p.val).modSvc fun x => { x with arts := some p })))) ∧
  (∀ (n : Fin 8) (s : State), s.d.svc.assay = some n →
    exec (.assayComplete 0) s = .next (s.after (((s.d.modSvc fun x => { x with
      assay := none, assayPass := true, assayFail := false, struct := 0, passed := setBit x.passed n.val true }).modSlice n Slice.clean).sliceStoreClear n)) ∧
    (∀ k, k ≠ 0 → exec (.assayComplete k) s = .next (s.after ((((s.d.modSvc fun x => { x with
      assay := none, assayPass := false, assayFail := true, struct := k, passed := setBit x.passed n.val false }).modSlice n Slice.clean).sliceStoreClear n).evSlc n 31)))) ∧
  (∀ (b : Fin 4) (s : State), s.Reaches (Reg.bkpCtl b.val) →
    (s.d.bkps[b].st = .failed → s.d.bkps[b].returning = none →
      exec (.bkpReturn b) s = .next (s.after (((s.d.regWrite (Reg.bkpCtl b.val) 1 1).modBkp b fun x => { x with returning := some s.d.now }).domWake (Data.bkpDom b)))) ∧
    (s.d.bkps[b].st ≠ .failed → exec (.bkpFail b) s = .next (s.after ((s.d.regWrite (Reg.bkpCtl b.val) 2 2).bkpFailPort b)))) ∧
  (∀ (b : Fin 4) (e : PortEnv) (s : State) (t : Nat) (d : Data), s.d.bkps[b].returning = some t →
    (s.d.modBkp b fun x => { x with returning := none, st := .training }).bkpLink b e (s.d.bkpMhd b) = d →
    (d.bkps[b].st = .ready → exec (.bkpReturnComplete b e) s = .next (s.after (allSlices.foldl (fun (y : Data) n => y.modSlice n fun x =>
      { x with wb := x.wb.map fun w => if d.bkpOf w.ga = b then { w with sent := none, tries := 0 } else w
               redirty := if d.active n then x.redirty.filter (fun y => y.1 != b) ++ [(b, 0)] else [] }) (d.modDur fun u => { u with portFailed := setBit u.portFailed b.val false })))) ∧
    (d.bkps[b].st ≠ .ready → exec (.bkpReturnComplete b e) s = .next (s.after (d.raise (Reg.bkpCtl b.val) 2)))) ∧
  (∀ (s : State), s.Reaches Reg.halCtl → s.d.pwr.chainHead = true →
    exec .halCtlEnum s = .next (s.afterDM ({ s.begun with d := s.d.regWrite Reg.halCtl 1 1 } : DM).enumHead))

/-- Completion of power good, straps, RDY, resets, clocks, the watchdog and the thermal pins (R411 to R420, R444, R445). -/
def Obligations.PowerCommandsComplete : Prop :=
  (∀ (e : StartEnv) (s : State),
    (s.d.pwr.boot = .off → s.d.pwr.pwrgd = false → exec (.powerGood e) s = .next (s.afterDM (s.begun.coldStart e 0))) ∧
    (∀ t c, s.d.pwr.warm = some (t, c) → t ≤ s.d.now → s.d.dur.tr = none →
      exec (.warmResetEffect e) s = .next (s.afterDM (({ d := (s.d.warmReset.modPwr fun p => { p with cause := c, flushed := false, pfd := false }).ev 1, m := { s.begun.m.stopped with up := false } } : DM).startUp e)))) ∧
  (∀ (s : State) t, s.d.pwr.pg = some t →
    (∀ (k : Fin 3) a b c, s.d.pwr.strap.length = k.val → k ≠ 2 → t + us (100 * (k.val + 1)) ≤ s.d.now →
      exec (.strapSample k a b c) s = .next (s.after (s.d.modPwr fun p => { p with strap := p.strap.concat (a, b, c) }))) ∧
    (∀ a b c, s.d.pwr.strap = [(a, b, c), (a, b, c)] → t + us 300 ≤ s.d.now →
      exec (.strapSample 2 a b c) s = .next (s.after ((s.d.modPwr fun p => { p with strap := p.strap.concat (a, b, c) }).modPwr fun p =>
        { p with mgtMode := a, chainHead := b, scanEn := c, disagree := false })))) ∧
  (∀ (s : State),
    (s.d.pwr.boot = .flushing → s.d.dur.flush = [] →
      exec .rdy s = .next (s.after ((allDoms.filter fun i => i.val != 0 && nbit (s.d.powerWord i) 1 && !s.d.flag Reg.pwrKeep i.val).foldl (fun (d : Data) i => d.domReef i)
        ((((s.d.modPwr fun p => { p with boot := .rdy, bootUs := min 0xFFFFFF ((s.d.now - s.d.pwr.pg.getD 0) / 1600) }).ev 15).modPair fun p =>
          { p with waitAt := s.d.now }).modStore fun y => { y with periodAt := Vector.replicate 32 s.d.now })))) ∧
    exec .pwrgdLow s = .next (s.afterDM { d := s.d.coldReset, m := DM.coldMgmt s.begun.m }) ∧
    (∀ d, s.d.pwr.boot = .rdy → s.d.pwr.xfail = false → s.d.pwr.warm = none → s.d.dur.tr = none → DM.failGo s.d = d →
      exec .resetN s = .next (s.after (d.modPwr fun p => { p with warm := some (s.d.now, 2) }))) ∧
    (s.d.pwr.boot ≠ .off → s.d.pwr.xfail = false →
      exec .crystalFailure s = .next (s.afterDM { d := (s.d.warmReset.modPwr fun p => { p with xfail := true, boot := .stopped }).ev 4, m := s.begun.m.stopped })) ∧
    (s.clusterUp → s.d.fld Reg.pwrWdt 0 16 ≠ 0 → s.d.pwr.wdtAt + ms (s.d.fld Reg.pwrWdt 0 16) ≤ s.d.now →
      exec .watchdogExpiry s = .next (s.afterDM (({ s.begun with d := s.d.ev 2 } : DM).mgtRestart 4))) ∧
    (s.Reaches Reg.pwrWdt → exec .kick s = .next (s.after ((s.d.regWrite Reg.pwrWdt 0x10000 0x10000).modPwr fun p => { p with wdtAt := s.d.now }))) ∧
    (s.d.domAt 1 = .reefed → s.d.pwr.boot = .rdy → s.d.fld Reg.pwrWdt 17 15 ≠ 0 → s.d.pwr.d1At + ms (10 * s.d.fld Reg.pwrWdt 17 15) ≤ s.d.now →
      exec .d1WakeTimer s = .next (s.after (s.d.domWake 1))) ∧
    (∀ t, exec (.stackTemperature t) s = .next (s.after (s.d.modStore fun y =>
      { y with refresh := if 105 < t.toNat then 4 else if 85 < t.toNat then 2 else 1 }))) ∧
    (s.d.pwr.pwrgd = true → exec .thermtrip s = .next (s.after (s.d.modPwr fun p => { p with thermtrip := true })))) ∧
  (∀ (s : State), s.d.pwr.boot ≠ .off →
    exec (.refclkFailure 2) s = .next (s.after (s.d.usedBkps.foldl (fun (d : Data) b => d.bkpFailPort b)
      (((s.d.modPwr fun p => { p with refbad := setBit p.refbad 2 true }).stamp Reg.clkStat (BitVec.twoPow 32 3)).ev 5))) ∧
    (∀ k : Fin 4, k.val ≤ 1 → exec (.refclkFailure k) s = .next (s.after ((allAgents.filter fun p => p.val / 8 == k.val &&
      (s.d.links[Data.aptLink p].st != .disabled && s.d.links[Data.aptLink p].st != .down)).foldl (fun (d : Data) p => d.linkDown (Data.aptLink p))
        (((s.d.modPwr fun p => { p with refbad := setBit p.refbad k.val true }).stamp Reg.clkStat (BitVec.twoPow 32 (k.val + 1))).ev 5)))) ∧
    (s.d.links[Data.shdLink].st = .active → exec (.refclkFailure 3) s = .next (s.after
      ((((s.d.modPwr fun p => { p with refbad := setBit p.refbad 3 true }).stamp Reg.clkStat (BitVec.twoPow 32 4)).ev 5).linkDown Data.shdLink))) ∧
    (∀ (dom : BitVec 5) (i : Fin 30) (n : Fin 8), dom.toNat = i.val → Data.domSlice i = some n →
      exec (.pllLockFailure dom) s = .next (s.after ((((s.d.modPwr fun p => { p with pllBad := setBit p.pllBad i.val true, woken := setBit p.woken i.val false }).ev 6).domSet i .reefed).sliceFault n))))

/-- Completion of UNREEF, REEF, RESET and of the reefs and wakes of a domain (R407 to R410, R416, R422). -/
def Obligations.DomainCommandsComplete : Prop :=
  ∀ (dom : BitVec 5) (i : Fin 30) (s : State), dom.toNat = i.val →
    (s.Reaches Reg.pwrDomCtl →
      (s.d.domUsed i = true → s.d.pwr.boot = .rdy →
        exec (.unreef dom) s = .next (s.after (((s.d.regWrite Reg.pwrDomCtl (dom.setWidth 32 ||| 0x80) 0xFF).domWake i).domCtl i))) ∧
      (s.d.pwr.boot = .rdy → (s.d.regWrite Reg.pwrDomCtl (dom.setWidth 32 ||| 0xA0) 0xFF).domMayReef s.begun.mgtIdle i = true →
        exec (.reef dom) s = .next (s.after (((s.d.regWrite Reg.pwrDomCtl (dom.setWidth 32 ||| 0xA0) 0xFF).domReef i).domCtl i))) ∧
      (DM.resetRefused s.d i = false →
        (i.val ≠ 1 → exec (.reset dom) s = .next (s.after ((DM.domReset (s.d.regWrite Reg.pwrDomCtl (dom.setWidth 32 ||| 0xC0) 0xFF) i).domCtl i))) ∧
        (i.val = 1 → ∀ v d, (s.d.regWrite Reg.pwrDomCtl (dom.setWidth 32 ||| 0xC0) 0xFF).freeVal = (v, d) →
          exec (.reset dom) s = .next (s.afterDM (({ s.begun with d := d } : DM).mgtRestart (v.truncate 3)))))) ∧
    (s.d.pwr.boot = .rdy →
      (bits (s.d.powerWord i) 16 16 ≠ 0 → s.d.domMayReef s.begun.mgtIdle i = true →
        exec (.domainIdleReef dom) s = .next (s.after (s.d.domReef i))) ∧
      exec (.domainWake dom) s = .next (s.after (s.d.domWake i))) ∧
    (∀ t, s.d.domAt i = .waking t →
      (i.val ≠ 2 → (Data.domNeeds i = none ∨ s.d.domUp 2 = true) → exec (.domainWakeComplete dom) s = .next (s.after
        ((((s.d.domSet i .up).ev 9).tally 40).modPwr fun p => { p with woken := setBit p.woken i.val false }))) ∧
      (i.val = 2 → exec (.domainWakeComplete dom) s = .next (s.after
        (((List.finRange 30).filter fun j => s.d.pwr.woken.getLsbD j.val && Data.domNeeds j == some i).foldl (fun (d : Data) j =>
          (((d.domSet j .up).ev 9).tally 40).modPwr fun p => { p with woken := setBit p.woken j.val false })
          ((((s.d.domSet i .up).ev 9).tally 40).modPwr fun p => { p with woken := setBit p.woken i.val false })))) ∧
      (Data.domNeeds i = some 2 → s.d.domUp 2 = false →
        exec (.domainWakeComplete dom) s = .next (s.after (s.d.modPwr fun p => { p with woken := setBit p.woken i.val true }))) ∧
      (t + ms 1 ≤ s.d.now → exec (.domainWakeTimeout dom) s = .next (s.after
        ((((s.d.domSet i .reefed).modPwr fun p => { p with woken := setBit p.woken i.val false }).ev 7).domFail i)))) ∧
    (∀ t w, s.d.domAt i = .reefing t w → i.val ≠ 1 →
      exec (.domainReefComplete dom) s = .next (s.after ((((s.d.domLose i).ev 8).tally 41).domSet i
        (if w ∨ i.val = 2 ∧ s.d.evt.list ≠ [] then .waking s.d.now else .reefed))))

/-- Completion of the TMP requests that have one effect on every accepted message (R357 to R360): HELLO, REG_RD, REG_WR, MBX_RD, Q_PUSH, LOG_RD, TIME, UPD_STAT, SET_RD. -/
def Obligations.ManagementReadsComplete : Prop :=
  ∀ (s : State) (src : TmpSrc) (b : List Byte) (o : DM.TmpOp) (c : Instr) (ty : Nat) (f : DM → TmpReq → List Byte → DM),
    s.begun.Accepts src b o → tmpType b = ty →
    (ty, c, f) ∈ [(0x01, Instr.hello src b, DM.actHello), (0x02, .tmpRegRd src b, DM.actRegRd), (0x03, .tmpRegWr src b, DM.actRegWr),
      (0x04, .mbxRd src b, DM.actMbxRd), (0x06, .tmpQPush src b, DM.actQPush), (0x08, .logRd src b, DM.actLogRd), (0x09, .time src b, DM.actTime),
      (0x16, .updStat src b, DM.updStat), (0x1A, .setRd src b, DM.actSetRd)] →
    exec c s = .next (s.afterDM (f (s.begun.taken src b) (DM.tmpReq src b) (tmpPayload b)))

/-- Completion of the other TMP requests where they are granted (R359, R366, R370, R373, R374), and of the two timers of subscriptions and relays. -/
def Obligations.ManagementRequestsComplete : Prop :=
  (∀ (s : State) (src : TmpSrc) (b : List Byte) (o : DM.TmpOp) (x : DM) (r : TmpReq) (p : List Byte),
    s.begun.Accepts src b o → x = s.begun.taken src b → r = DM.tmpReq src b → p = tmpPayload b →
    (tmpType b = 0x05 → leAt p 2 1 = 1 → (x.d.qMgt (leAt p 0 2)).isSome = true → exec (.qSub src b) s = .next (s.afterDM
      ((x.modM fun m => { m with qsubs := SMap.set none m.qsubs (leAt p 0 2) (some { src := src, key := r.key, since := s.d.now }) }).reply r stOk))) ∧
    (∀ i, tmpType b = 0x07 → leAt p 0 1 ≠ 0 → x.m.esubs.findIdx? (DM.subIs r) = some i → exec (.evtSub src b) s = .next (s.afterDM
      ((x.modM fun m => { m with esubs := m.esubs.set i (some { src := src, key := r.key, since := s.d.now }) }).reply r stOk))) ∧
    (tmpType b = 0x0A → x.d.domUp 2 = true → exec (.tmpSnap src b) s = .next (s.afterDM
      ((x.modD fun d => d.modPmc fun p => { p with snap := true }).reply r stOk (leBytes 2 (x.d.pmc.seq + 1).toNat)))) ∧
    (tmpType b = 0x10 → x.m.lock = .free → x.m.act.cru ≠ 4 → 64 ≤ leAt p 0 4 → leAt p 0 4 ≤ flImage →
      exec (.updStart src b) s = .next (s.afterDM ((x.lockTake (.host src) (leAt p 0 4) (BitVec.ofNat 32 (leAt p 4 4))).modM fun m =>
        { m with startReq := some r }))) ∧
    (tmpType b = 0x11 → x.holds r = true → leAt p 0 4 + (p.drop 4).length ≤ x.m.total →
      exec (.updData src b) s = .next (s.afterDM (x.chunkIn (leAt p 0 4, p.drop 4, some r)))) ∧
    (∀ y, tmpType b = 0x12 → x.holds r = true → x.cruVerify = (y, 0) →
      exec (.updEnd src b) s = .next (s.afterDM ((y.lockFree.reply r stOk (leBytes 1 0)).offerAll))) ∧
    (tmpType b = 0x13 → x.m.act.cru = 3 → exec (.updActivate src b) s = .next (s.afterDM (x.activate.reply r stOk))) ∧
    (tmpType b = 0x14 → x.m.act.trial = true → x.m.act.trialSec < 600 →
      exec (.updConfirm src b) s = .next (s.afterDM (x.confirm.reply r stOk))) ∧
    (tmpType b = 0x15 → x.holds r = true → exec (.updAbort src b) s = .next (s.afterDM (x.lockDrop.reply r stOk))) ∧
    (tmpType b = 0x18 → x.rigInUse (leAt p 0 1) = false → exec (.rigWrite src b) s = .next (s.afterDM
      ((x.modM fun m => m.prog (flRig (leAt p 0 1 == 1) + leAt p 1 4) (p.drop 5)).reply r
        (if x.m.flashSound (flRig (leAt p 0 1 == 1) + leAt p 1 4) (p.length - 5) then stOk else stFlash)))) ∧
    (tmpType b = 0x19 → x.rigInUse (leAt p 0 1) = false → exec (.rigErase src b) s = .next (s.afterDM
      ((x.modM fun m => m.erase (flRig (leAt p 0 1 == 1)) 0x100000).reply r
        (if x.m.flashSound (flRig (leAt p 0 1 == 1)) 0x100000 then stOk else stFlash)))) ∧
    (∀ y, tmpType b = 0x1B → x.modM (fun m => m.setWrite (leAt p 0 2) (p.drop 2)) = y → (setBytes ((x.m.settings.filter fun y => y.1 != leAt p 0 2) ++ [(leAt p 0 2, p.drop 2)])).length + 32 ≤ 0x100000 →
      exec (.setWr src b) s = .next (s.afterDM (y.reply r (if y.m.flashSound (flSettings (y.m.setSlot.getD false)) 0x100000 then stOk else stFlash)))) ∧
    (tmpType b = 0x1F → leAt p 0 1 = 0 → exec (.restartDevice src b) s = .next (s.afterDM { x.reply r stOk with d := DM.warmGo (x.reply r stOk).d 6 })) ∧
    (tmpType b = 0x1F → leAt p 0 1 = 1 → exec (.restartManagementCluster src b) s = .next (s.afterDM
      (((x.reply r stOk).mgtRestart 3).modM fun m => { m with out := (x.reply r stOk).m.out ++ m.out })))) ∧
  (∀ (s : State) (i : BitVec 6),
    (∀ e, s.m.esubs[i.toNat]? = some (some e) → e.since + ms 60000 ≤ s.d.now →
      exec (.evtSubLapse i) s = .next (s.afterDM (s.begun.modM fun m => { m with esubs := m.esubs.set i.toNat none }))) ∧
    (∀ y, s.m.relays.find? (fun y => y.idx == i.toNat) = some y → y.start + ms 100 ≤ s.d.now → s.clusterUp →
      exec (.relayExpiry i) s = .next (s.afterDM ((s.begun.modM fun m => { m with relays := m.relays.filter fun z => z.idx != i.toNat }).tmpOut
        y.req.src y.req.key y.req.unit y.req.ty.toNat stUnreach y.req.seq false false false []))))

/-- Completion of the chain's commands (R363 to R366, R371): ports, credits, and each frame type. -/
def Obligations.ChainCommandsComplete : Prop :=
  (∀ (down : Bool) (s : State),
    ((s.m.chain down).up = true →
      exec (.chainPortDown down) s = .next (s.afterDM { d := (s.d.fldCnt Reg.halErrCnt 16 16 (s.m.chain down).out.length).evMgt (if down then 8 else 7), m := s.begun.m.modChain down fun p => { held := p.held } }) ∧
      exec (.frameBufferCredit down) s = .next (s.afterDM (s.begun.modM fun m =>
        (m.modChain down fun p => { p with credits := min 4 (p.credits + 1) }).chainPump down))) ∧
    ((s.m.chain down).up = false → s.d.pwr.boot ≠ .off → s.m.up = false →
      exec (.chainPortUp down) s = .next (s.afterDM { d := s.d.evMgt (if down then 8 else 7), m := s.begun.m.modChain down fun _ => { up := true, credits := 4 } })) ∧
    (∀ next total dig tries asked, s.clusterUp → s.m.img = some (down, next, total, dig, tries, asked) → next < total → asked + ms 10 ≤ s.d.now → tries < 8 →
      exec (.imgReqResendTimeout down) s = .next (s.afterDM (s.begun.modM fun m => { m with img := some (down, next, total, dig, tries + 1, asked) }).imgAsk))) ∧
  (∀ (down : Bool) (s : State) (f p : List Byte), s.clusterUp → (s.m.chain down).up = true → (s.m.chain down).held.length < 4 →
    hframeOk f = true → f.headD 0 = 0xFF → p = hframePayload f →
    (leAt f 2 1 = 1 → down = false → leAt p 0 1 < 0x3F → s.m.chDn.up = true → exec (.enum down f) s = .next (s.afterDM
      (((s.begun.heard down).modM fun m => { m with addr := some (BitVec.ofNat 6 (leAt p 0 1 + 1)) }).hopSend true 1 [BitVec.ofNat 8 (leAt p 0 1 + 1)]))) ∧
    (leAt f 2 1 = 2 → s.d.pwr.chainHead = true → exec (.enumDone down f) s = .next (s.afterDM
      (((s.begun.heard down).modD fun d => d.evMgt 9).modM fun m => { m with lastAddr := BitVec.ofNat 6 (leAt p 0 1) }))) ∧
    (leAt f 2 1 = 3 → tmpFramed p = true → nbit (leAt p 4 1) 0 = false →
      exec (.tmpFrame down f) s = .next (s.afterDM ((s.begun.heard down).tmpServe (chainSrc down 0xFF) p))) ∧
    (leAt f 2 1 = 4 → s.m.lock = .free → s.m.setOn tagChainUpd = true → s.m.act.cru ≠ 4 → BitVec.ofNat 32 (leAt p 0 4) ≠ s.m.act.actVer →
      BitVec.ofNat 32 (leAt p 0 4) ≠ s.m.act.cruVer → 64 ≤ leAt p 5 4 → leAt p 5 4 ≤ flImage →
      exec (.imgOffer down f) s = .next (s.afterDM ((((s.begun.heard down).lockTake (.chain down) (leAt p 5 4) (BitVec.ofNat 32 (leAt p 0 4))).modM fun m =>
        { m with img := some (down, 0, leAt p 5 4, BitVec.ofNat 384 (leAt p 9 48), 0, s.d.now) }).imgAsk))) ∧
    (leAt f 2 1 = 5 → (s.m.act.cru = 3 ∨ s.m.act.cru = 4) → leAt p 4 2 ≤ 1024 → leAt p 0 4 + leAt p 4 2 ≤ (DM.cruImage s.m).length →
      exec (.imgReq down f) s = .next (s.afterDM ((s.begun.heard down).hopSend down 6
        (leBytes 4 (leAt p 0 4) ++ sub (DM.cruImage s.m) (leAt p 0 4) (leAt p 4 2))))) ∧
    (∀ next total dig tries asked, leAt f 2 1 = 6 → s.m.img = some (down, next, total, dig, tries, asked) → leAt p 0 4 = next →
      (p.drop 4).length = min 1024 (total - next) → next < total → exec (.imgData down f) s = .next (s.afterDM
        (((((s.begun.heard down).chunkIn (next, p.drop 4, none)).modM fun m =>
          { m with img := some (down, next + (p.drop 4).length, total, dig, 0, s.d.now) }).imgAsk).imgEnd))) ∧
    (leAt f 2 1 = 7 → exec (.imgRsp down f) s = .next (s.afterDM (s.begun.heard down))))

/-- Completion of SYNC, SYNC_TIMEOUT, CRUCIBLE_LOCK_TIMEOUT, TRIAL_RECORD_TIMER, AUTO_CONFIRM_EXPIRY, the Ethernet link and FLASH_BLOCK_ERASED (R361, R362, R370, R373, R375, R377). -/
def Obligations.ClockAndTrialCommandsComplete : Prop :=
  (∀ (s : State), s.d.pwr.boot ≠ .off →
    (∀ (ofs : BitVec 64) (ival : Nat), s.d.ptp.locked = true → s.d.ptp.ever = true → ofs.toInt.natAbs ≤ 1000 →
      exec (.sync ofs ival) s = .next (s.after { s.d with ptp := { s.d.ptp with
        ofs := DM.ofsSat ofs.toInt, good := min 8 (s.d.ptp.good + 1), lastSync := s.d.now, ival := ival
        baseNs := DM.nsAdd s.d.timeNs (s.d.ptp.adj - ofs.toInt), baseAt := s.d.now, adj := 0 } })) ∧
    (s.m.ethUp = false → exec .ethernetLinkUp s = .next (s.afterDM { d := if s.d.pwr.boot = .rdy then (s.d.evMgt 3).domWake 1 else s.d.evMgt 3, m := { s.begun.m with ethUp := true } })) ∧
    (s.m.ethUp = true → exec .ethernetLinkDown s = .next (s.afterDM { d := s.d.evMgt 4, m := { s.begun.m with ethUp := false } }))) ∧
  (∀ (s : State), s.d.ptp.locked = true → s.d.ptp.lastSync + 3 * s.d.ptp.ival ≤ s.d.now →
    exec .syncTimeout s = .next (s.after ((s.d.modPtp fun p => { p with locked := false, good := 0 }).evMgt 6))) ∧
  (∀ (s : State), s.clusterUp →
    (s.m.lock ≠ .free → s.m.lockAt + ms 60000 ≤ s.d.now → exec .crucibleLockTimeout s = .next (s.afterDM s.begun.lockDrop)) ∧
    (s.m.lock ≠ .free → s.m.erased < 128 → s.m.startReq = none → s.m.chunks = [] → s.m.img = none →
      exec .flashBlockErased s = .next (s.afterDM (s.begun.modM fun m =>
        { m.erase (flCrucible + m.erased * flBlock) flBlock with erased := m.erased + 1, chunks := [] }))) ∧
    (s.m.act.trial = true →
      (s.m.trialAt + ms 60000 ≤ s.d.now → s.m.act.trialSec + 60 < 600 → exec .trialRecordTimer s = .next (s.afterDM (s.begun.modM fun m =>
        { m.recWrite fun r => { r with trialSec := r.trialSec + 60 } with trialAt := m.trialAt + ms 60000 }))) ∧
      (s.m.act.trialSec < 600 → s.m.setOn tagAutoConfirm = true → s.m.startAt + ms 60000 ≤ s.d.now → s.d.rig ≠ none → s.d.evt.fatalSeen = false →
        exec .autoConfirmExpiry s = .next (s.afterDM s.begun.confirm))))

/-- The hash bucket of a line address is the exclusive or of four fields of the address, the top one zero-extended (R17). -/
def Obligations.BucketHash : Prop :=
  ∀ a : BitVec 42, bucketOf (a.extractLsb' 11 31).toNat =
    (a.extractLsb' 11 8 ^^^ a.extractLsb' 19 8 ^^^ a.extractLsb' 27 8 ^^^ (0#1 ++ a.extractLsb' 35 7)).toNat

/-- How a granule address splits into line, set and tag of the cache, sets of the directory and of the backstop, and port and port-local address of the backing (R22, R70, R134, R135); set and tag give the line back. -/
def Obligations.AddressFields : Prop :=
  ∀ (a : BitVec 42) (g l : Nat), g = (a.extractLsb' 6 36).toNat → l = (a.extractLsb' 11 31).toNat →
    lineOf g = l ∧ setOf l = (a.extractLsb' 14 15).toNat ∧ tagOf l = a.extractLsb' 29 13 ++ a.extractLsb' 11 3 ∧
    lineAt (tagOf l) (setOf l) = l ∧
    dsetOf g = (a.extractLsb' 6 14).toNat ∧
    bsetOf g = (a.extractLsb' 6 21 ^^^ (0#6 ++ a.extractLsb' 27 15)).toNat ∧
    (∀ d : Data,
      (d.ways = 4 → (d.bkpOf g).val = (a.extractLsb' 12 2).toNat ∧
        d.bkpLocal g + (a.extractLsb' 0 6).toNat = (a.extractLsb' 14 28 ++ a.extractLsb' 0 12).toNat) ∧
      (d.ways = 2 → (d.bkpOf g).val = (a.extractLsb' 12 1).toNat ∧
        d.bkpLocal g + (a.extractLsb' 0 6).toNat = (a.extractLsb' 13 29 ++ a.extractLsb' 0 12).toNat) ∧
      (d.ways = 1 → d.bkpOf g = 0 ∧ d.bkpLocal g + (a.extractLsb' 0 6).toNat = a.toNat))

/-- Overflow of a counter that an addition reaches (R326): the limit of 64 for an addition (R323), the remainder, the bit of PMC_OVF, index 0 of R314; and PMC_OVF as the register shows it. -/
def Obligations.CounterOverflow : Prop :=
  (∀ (d : Data) (c : Fin 512) (n : Nat), d.domUp 2 = true → 0 < n → n ≤ 64 → c.val ∉ d.cycNow.loads →
    (c.val % 2 = 1 → d.pmc.chain.getLsbD (c.val / 2) = false) →
    SMap.get 0 (d.tally c.val n).pmc.cnt c.val = (SMap.get 0 d.pmc.cnt c.val + n) % 2 ^ 48 ∧
    (d.tally c.val n).pmc.ovf.getLsbD c.val =
      (d.pmc.ovf.getLsbD c.val || (decide (2 ^ 48 ≤ SMap.get 0 d.pmc.cnt c.val + n) && !d.pmc.chain.getLsbD (c.val / 2))) ∧
    (d.pmc.chain.getLsbD (c.val / 2) = false →
      (∀ k : Nat, k ≠ c.val → SMap.get 0 (d.tally c.val n).pmc.cnt k = SMap.get 0 d.pmc.cnt k ∧
        (d.tally c.val n).pmc.ovf.getLsbD k = d.pmc.ovf.getLsbD k) ∧
      (∀ i : Nat, (d.tally c.val n).evt.latch.getLsbD i = (d.evt.latch.getLsbD i ||
        (decide (i = 100) && decide (2 ^ 48 ≤ SMap.get 0 d.pmc.cnt c.val + n) && !d.pmc.ovf.getLsbD c.val))))) ∧
  (∀ (d : Data) (c n : Nat), 64 ≤ n → d.tally c n = d.tally c 64) ∧
  (∀ (x : DM) (r : Requester) (k : Fin 16) (b : Fin 32),
    (x.view r (Reg.pmcOvf k.val)).getLsbD b.val = x.d.pmc.ovf.getLsbD (32 * k.val + b.val))

/-- Chained pairs of counters (R325): the bits of PMC_CHAIN, when a change takes effect, and what each counter of the pair counts. -/
def Obligations.ChainedPairs : Prop :=
  (∀ (x : DM) (r : Requester) (k : Fin 8) (v en : Word), en ≠ 0 → x.d.quiet r (Reg.pmcChain k.val) →
    (x.writeReg r (Reg.pmcChain k.val) v en).d.pmc.cnt = x.d.pmc.cnt ∧
    (x.writeReg r (Reg.pmcChain k.val) v en).d.pmc.chain = x.d.pmc.chain ∧
    (∀ i : Nat, i < 256 → (x.writeReg r (Reg.pmcChain k.val) v en).d.pmc.chainNew.getLsbD i =
      if 32 * k.val ≤ i ∧ i < 32 * k.val + 32 ∧ en.getLsbD (i - 32 * k.val) = true then v.getLsbD (i - 32 * k.val)
      else x.d.pmc.chainNew.getLsbD i)) ∧
  (∀ d : Data, d.domUp 2 = true → d.pmcEdge.pmc.chain = d.pmc.chainNew ∧
    (d.pmc.clr = false → ∀ c, SMap.get 0 d.pmcEdge.pmc.cnt c = SMap.get 0 d.pmc.cnt c)) ∧
  (∀ (d : Data) (m : Fin 256) (n : Nat), d.domUp 2 = true → d.pmc.chain.getLsbD m.val = true →
    d.tally (2 * m.val + 1) n = d ∧
    (SMap.get 0 d.pmc.cnt (2 * m.val) < 2 ^ 48 → SMap.get 0 d.pmc.cnt (2 * m.val + 1) < 2 ^ 48 → n ≤ 64 → d.cycNow.loads = [] →
      SMap.get 0 (d.tally (2 * m.val) n).pmc.cnt (2 * m.val) + 2 ^ 48 * SMap.get 0 (d.tally (2 * m.val) n).pmc.cnt (2 * m.val + 1) =
        (SMap.get 0 d.pmc.cnt (2 * m.val) + 2 ^ 48 * SMap.get 0 d.pmc.cnt (2 * m.val + 1) + n) % 2 ^ 96 ∧
      SMap.get 0 (d.tally (2 * m.val) n).pmc.cnt (2 * m.val) < 2 ^ 48 ∧
      SMap.get 0 (d.tally (2 * m.val) n).pmc.cnt (2 * m.val + 1) < 2 ^ 48 ∧
      (d.tally (2 * m.val) n).pmc.ovf.getLsbD (2 * m.val) = d.pmc.ovf.getLsbD (2 * m.val)))

/-- PMC_WVAL_HI loads the counter that PMC_WSEL names, with the additions of its cycle on top (R327, R352); CLR_ALL clears every counter at the next tick edge. -/
def Obligations.CounterLoad : Prop :=
  (∀ (x : DM) (r : Requester) (v en : Word) (c : Nat), en ≠ 0 → x.d.quiet r Reg.pmcWvalHi → x.d.cycNow.base = none → x.d.cycNow.adds = [] →
    c = x.d.fld Reg.pmcWsel 0 9 →
    (x.writeReg r Reg.pmcWvalHi v en).d.pmc.ovf = x.d.pmc.ovf ∧
    (x.writeReg r Reg.pmcWvalHi v en).d.evt = x.d.evt ∧
    SMap.get 0 (x.writeReg r Reg.pmcWvalHi v en).d.pmc.cnt c = (x.d.reg Reg.pmcWvalLo).toNat + 2 ^ 32 *
      bits (((x.d.reg Reg.pmcWvalHi) &&& ~~~(en &&& 0xFFFF)) ||| (v &&& (en &&& 0xFFFF))).toNat 0 16 ∧
    (∀ k, k ≠ c → SMap.get 0 (x.writeReg r Reg.pmcWvalHi v en).d.pmc.cnt k = SMap.get 0 x.d.pmc.cnt k)) ∧
  (∀ (d : Data) (c n : Nat), d.domUp 2 = true → 0 < n → n ≤ 64 → c = d.fld Reg.pmcWsel 0 9 →
    d.cycNow.base = none → d.cycNow.adds = [] → d.pmc.chain.getLsbD (c / 2) = false →
    SMap.get 0 (d.tally c n).pmcLoad.pmc.cnt c = ((d.reg Reg.pmcWvalLo).toNat + d.fld Reg.pmcWvalHi 0 16 * 2 ^ 32 + n) % 2 ^ 48 ∧
    (d.tally c n).pmcLoad.pmc.ovf = d.pmc.ovf) ∧
  (∀ (x : DM) (r : Requester) (v en : Word), v.getLsbD 1 = true → en.getLsbD 1 = true → x.d.quiet r Reg.pmcCtl →
    (x.writeReg r Reg.pmcCtl v en).d.pmc.clr = true ∧ (x.writeReg r Reg.pmcCtl v en).d.pmc.cnt = x.d.pmc.cnt) ∧
  (∀ d : Data, d.domUp 2 = true → d.pmc.clr = true →
    d.pmcEdge.pmc.clr = false ∧ d.pmcEdge.pmc.ovf = 0 ∧
    ∀ c, SMap.get 0 d.pmcEdge.pmc.cnt c = if c ∈ d.cycNow.loads then SMap.get 0 d.pmc.cnt c else 0)

/-- PKT of a queue, pops of its head, and what a device consumer takes (R298). A GAP marker that has waited may land as a word frees (R302). -/
def Obligations.QueueItemsCounted : Prop :=
  (∀ (x : DM) (r : Requester) (q : Fin 16384), (x.d.qRec q.val).isSome = true → x.d.qPkt q.val < 2 ^ 16 →
    (x.view r (Reg.quedPkt q.val)).toNat = ((x.d.que1 q.val).words.filter fun w => w.eop).length) ∧
  (∀ (d : Data) (r : QRec) (q : Nat) (w : QWord) (o : QOpen) (p : Option Agent) (u : BitVec 67),
    ((d.qLand r q w o p u).que1 q).words = (d.que1 q).words ++ [w.flip u] ∧ (d.qLand r q w o p u).qPkt q = d.qPkt q + b2n (w.flip u).eop ∧ w.flip 0 = w) ∧
  (∀ (d : Data) (r : QRec) (q : Nat) (u : BitVec 67) (w : QWord) (ws : List QWord), (d.que1 q).words = w :: ws →
    (d.qPop r q u).2.data = (w.flip u).data ∧ (d.qPop r q u).2.eop = (w.flip u).eop ∧ (d.qPop r q u).2.under = false ∧
    ∃ g : List QWord, ((d.qPop r q u).1.que1 q).words = ws ++ g ∧ g.length ≤ 1 ∧
      ((d.que1 q).gapPend = 0 → g = [] ∧ (d.qPop r q u).1.qPkt q + b2n w.eop = d.qPkt q)) ∧
  (∀ (d : Data) (q : Nat), d.qPkt q = 0 → d.qTake q = (d, none)) ∧
  (∀ (d : Data) (r : QRec) (q : Nat) (ws post : List QWord) (w : QWord), d.qRec q = some r →
    (d.que1 q).words = ws ++ w :: post → (∀ v ∈ ws, v.eop = false) → w.eop = true →
    (∃ g : List QWord, ((d.qTake q).1.que1 q).words = post ++ g ∧ g.length ≤ 1) ∧
    (∀ l, (d.qTake q).2 = some l → l.map (·.data) = (ws ++ [w]).map (·.data)) ∧
    ((d.qTake q).2 = none → ws = [] ∧ w.data.toNat % 256 = 0xFE))

/-- A pop of an empty queue (R301): what it returns, what it changes, its Q_WORD, STAT.EMPTY and the event. That a word stands over which lands in the cycle of the pop follows R304. -/
def Obligations.QueueUnderrun : Prop :=
  (∀ (d : Data) (r : QRec) (q : Nat) (u : BitVec 67), (d.que1 q).words = [] →
    (d.qPop r q u).2 = { data := (d.que1 q).lastVal, eop := false, poison := false, under := true } ∧
    (d.qPop r q u).1.que1 q = { d.que1 q with underrun := true, popAt := some d.qCycle } ∧
    (∀ k, k ≠ q → (d.qPop r q u).1.que1 k = d.que1 k) ∧
    (d.qPop r q u).1.evt.latch.getLsbD 132 = true) ∧
  (∀ (d : Data) (r : QRec) (q : Nat) (u : BitVec 67) (w : QWord) (ws : List QWord), (d.que1 q).words = w :: ws →
    ((d.qPop r q u).1.que1 q).lastVal = (w.flip u).data) ∧
  (∀ (d : Data) (q : Nat), (d.coldReset.que1 q).lastVal = 0 ∧ (d.warmReset.que1 q).lastVal = 0) ∧
  (∀ (d : Data) (r : QRec) (q : Nat) (u : BitVec 67), (d.que1 q).popAt ≠ some d.qCycle → (d.que1 q).flushAt ≠ some d.qCycle →
    (d.que1 q).landAt = some d.qCycle → (d.que1 q).words.length = 1 →
    (d.qOwnPop r q u).2 = { data := (d.que1 q).lastVal, eop := false, poison := false, under := true } ∧
    ((d.qOwnPop r q u).1.que1 q).words = (d.que1 q).words) ∧
  (∀ (x : DM) (r : QRec) (p : Agent) (tag : Byte) (q : BitVec 14) (u : BitVec 67) (perm : Word),
    x.d.qRec q.toNat = some r → r.owner = p.val →
    ((x.d.que1 q.toNat).popAt = some x.d.qCycle ∨ ((x.d.que1 q.toNat).flushAt ≠ some x.d.qCycle ∧ (x.d.que1 q.toNat).landAt ≠ some x.d.qCycle)) →
    (x.mgqDo p (.pop tag q u perm)).2 =
      some (.qWord tag q (x.d.qPop r q.toNat u).2.eop (x.d.qPop r q.toNat u).2.poison
        ((x.d.qPop r q.toNat u).1.que1 q.toNat).words.isEmpty (x.d.qPop r q.toNat u).2.under 0 (x.d.qPop r q.toNat u).2.data) ∧
    ((x.d.que1 q.toNat).words = [] → (x.mgqDo p (.pop tag q u perm)).2 =
      some (.qWord tag q false false true true 0 (x.d.que1 q.toNat).lastVal))) ∧
  (∀ (x : DM) (r : Requester) (q : Fin 16384), (x.d.qRec q.val).isSome = true → (x.d.que1 q.val).words.length < 2 ^ 16 →
    (x.view r (Reg.quedStat q.val)).getLsbD 16 = (x.d.que1 q.val).words.isEmpty ∧
    (x.view r (Reg.quedStat q.val)).getLsbD 18 = (x.d.que1 q.val).underrun)

/-- Frame of pushes and pops (R296 to R302): every other queue, and everything of the device but queues, registers, counters, event latches and the Q_NOTE of a port, stays as it was. -/
def Obligations.PushesKeepOtherQueues : Prop :=
  ∀ (d e : Data) (r : QRec) (q : Nat),
    ((∃ w who u, e = (d.qPush r q w who u).1) ∨ (∃ u, e = (d.qPop r q u).1)) →
    (∀ k, k ≠ q → e.que1 k = d.que1 k) ∧
    e.slices = d.slices ∧ e.store = d.store ∧ e.bkps = d.bkps ∧ e.links = d.links ∧ e.ilv = d.ilv ∧ e.dur = d.dur ∧
    e.hlm = d.hlm ∧ e.mnts = d.mnts ∧ e.rig = d.rig ∧ e.banks = d.banks ∧ e.mbx = d.mbx ∧ e.pwr = d.pwr ∧ e.ptp = d.ptp ∧
    e.pair = d.pair ∧ e.svc = d.svc ∧ e.evt.pend = d.evt.pend ∧ e.evt.tick = d.evt.tick ∧ e.evt.list = d.evt.list ∧
    (∀ p : Fin 16, (d.ports[p].mgqOut ≠ e.ports[p].mgqOut → e.ports[p].mgqOut = d.ports[p].mgqOut ++ [.qNote (BitVec.ofNat 14 q)]) ∧
      e.ports[p].tx = d.ports[p].tx ∧ e.ports[p].mgqIn = d.ports[p].mgqIn ∧ e.ports[p].iso = d.ports[p].iso) ∧
    (∀ a, e.reg a ≠ d.reg a → a = Reg.quedDrop q ∨ a = Reg.quedLost q ∨ a = Reg.quedRsync q ∨ a = Reg.queParCnt ∨ a = Reg.queEvcap)

/-- A power failure stops the hallmark engine (R250): every item that it has taken is abandoned and counted, heads and queues stand, and no item is taken until a start runs the engine again. -/
def Obligations.PowerFailStopsTheSealEngine : Prop :=
  (∀ d : Data,
    (∀ k : Fin 8, d.failStart.hlm.lanes[k] = none) ∧ d.failStart.hlm.heads = d.hlm.heads ∧ d.failStart.que = d.que ∧
    d.failStart.dur.sealAbort = (d.hlm.lanes.toList.filter fun o => o.isSome).length ∧
    d.failStart.hlm.run = false ∧
    (d.hlm.lanes.toList.any (fun o => o.isSome) = true → d.failStart.evt.latch.getLsbD 1012 = true)) ∧
  (∀ d : Data, d.hlm.run = false → d.sealTake = d)

/-- What a write leaves in each field of a register, by its access type and byte enables (R9, R338, R351), and the frame: bits of no field, bits not enabled and every other register stand. -/
def Obligations.FieldTypesOnWrite : Prop :=
  ∀ (d : Data) (a : Nat) (row : RegRow) (v en : Word), regRow a = some row →
    (∀ f ∈ row.flds, ∀ i, f.lo ≤ i → i < f.lo + f.n → ((d.regWrite a v en).reg a).getLsbD i =
      match f.acc with
      | .rw | .rws | .wo => if en.getLsbD i then v.getLsbD i else (d.reg a).getLsbD i
      | .w1c => (d.reg a).getLsbD i && !(v.getLsbD i && en.getLsbD i)
      | .w1s => (d.reg a).getLsbD i || (v.getLsbD i && en.getLsbD i)
      | .ro | .rc | .trg => (d.reg a).getLsbD i) ∧
    (∀ i, en.getLsbD i = false ∨ (∀ f ∈ row.flds, i < f.lo ∨ f.lo + f.n ≤ i) →
      ((d.regWrite a v en).reg a).getLsbD i = (d.reg a).getLsbD i) ∧
    (∀ b, b ≠ a → (d.regWrite a v en).reg b = d.reg b) ∧
    (∀ (x : DM) (r : Requester) (n : Fin 8) (u : Word), x.d.quiet r (Reg.slcCdis n.val) → u.getLsbD 0 = false → u.getLsbD 1 = false →
      (x.writeReg r (Reg.slcCdis n.val) u 0xFFFFFFFF).d.flag (Reg.slcCdis n.val) 4 = (x.d.flag (Reg.slcCdis n.val) 4 && !u.getLsbD 4) ∧
      (({ x with d := x.d.raise (Reg.slcCdis n.val) 4 } : DM).writeReg r (Reg.slcCdis n.val) u 0xFFFFFFFF).d.flag (Reg.slcCdis n.val) 4 = true)

/-- An access that receives the error response (R336, R345): a write is discarded, a read returns all ones, and the bank of the requester, no other, records ACC_ERR, CAUSE and the address. -/
def Obligations.RefusedAccesses : Prop :=
  (∀ (x : DM) (a : Nat) (w : AccWidth) (be : Byte) (v : Dword) (u : BitVec 67) (c : BitVec 3), x.mgtUp = true →
    (accCause a (accBytes w) true false = some c → x.mgtWrite a w be v = { x with d := x.d.accError 16 c a }) ∧
    (accCause a (accBytes w) false false = some c → (x.mgtRead a w u).2 = DM.allOnes (accBytes w) ∧
      (x.mgtRead a w u).1 = { x with d := (x.d.accError 16 c a).modBank 16 fun b => { b with read := DM.allOnes (accBytes w) } })) ∧
  (∀ (x : DM) (p : Agent) (a : Nat) (w64 ok : Bool) (be : Byte) (v : Dword) (c : BitVec 3) (r : Requester), r.val = p.val →
    (accCause a (if w64 then 8 else 4) true true = some c →
      x.agentWrite p a w64 be v ok = ({ x with d := (x.d.tally 23).accError r c a }, 1)) ∧
    (accCause a (if w64 then 8 else 4) false true = some c → (x.agentRead p a w64 ok).2 = (1, DM.allOnes (if w64 then 8 else 4)))) ∧
  (∀ (d : Data) (r k : Requester) (c : BitVec 3) (a : Nat),
    (d.accError r c a).banks[r].accErr = true ∧ (d.accError r c a).banks[r].cause = c ∧
    (d.accError r c a).banks[r].errAddr = BitVec.ofNat 32 a ∧ (k ≠ r → (d.accError r c a).banks[k] = d.banks[k]) ∧
    (d.accError r c a).regs = d.regs) ∧
  (∀ (a w : Nat) (write mgq : Bool), w = 1 ∨ w = 2 ∨ w = 4 ∨ w = 8 →
    (accCause a w write mgq = none ↔
      (a % w = 0 ∨ w = 8 ∧ (a = Reg.topCbypLo ∨ a = Reg.topCbypStaleLo)) ∧ (regDom a).isSome = true ∧
      (mgq = true → accMgtOnly (a / 4 * 4) write = false ∧ (w = 8 → accMgtOnly (a + 4) write = false)))) ∧
  DM.allOnes 4 = 0xFFFFFFFF ∧ DM.allOnes 8 = 0xFFFFFFFFFFFFFFFF

/-- A mailbox (R347, R348): a write of SEL starts the fill, the fill completes with the object, or with ERR 1 or 2 and zeros. -/
def Obligations.MailboxFill : Prop :=
  (∀ (x : DM) (r : Requester) (m : Fin 8) (v en : Word), en ≠ 0 → x.d.quiet r (Reg.mbxSel m.val) →
    (x.writeReg r (Reg.mbxSel m.val) v en).d.mbx[m].valid = false ∧ (x.writeReg r (Reg.mbxSel m.val) v en).d.mbx[m].pend = true ∧
    (x.writeReg r (Reg.mbxSel m.val) v en).d.mbx[m].sel = (x.d.mbx[m].sel &&& ~~~en) ||| (v &&& en) ∧
    (x.writeReg r (Reg.mbxSel m.val) v en).d.mbx[m].data = x.d.mbx[m].data ∧
    (∀ k : Fin 8, k ≠ m → (x.writeReg r (Reg.mbxSel m.val) v en).d.mbx[k] = x.d.mbx[k])) ∧
  (∀ (x : DM) (m : Fin 8), x.d.mbx[m].pend = true →
    (x.mbxFill m).d.mbx[m].pend = false ∧ (x.mbxFill m).d.mbx[m].valid = true ∧
    (∀ k : Fin 8, k ≠ m → (x.mbxFill m).d.mbx[k] = x.d.mbx[k]) ∧
    (∀ cls i, cls = bits x.d.mbx[m].sel.toNat 24 8 → i = bits x.d.mbx[m].sel.toNat 0 24 →
      (cls ∉ [0x01, 0x02, 0x03, 0x04, 0x10, 0x11, 0x12, 0x13, 0x20, 0x30] ∨ (cls = 0x01 ∧ 512 ≤ i) ∨ (cls = 0x20 ∧ 256 ≤ i) ∨
          (cls = 0x10 ∧ 8 ≤ i) ∨ (cls = 0x12 ∧ 16 ≤ i) ∨ (cls = 0x03 ∧ 1 ≤ i) →
        (x.mbxFill m).d.mbx[m].err = 1 ∧ ∀ k : Fin 12, (x.mbxFill m).d.mbx[m].data[k] = 0) ∧
      ((cls = 0x01 ∧ i < 512 ∨ cls = 0x20 ∧ i < 256) → x.d.domUp 2 = false →
        (x.mbxFill m).d.mbx[m].err = 2 ∧ ∀ k : Fin 12, (x.mbxFill m).d.mbx[m].data[k] = 0) ∧
      (cls = 0x03 → i = 0 → (x.mbxFill m).d.mbx[m].err = 0 ∧
        (x.mbxFill m).d.mbx[m].data[1] ++ (x.mbxFill m).d.mbx[m].data[0] = x.d.evt.tick) ∧
      (cls = 0x01 → i < 512 → x.d.domUp 2 = true → SMap.get 0 x.d.pmc.edge i < 2 ^ 48 → (x.mbxFill m).d.mbx[m].err = 0 ∧
        (x.mbxFill m).d.mbx[m].data[0].toNat + 2 ^ 32 * (x.mbxFill m).d.mbx[m].data[1].toNat = SMap.get 0 x.d.pmc.edge i ∧
        (x.mbxFill m).d.mbx[m].data[4].getLsbD 0 = x.d.pmc.chain.getLsbD (i / 2))))

/-- What State.reset holds, as a cold reset leaves the device before power good (R9, R11, R126, R316, R406, R414): every register of the map reads as stored at its reset value, tables and queues are empty, only D0 is up. Values that the spec does not give are the choice of assumption 14 and are not stated here. -/
def Obligations.ResetState : Prop :=
  (∀ a, State.reset.d.reg a = regReset a) ∧ State.reset.pending = [] ∧ State.reset.d.pwr.boot = .off ∧
  (∀ i : Fin 30, State.reset.d.domUp i = decide (i.val = 0)) ∧
  (∀ n : Fin 8, State.reset.d.slices[n].tags = [] ∧ State.reset.d.slices[n].cdis = false) ∧
  State.reset.d.byp = 0 ∧ State.reset.d.bypStale = 0 ∧ State.reset.d.evt.tick = 0 ∧ State.reset.d.evt.pend = 0 ∧
  (∀ c, SMap.get 0 State.reset.d.pmc.cnt c = 0) ∧ (∀ q, (State.reset.d.que1 q).words = []) ∧ State.reset.d.rig = none ∧
  State.reset.m.up = false

/-- The addressed memories, the flash and the cache store, are in their canonical form after reset: a property of the model's own data. -/
def Obligations.MemoryCanonicalAtReset : Prop :=
  Memory.wf State.reset = true

/-- Every step keeps the flash in its canonical form, so that equal flash contents are equal data (R367). -/
def Obligations.EveryStepKeepsTheFlash : Prop :=
  ∀ s t : State, s.m.flashOk = true → step s = .next t → t.m.flashOk = true

/-- Programming and erasing the flash (R367): an erase sets every byte of its range to 0xFF; programming clears bits only, which is the model's choice (assumption 24, PRESUMED: NOR flash). -/
def Obligations.FlashProgramming : Prop :=
  ∀ (f : List Host.Cell), SMap.wf (0xFF : Byte) f →
    (∀ (o : Nat) (l : List Byte) (a : Nat), SMap.wf (0xFF : Byte) (flashProg f o l) ∧
      flashGet (flashProg f o l) a = if o ≤ a ∧ a < o + l.length then flashGet f a &&& l.getD (a - o) 0xFF else flashGet f a) ∧
    (∀ o n a : Nat, SMap.wf (0xFF : Byte) (flashErase f o n) ∧
      flashGet (flashErase f o n) a = if o ≤ a ∧ a < o + n then 0xFF else flashGet f a) ∧
    (∀ src dst b i : Nat, i < flBlock → SMap.wf (0xFF : Byte) (flashCopy f src dst b) ∧
      flashGet (flashCopy f src dst b) (dst + b * flBlock + i) = flashGet f (src + b * flBlock + i) ∧
      (∀ a, a < dst + b * flBlock ∨ dst + b * flBlock + flBlock ≤ a → flashGet (flashCopy f src dst b) a = flashGet f a))

/-- Which pass a slice admits (R92, R93). That the oldest pass is the one that the model created first is assumption 4. -/
def Obligations.AdmissionOrder : Prop :=
  ∀ (d : Data) (n : Fin 8),
    (d.admitNext n = none ↔ d.cands n = []) ∧
    (∀ c, d.admitNext n = some c →
      c ∈ d.cands n ∧
      ((∃ x ∈ d.cands n, x.since + 64 ≤ d.now) → c.since + 64 ≤ d.now ∧ ∀ x ∈ d.cands n, x.since + 64 ≤ d.now → c.seq ≤ x.seq) ∧
      ((∀ x ∈ d.cands n, d.now < x.since + 64) →
        ∀ x ∈ d.cands n, c.prio ≤ x.prio ∧ (x.prio = c.prio → c.seq ≤ x.seq)))

/-- A link that reaches DOWN keeps no state, and its port isolates the agent at once (R173, R205, R206). -/
def Obligations.DownIsolatesTheAgent : Prop :=
  ∀ (d : Data) (p : Fin 16),
    (d.linkDown (Data.aptLink p)).links[Data.aptLink p].st = .down ∧
    (d.linkDown (Data.aptLink p)).links[Data.aptLink p].replay = [] ∧
    (d.linkDown (Data.aptLink p)).ports[p].iso = true ∧
    (d.linkDown (Data.aptLink p)).evt.latch.getLsbD (577 + 24 * p.val) = true ∧
    (∀ l : Fin 17, l ≠ Data.aptLink p → (d.linkDown (Data.aptLink p)).links[l] = d.links[l]) ∧
    (d.ports[p].iso = false →
      (d.linkDown (Data.aptLink p)).evt.latch.getLsbD (589 + 24 * p.val) = true ∧
      (d.linkDown (Data.aptLink p)).ports[p].tx = [] ∧ (d.linkDown (Data.aptLink p)).ports[p].mgqIn = [] ∧
      (d.linkDown (Data.aptLink p)).ports[p].mgqOut = [] ∧ (d.linkDown (Data.aptLink p)).ports[p].snps = [] ∧
      (d.linkDown (Data.aptLink p)).ports[p].wbs = [])

/-- The journal record (R240 to R242): its length and fixed fields, that a start finds it valid, and that the chain heads come back from it. -/
def Obligations.JournalRecordsRestore : Prop :=
  ∀ (d : Data) (st jseq : Nat) (f restart : Bool), st = 1 ∨ st = 2 ∨ st = 3 →
    (d.journalRecord st jseq f).length = 16384 ∧
    sub (d.journalRecord st jseq f) 0 4 = [0x4B, 0x4A, 0x52, 0x4E] ∧
    leAt (d.journalRecord st jseq f) 4 2 = 1 ∧ leAt (d.journalRecord st jseq f) 6 2 = st ∧
    leAt (d.journalRecord st jseq f) 8 4 = jseq % 2 ^ 32 ∧ leAt (d.journalRecord st jseq f) 16 8 = d.fuses.devSer.toNat ∧
    Data.journalValid (d.journalRecord st jseq f) = true ∧
    (∀ s : Fin 256, SMap.get {} (Data.journalHeads (d.journalRecord st jseq f) restart) s.val =
      if (SMap.get {} d.hlm.heads s.val).valid then
        { hash := (SMap.get {} d.hlm.heads s.val).hash, seq := (SMap.get {} d.hlm.heads s.val).seq % 2 ^ 64,
          sec := (SMap.get {} d.hlm.heads s.val).sec % 2 ^ 48, valid := true, restart := restart }
      else {})

/-- The ledger (R216, R219, R221): charges and credits, the room, BUD, and the budget exceeded. -/
def Obligations.LedgerRoomAndBudget : Prop :=
  (∀ (d : Data) (n : Nat),
    (d.charge n).dur.e = d.dur.e + n ∧ (d.charge n).dur.rv = d.dur.rv ∧ (d.charge n).regs = d.regs ∧
    (d.credit n).dur.e = d.dur.e - n ∧ (d.credit n).dur.rv = d.dur.rv ∧ (d.credit n).slices = d.slices) ∧
  (∀ d : Data, d.room = d.budget - (d.dur.e + d.dur.rv) ∧
    d.ledgerSettle.dur.past = decide (d.budget < d.dur.e + d.dur.rv) ∧
    d.ledgerSettle.dur.bud = (d.dur.tr.isSome || decide (d.budget < d.dur.e + d.dur.rv + max 1024 (d.reg Reg.durGuard).toNat)) ∧
    d.ledgerSettle.dur.e = d.dur.e ∧ d.ledgerSettle.dur.rv = d.dur.rv ∧
    d.dur.peak ≤ d.ledgerSettle.dur.peak ∧ d.dur.e + d.dur.rv ≤ d.ledgerSettle.dur.peak ∧
    (d.dur.past = false → d.budget < d.dur.e + d.dur.rv → d.ledgerSettle.evt.latch.getLsbD 43 = true)) ∧
  (∀ (x : DM) (r : Requester) (v : Word) (y : Data), x.d.quiet r Reg.durBudget → (x.writeReg r Reg.durBudget v 0xFFFFFFFF).d = y →
    y.budget = x.d.budget ∧ y.dur.past = x.d.dur.past ∧
    (∀ t, y.now < t → ({ y with now := t } : Data).budget = v.toNat ∧
      ({ y with now := t } : Data).budgetSettle.dur.past = decide (v.toNat < x.d.dur.e + x.d.dur.rv)))

/-- A tick (R315 to R319): the tick number, the pending latches sampled, FATAL sources always delivered to the cores, and EVT_PEND bits that only a write clears. -/
def Obligations.TickSamplesTheEvents : Prop :=
  ∀ d : Data, d.pwr.boot ≠ .off →
    d.eventTick.evt.tick = d.evt.tick + (if d.domUp 2 then 1 else 100) ∧
    d.eventTick.evt.goUntil = false ∧
    (∀ s : Nat, s < 1024 →
      (d.evt.pend.getLsbD s = true → d.eventTick.evt.pend.getLsbD s = true) ∧
      (d.evt.latch.getLsbD s = false → d.eventTick.evt.pend.getLsbD s = d.evt.pend.getLsbD s) ∧
      (d.evt.latch.getLsbD s = true → severity s ≤ 4 → d.eventTick.evt.pend.getLsbD s =
        (d.evt.pend.getLsbD s || d.evCores s || (nbit (d.evEntry s) 0 && nbit (d.evEntry s) 3))))

/-- The sampling registers of the ports (R330): what a seed loads, and that no LFSR ever becomes zero. The taps of a step follow the polynomial (assumption 22). -/
def Obligations.SamplingNeverSticks : Prop :=
  (∀ (seed : Word) (p : Fin 16), lfsrLoad seed p ≠ 0 ∧
    lfsrLoad seed p = (if seed ^^^ BitVec.ofNat 32 (p.val * 0x9E37) = 0 then 1 else seed ^^^ BitVec.ofNat 32 (p.val * 0x9E37))) ∧
  lfsrLoad 0 0 = 1 ∧
  (∀ x : Word, x ≠ 0 → lfsrNext x ≠ 0) ∧
  (∀ x y : Word, lfsrNext x = lfsrNext y → x = y) ∧
  (∀ (x : DM) (r : Requester) (v : Word) (p : Fin 16), x.d.quiet r Reg.pmcSmpSeed →
    (x.writeReg r Reg.pmcSmpSeed v 0xFFFFFFFF).d.ports[p].lfsr = lfsrLoad v p)

/-- What cold and warm resets leave (R126, R414): fuses and time run on, every tag is INV, the region maps are 0; D0 alone is kept by a warm reset. -/
def Obligations.ResetsReach : Prop :=
  ∀ d : Data,
    d.coldReset.fuses = d.fuses ∧ d.warmReset.fuses = d.fuses ∧
    (∀ n : Fin 8, d.coldReset.slices[n].tags = [] ∧ d.warmReset.slices[n].tags = [] ∧ d.coldReset.slices[n].cdis = false ∧
      d.warmReset.slices[n].cdis = false) ∧
    d.coldReset.byp = 0 ∧ d.coldReset.bypStale = 0 ∧ d.warmReset.byp = 0 ∧ d.warmReset.bypStale = 0 ∧
    (∀ a, d.coldReset.reg a = regReset a) ∧
    (∀ a, d.warmReset.reg a = if regDom a = some 0 then d.reg a else regReset a) ∧
    d.coldReset.evt.tick = 0 ∧ d.warmReset.evt.tick = d.evt.tick ∧ d.coldReset.pwr.boot = .off ∧
    d.coldReset.que = [] ∧ d.warmReset.que = [] ∧ d.coldReset.pmc = {} ∧ d.warmReset.pmc = {}

/-- A codeword of the light code reads back as the granule that it was made from, and as poisoned where it was (R258 to R260); a flit that is striped over the lanes of a width and scrambled (R178) comes back from them. Taps and start of the scrambler are the model's reading (assumption 73), on which this does not rest. -/
def Obligations.CheckCodesDecodeWhatTheyEncode : Prop :=
  (∀ g : Gran, cwDecode (cwMake g false) = .good g ∧ cwDecode (cwMake g true) = .poison g) ∧
  (∀ (n : Nat) (v : Vector (BitVec 23) 16) (b : List Byte), n = 1 ∨ n = 2 ∨ n = 4 ∨ n = 16 → b.length = 256 → lanesIn n v (lanesOut n v b) = b)
end

