-- ==== Sys2Proof/Laws/State.lean ====
section
/-!
SUPPORT. What each update of the state leaves as it was and what it changes, one fact a lemma, and how commands work on the
whole state.
-/

namespace Sys2Proof.Machine

section Updates
variable (d : Data)

@[simp] theorem Data.modDur_fuses (f : Dur → Dur) : (d.modDur f).fuses = d.fuses := rfl
@[simp] theorem Data.modDur_now (f : Dur → Dur) : (d.modDur f).now = d.now := rfl
@[simp] theorem Data.modDur_cyc (f : Dur → Dur) : (d.modDur f).cyc = d.cyc := rfl
@[simp] theorem Data.modDur_seq (f : Dur → Dur) : (d.modDur f).seq = d.seq := rfl
@[simp] theorem Data.modDur_free (f : Dur → Dur) : (d.modDur f).free = d.free := rfl
@[simp] theorem Data.modDur_regs (f : Dur → Dur) : (d.modDur f).regs = d.regs := rfl
@[simp] theorem Data.modDur_banks (f : Dur → Dur) : (d.modDur f).banks = d.banks := rfl
@[simp] theorem Data.modDur_mbx (f : Dur → Dur) : (d.modDur f).mbx = d.mbx := rfl
@[simp] theorem Data.modDur_links (f : Dur → Dur) : (d.modDur f).links = d.links := rfl
@[simp] theorem Data.modDur_ports (f : Dur → Dur) : (d.modDur f).ports = d.ports := rfl
@[simp] theorem Data.modDur_ilv (f : Dur → Dur) : (d.modDur f).ilv = d.ilv := rfl
@[simp] theorem Data.modDur_slices (f : Dur → Dur) : (d.modDur f).slices = d.slices := rfl
@[simp] theorem Data.modDur_store (f : Dur → Dur) : (d.modDur f).store = d.store := rfl
@[simp] theorem Data.modDur_bkps (f : Dur → Dur) : (d.modDur f).bkps = d.bkps := rfl
@[simp] theorem Data.modDur_dur (f : Dur → Dur) : (d.modDur f).dur = f d.dur := rfl
@[simp] theorem Data.modDur_hlm (f : Dur → Dur) : (d.modDur f).hlm = d.hlm := rfl
@[simp] theorem Data.modDur_mnts (f : Dur → Dur) : (d.modDur f).mnts = d.mnts := rfl
@[simp] theorem Data.modDur_mntTurn (f : Dur → Dur) : (d.modDur f).mntTurn = d.mntTurn := rfl
@[simp] theorem Data.modDur_que (f : Dur → Dur) : (d.modDur f).que = d.que := rfl
@[simp] theorem Data.modDur_queOnce (f : Dur → Dur) : (d.modDur f).queOnce = d.queOnce := rfl
@[simp] theorem Data.modDur_evt (f : Dur → Dur) : (d.modDur f).evt = d.evt := rfl
@[simp] theorem Data.modDur_pmc (f : Dur → Dur) : (d.modDur f).pmc = d.pmc := rfl
@[simp] theorem Data.modDur_rig (f : Dur → Dur) : (d.modDur f).rig = d.rig := rfl
@[simp] theorem Data.modDur_reload (f : Dur → Dur) : (d.modDur f).reload = d.reload := rfl
@[simp] theorem Data.modDur_prev (f : Dur → Dur) : (d.modDur f).prev = d.prev := rfl
@[simp] theorem Data.modDur_rigFallback (f : Dur → Dur) : (d.modDur f).rigFallback = d.rigFallback := rfl
@[simp] theorem Data.modDur_rigErr (f : Dur → Dur) : (d.modDur f).rigErr = d.rigErr := rfl
@[simp] theorem Data.modDur_rigErrSec (f : Dur → Dur) : (d.modDur f).rigErrSec = d.rigErrSec := rfl
@[simp] theorem Data.modDur_rigBusyGo (f : Dur → Dur) : (d.modDur f).rigBusyGo = d.rigBusyGo := rfl
@[simp] theorem Data.modDur_byp (f : Dur → Dur) : (d.modDur f).byp = d.byp := rfl
@[simp] theorem Data.modDur_bypAt (f : Dur → Dur) : (d.modDur f).bypAt = d.bypAt := rfl
@[simp] theorem Data.modDur_bypStale (f : Dur → Dur) : (d.modDur f).bypStale = d.bypStale := rfl
@[simp] theorem Data.modDur_touchDem (f : Dur → Dur) : (d.modDur f).touchDem = d.touchDem := rfl
@[simp] theorem Data.modDur_pwr (f : Dur → Dur) : (d.modDur f).pwr = d.pwr := rfl
@[simp] theorem Data.modDur_ptp (f : Dur → Dur) : (d.modDur f).ptp = d.ptp := rfl
@[simp] theorem Data.modDur_pair (f : Dur → Dur) : (d.modDur f).pair = d.pair := rfl
@[simp] theorem Data.modDur_svc (f : Dur → Dur) : (d.modDur f).svc = d.svc := rfl
@[simp] theorem Data.modHlm_fuses (f : Hlm → Hlm) : (d.modHlm f).fuses = d.fuses := rfl
@[simp] theorem Data.modHlm_now (f : Hlm → Hlm) : (d.modHlm f).now = d.now := rfl
@[simp] theorem Data.modHlm_cyc (f : Hlm → Hlm) : (d.modHlm f).cyc = d.cyc := rfl
@[simp] theorem Data.modHlm_seq (f : Hlm → Hlm) : (d.modHlm f).seq = d.seq := rfl
@[simp] theorem Data.modHlm_free (f : Hlm → Hlm) : (d.modHlm f).free = d.free := rfl
@[simp] theorem Data.modHlm_regs (f : Hlm → Hlm) : (d.modHlm f).regs = d.regs := rfl
@[simp] theorem Data.modHlm_banks (f : Hlm → Hlm) : (d.modHlm f).banks = d.banks := rfl
@[simp] theorem Data.modHlm_mbx (f : Hlm → Hlm) : (d.modHlm f).mbx = d.mbx := rfl
@[simp] theorem Data.modHlm_links (f : Hlm → Hlm) : (d.modHlm f).links = d.links := rfl
@[simp] theorem Data.modHlm_ports (f : Hlm → Hlm) : (d.modHlm f).ports = d.ports := rfl
@[simp] theorem Data.modHlm_ilv (f : Hlm → Hlm) : (d.modHlm f).ilv = d.ilv := rfl
@[simp] theorem Data.modHlm_slices (f : Hlm → Hlm) : (d.modHlm f).slices = d.slices := rfl
@[simp] theorem Data.modHlm_store (f : Hlm → Hlm) : (d.modHlm f).store = d.store := rfl
@[simp] theorem Data.modHlm_bkps (f : Hlm → Hlm) : (d.modHlm f).bkps = d.bkps := rfl
@[simp] theorem Data.modHlm_dur (f : Hlm → Hlm) : (d.modHlm f).dur = d.dur := rfl
@[simp] theorem Data.modHlm_hlm (f : Hlm → Hlm) : (d.modHlm f).hlm = f d.hlm := rfl
@[simp] theorem Data.modHlm_mnts (f : Hlm → Hlm) : (d.modHlm f).mnts = d.mnts := rfl
@[simp] theorem Data.modHlm_mntTurn (f : Hlm → Hlm) : (d.modHlm f).mntTurn = d.mntTurn := rfl
@[simp] theorem Data.modHlm_que (f : Hlm → Hlm) : (d.modHlm f).que = d.que := rfl
@[simp] theorem Data.modHlm_queOnce (f : Hlm → Hlm) : (d.modHlm f).queOnce = d.queOnce := rfl
@[simp] theorem Data.modHlm_evt (f : Hlm → Hlm) : (d.modHlm f).evt = d.evt := rfl
@[simp] theorem Data.modHlm_pmc (f : Hlm → Hlm) : (d.modHlm f).pmc = d.pmc := rfl
@[simp] theorem Data.modHlm_rig (f : Hlm → Hlm) : (d.modHlm f).rig = d.rig := rfl
@[simp] theorem Data.modHlm_reload (f : Hlm → Hlm) : (d.modHlm f).reload = d.reload := rfl
@[simp] theorem Data.modHlm_prev (f : Hlm → Hlm) : (d.modHlm f).prev = d.prev := rfl
@[simp] theorem Data.modHlm_rigFallback (f : Hlm → Hlm) : (d.modHlm f).rigFallback = d.rigFallback := rfl
@[simp] theorem Data.modHlm_rigErr (f : Hlm → Hlm) : (d.modHlm f).rigErr = d.rigErr := rfl
@[simp] theorem Data.modHlm_rigErrSec (f : Hlm → Hlm) : (d.modHlm f).rigErrSec = d.rigErrSec := rfl
@[simp] theorem Data.modHlm_rigBusyGo (f : Hlm → Hlm) : (d.modHlm f).rigBusyGo = d.rigBusyGo := rfl
@[simp] theorem Data.modHlm_byp (f : Hlm → Hlm) : (d.modHlm f).byp = d.byp := rfl
@[simp] theorem Data.modHlm_bypAt (f : Hlm → Hlm) : (d.modHlm f).bypAt = d.bypAt := rfl
@[simp] theorem Data.modHlm_bypStale (f : Hlm → Hlm) : (d.modHlm f).bypStale = d.bypStale := rfl
@[simp] theorem Data.modHlm_touchDem (f : Hlm → Hlm) : (d.modHlm f).touchDem = d.touchDem := rfl
@[simp] theorem Data.modHlm_pwr (f : Hlm → Hlm) : (d.modHlm f).pwr = d.pwr := rfl
@[simp] theorem Data.modHlm_ptp (f : Hlm → Hlm) : (d.modHlm f).ptp = d.ptp := rfl
@[simp] theorem Data.modHlm_pair (f : Hlm → Hlm) : (d.modHlm f).pair = d.pair := rfl
@[simp] theorem Data.modHlm_svc (f : Hlm → Hlm) : (d.modHlm f).svc = d.svc := rfl
@[simp] theorem Data.modEvt_fuses (f : Evt → Evt) : (d.modEvt f).fuses = d.fuses := rfl
@[simp] theorem Data.modEvt_now (f : Evt → Evt) : (d.modEvt f).now = d.now := rfl
@[simp] theorem Data.modEvt_cyc (f : Evt → Evt) : (d.modEvt f).cyc = d.cyc := rfl
@[simp] theorem Data.modEvt_seq (f : Evt → Evt) : (d.modEvt f).seq = d.seq := rfl
@[simp] theorem Data.modEvt_free (f : Evt → Evt) : (d.modEvt f).free = d.free := rfl
@[simp] theorem Data.modEvt_regs (f : Evt → Evt) : (d.modEvt f).regs = d.regs := rfl
@[simp] theorem Data.modEvt_banks (f : Evt → Evt) : (d.modEvt f).banks = d.banks := rfl
@[simp] theorem Data.modEvt_mbx (f : Evt → Evt) : (d.modEvt f).mbx = d.mbx := rfl
@[simp] theorem Data.modEvt_links (f : Evt → Evt) : (d.modEvt f).links = d.links := rfl
@[simp] theorem Data.modEvt_ports (f : Evt → Evt) : (d.modEvt f).ports = d.ports := rfl
@[simp] theorem Data.modEvt_ilv (f : Evt → Evt) : (d.modEvt f).ilv = d.ilv := rfl
@[simp] theorem Data.modEvt_slices (f : Evt → Evt) : (d.modEvt f).slices = d.slices := rfl
@[simp] theorem Data.modEvt_store (f : Evt → Evt) : (d.modEvt f).store = d.store := rfl
@[simp] theorem Data.modEvt_bkps (f : Evt → Evt) : (d.modEvt f).bkps = d.bkps := rfl
@[simp] theorem Data.modEvt_dur (f : Evt → Evt) : (d.modEvt f).dur = d.dur := rfl
@[simp] theorem Data.modEvt_hlm (f : Evt → Evt) : (d.modEvt f).hlm = d.hlm := rfl
@[simp] theorem Data.modEvt_mnts (f : Evt → Evt) : (d.modEvt f).mnts = d.mnts := rfl
@[simp] theorem Data.modEvt_mntTurn (f : Evt → Evt) : (d.modEvt f).mntTurn = d.mntTurn := rfl
@[simp] theorem Data.modEvt_que (f : Evt → Evt) : (d.modEvt f).que = d.que := rfl
@[simp] theorem Data.modEvt_queOnce (f : Evt → Evt) : (d.modEvt f).queOnce = d.queOnce := rfl
@[simp] theorem Data.modEvt_evt (f : Evt → Evt) : (d.modEvt f).evt = f d.evt := rfl
@[simp] theorem Data.modEvt_pmc (f : Evt → Evt) : (d.modEvt f).pmc = d.pmc := rfl
@[simp] theorem Data.modEvt_rig (f : Evt → Evt) : (d.modEvt f).rig = d.rig := rfl
@[simp] theorem Data.modEvt_reload (f : Evt → Evt) : (d.modEvt f).reload = d.reload := rfl
@[simp] theorem Data.modEvt_prev (f : Evt → Evt) : (d.modEvt f).prev = d.prev := rfl
@[simp] theorem Data.modEvt_rigFallback (f : Evt → Evt) : (d.modEvt f).rigFallback = d.rigFallback := rfl
@[simp] theorem Data.modEvt_rigErr (f : Evt → Evt) : (d.modEvt f).rigErr = d.rigErr := rfl
@[simp] theorem Data.modEvt_rigErrSec (f : Evt → Evt) : (d.modEvt f).rigErrSec = d.rigErrSec := rfl
@[simp] theorem Data.modEvt_rigBusyGo (f : Evt → Evt) : (d.modEvt f).rigBusyGo = d.rigBusyGo := rfl
@[simp] theorem Data.modEvt_byp (f : Evt → Evt) : (d.modEvt f).byp = d.byp := rfl
@[simp] theorem Data.modEvt_bypAt (f : Evt → Evt) : (d.modEvt f).bypAt = d.bypAt := rfl
@[simp] theorem Data.modEvt_bypStale (f : Evt → Evt) : (d.modEvt f).bypStale = d.bypStale := rfl
@[simp] theorem Data.modEvt_touchDem (f : Evt → Evt) : (d.modEvt f).touchDem = d.touchDem := rfl
@[simp] theorem Data.modEvt_pwr (f : Evt → Evt) : (d.modEvt f).pwr = d.pwr := rfl
@[simp] theorem Data.modEvt_ptp (f : Evt → Evt) : (d.modEvt f).ptp = d.ptp := rfl
@[simp] theorem Data.modEvt_pair (f : Evt → Evt) : (d.modEvt f).pair = d.pair := rfl
@[simp] theorem Data.modEvt_svc (f : Evt → Evt) : (d.modEvt f).svc = d.svc := rfl
@[simp] theorem Data.modPmc_fuses (f : Pmc → Pmc) : (d.modPmc f).fuses = d.fuses := rfl
@[simp] theorem Data.modPmc_now (f : Pmc → Pmc) : (d.modPmc f).now = d.now := rfl
@[simp] theorem Data.modPmc_cyc (f : Pmc → Pmc) : (d.modPmc f).cyc = d.cyc := rfl
@[simp] theorem Data.modPmc_seq (f : Pmc → Pmc) : (d.modPmc f).seq = d.seq := rfl
@[simp] theorem Data.modPmc_free (f : Pmc → Pmc) : (d.modPmc f).free = d.free := rfl
@[simp] theorem Data.modPmc_regs (f : Pmc → Pmc) : (d.modPmc f).regs = d.regs := rfl
@[simp] theorem Data.modPmc_banks (f : Pmc → Pmc) : (d.modPmc f).banks = d.banks := rfl
@[simp] theorem Data.modPmc_mbx (f : Pmc → Pmc) : (d.modPmc f).mbx = d.mbx := rfl
@[simp] theorem Data.modPmc_links (f : Pmc → Pmc) : (d.modPmc f).links = d.links := rfl
@[simp] theorem Data.modPmc_ports (f : Pmc → Pmc) : (d.modPmc f).ports = d.ports := rfl
@[simp] theorem Data.modPmc_ilv (f : Pmc → Pmc) : (d.modPmc f).ilv = d.ilv := rfl
@[simp] theorem Data.modPmc_slices (f : Pmc → Pmc) : (d.modPmc f).slices = d.slices := rfl
@[simp] theorem Data.modPmc_store (f : Pmc → Pmc) : (d.modPmc f).store = d.store := rfl
@[simp] theorem Data.modPmc_bkps (f : Pmc → Pmc) : (d.modPmc f).bkps = d.bkps := rfl
@[simp] theorem Data.modPmc_dur (f : Pmc → Pmc) : (d.modPmc f).dur = d.dur := rfl
@[simp] theorem Data.modPmc_hlm (f : Pmc → Pmc) : (d.modPmc f).hlm = d.hlm := rfl
@[simp] theorem Data.modPmc_mnts (f : Pmc → Pmc) : (d.modPmc f).mnts = d.mnts := rfl
@[simp] theorem Data.modPmc_mntTurn (f : Pmc → Pmc) : (d.modPmc f).mntTurn = d.mntTurn := rfl
@[simp] theorem Data.modPmc_que (f : Pmc → Pmc) : (d.modPmc f).que = d.que := rfl
@[simp] theorem Data.modPmc_queOnce (f : Pmc → Pmc) : (d.modPmc f).queOnce = d.queOnce := rfl
@[simp] theorem Data.modPmc_evt (f : Pmc → Pmc) : (d.modPmc f).evt = d.evt := rfl
@[simp] theorem Data.modPmc_pmc (f : Pmc → Pmc) : (d.modPmc f).pmc = f d.pmc := rfl
@[simp] theorem Data.modPmc_rig (f : Pmc → Pmc) : (d.modPmc f).rig = d.rig := rfl
@[simp] theorem Data.modPmc_reload (f : Pmc → Pmc) : (d.modPmc f).reload = d.reload := rfl
@[simp] theorem Data.modPmc_prev (f : Pmc → Pmc) : (d.modPmc f).prev = d.prev := rfl
@[simp] theorem Data.modPmc_rigFallback (f : Pmc → Pmc) : (d.modPmc f).rigFallback = d.rigFallback := rfl
@[simp] theorem Data.modPmc_rigErr (f : Pmc → Pmc) : (d.modPmc f).rigErr = d.rigErr := rfl
@[simp] theorem Data.modPmc_rigErrSec (f : Pmc → Pmc) : (d.modPmc f).rigErrSec = d.rigErrSec := rfl
@[simp] theorem Data.modPmc_rigBusyGo (f : Pmc → Pmc) : (d.modPmc f).rigBusyGo = d.rigBusyGo := rfl
@[simp] theorem Data.modPmc_byp (f : Pmc → Pmc) : (d.modPmc f).byp = d.byp := rfl
@[simp] theorem Data.modPmc_bypAt (f : Pmc → Pmc) : (d.modPmc f).bypAt = d.bypAt := rfl
@[simp] theorem Data.modPmc_bypStale (f : Pmc → Pmc) : (d.modPmc f).bypStale = d.bypStale := rfl
@[simp] theorem Data.modPmc_touchDem (f : Pmc → Pmc) : (d.modPmc f).touchDem = d.touchDem := rfl
@[simp] theorem Data.modPmc_pwr (f : Pmc → Pmc) : (d.modPmc f).pwr = d.pwr := rfl
@[simp] theorem Data.modPmc_ptp (f : Pmc → Pmc) : (d.modPmc f).ptp = d.ptp := rfl
@[simp] theorem Data.modPmc_pair (f : Pmc → Pmc) : (d.modPmc f).pair = d.pair := rfl
@[simp] theorem Data.modPmc_svc (f : Pmc → Pmc) : (d.modPmc f).svc = d.svc := rfl
@[simp] theorem Data.modPwr_fuses (f : Pwr → Pwr) : (d.modPwr f).fuses = d.fuses := rfl
@[simp] theorem Data.modPwr_now (f : Pwr → Pwr) : (d.modPwr f).now = d.now := rfl
@[simp] theorem Data.modPwr_cyc (f : Pwr → Pwr) : (d.modPwr f).cyc = d.cyc := rfl
@[simp] theorem Data.modPwr_seq (f : Pwr → Pwr) : (d.modPwr f).seq = d.seq := rfl
@[simp] theorem Data.modPwr_free (f : Pwr → Pwr) : (d.modPwr f).free = d.free := rfl
@[simp] theorem Data.modPwr_regs (f : Pwr → Pwr) : (d.modPwr f).regs = d.regs := rfl
@[simp] theorem Data.modPwr_banks (f : Pwr → Pwr) : (d.modPwr f).banks = d.banks := rfl
@[simp] theorem Data.modPwr_mbx (f : Pwr → Pwr) : (d.modPwr f).mbx = d.mbx := rfl
@[simp] theorem Data.modPwr_links (f : Pwr → Pwr) : (d.modPwr f).links = d.links := rfl
@[simp] theorem Data.modPwr_ports (f : Pwr → Pwr) : (d.modPwr f).ports = d.ports := rfl
@[simp] theorem Data.modPwr_ilv (f : Pwr → Pwr) : (d.modPwr f).ilv = d.ilv := rfl
@[simp] theorem Data.modPwr_slices (f : Pwr → Pwr) : (d.modPwr f).slices = d.slices := rfl
@[simp] theorem Data.modPwr_store (f : Pwr → Pwr) : (d.modPwr f).store = d.store := rfl
@[simp] theorem Data.modPwr_bkps (f : Pwr → Pwr) : (d.modPwr f).bkps = d.bkps := rfl
@[simp] theorem Data.modPwr_dur (f : Pwr → Pwr) : (d.modPwr f).dur = d.dur := rfl
@[simp] theorem Data.modPwr_hlm (f : Pwr → Pwr) : (d.modPwr f).hlm = d.hlm := rfl
@[simp] theorem Data.modPwr_mnts (f : Pwr → Pwr) : (d.modPwr f).mnts = d.mnts := rfl
@[simp] theorem Data.modPwr_mntTurn (f : Pwr → Pwr) : (d.modPwr f).mntTurn = d.mntTurn := rfl
@[simp] theorem Data.modPwr_que (f : Pwr → Pwr) : (d.modPwr f).que = d.que := rfl
@[simp] theorem Data.modPwr_queOnce (f : Pwr → Pwr) : (d.modPwr f).queOnce = d.queOnce := rfl
@[simp] theorem Data.modPwr_evt (f : Pwr → Pwr) : (d.modPwr f).evt = d.evt := rfl
@[simp] theorem Data.modPwr_pmc (f : Pwr → Pwr) : (d.modPwr f).pmc = d.pmc := rfl
@[simp] theorem Data.modPwr_rig (f : Pwr → Pwr) : (d.modPwr f).rig = d.rig := rfl
@[simp] theorem Data.modPwr_reload (f : Pwr → Pwr) : (d.modPwr f).reload = d.reload := rfl
@[simp] theorem Data.modPwr_prev (f : Pwr → Pwr) : (d.modPwr f).prev = d.prev := rfl
@[simp] theorem Data.modPwr_rigFallback (f : Pwr → Pwr) : (d.modPwr f).rigFallback = d.rigFallback := rfl
@[simp] theorem Data.modPwr_rigErr (f : Pwr → Pwr) : (d.modPwr f).rigErr = d.rigErr := rfl
@[simp] theorem Data.modPwr_rigErrSec (f : Pwr → Pwr) : (d.modPwr f).rigErrSec = d.rigErrSec := rfl
@[simp] theorem Data.modPwr_rigBusyGo (f : Pwr → Pwr) : (d.modPwr f).rigBusyGo = d.rigBusyGo := rfl
@[simp] theorem Data.modPwr_byp (f : Pwr → Pwr) : (d.modPwr f).byp = d.byp := rfl
@[simp] theorem Data.modPwr_bypAt (f : Pwr → Pwr) : (d.modPwr f).bypAt = d.bypAt := rfl
@[simp] theorem Data.modPwr_bypStale (f : Pwr → Pwr) : (d.modPwr f).bypStale = d.bypStale := rfl
@[simp] theorem Data.modPwr_touchDem (f : Pwr → Pwr) : (d.modPwr f).touchDem = d.touchDem := rfl
@[simp] theorem Data.modPwr_pwr (f : Pwr → Pwr) : (d.modPwr f).pwr = f d.pwr := rfl
@[simp] theorem Data.modPwr_ptp (f : Pwr → Pwr) : (d.modPwr f).ptp = d.ptp := rfl
@[simp] theorem Data.modPwr_pair (f : Pwr → Pwr) : (d.modPwr f).pair = d.pair := rfl
@[simp] theorem Data.modPwr_svc (f : Pwr → Pwr) : (d.modPwr f).svc = d.svc := rfl
@[simp] theorem Data.modPtp_fuses (f : Ptp → Ptp) : (d.modPtp f).fuses = d.fuses := rfl
@[simp] theorem Data.modPtp_now (f : Ptp → Ptp) : (d.modPtp f).now = d.now := rfl
@[simp] theorem Data.modPtp_cyc (f : Ptp → Ptp) : (d.modPtp f).cyc = d.cyc := rfl
@[simp] theorem Data.modPtp_seq (f : Ptp → Ptp) : (d.modPtp f).seq = d.seq := rfl
@[simp] theorem Data.modPtp_free (f : Ptp → Ptp) : (d.modPtp f).free = d.free := rfl
@[simp] theorem Data.modPtp_regs (f : Ptp → Ptp) : (d.modPtp f).regs = d.regs := rfl
@[simp] theorem Data.modPtp_banks (f : Ptp → Ptp) : (d.modPtp f).banks = d.banks := rfl
@[simp] theorem Data.modPtp_mbx (f : Ptp → Ptp) : (d.modPtp f).mbx = d.mbx := rfl
@[simp] theorem Data.modPtp_links (f : Ptp → Ptp) : (d.modPtp f).links = d.links := rfl
@[simp] theorem Data.modPtp_ports (f : Ptp → Ptp) : (d.modPtp f).ports = d.ports := rfl
@[simp] theorem Data.modPtp_ilv (f : Ptp → Ptp) : (d.modPtp f).ilv = d.ilv := rfl
@[simp] theorem Data.modPtp_slices (f : Ptp → Ptp) : (d.modPtp f).slices = d.slices := rfl
@[simp] theorem Data.modPtp_store (f : Ptp → Ptp) : (d.modPtp f).store = d.store := rfl
@[simp] theorem Data.modPtp_bkps (f : Ptp → Ptp) : (d.modPtp f).bkps = d.bkps := rfl
@[simp] theorem Data.modPtp_dur (f : Ptp → Ptp) : (d.modPtp f).dur = d.dur := rfl
@[simp] theorem Data.modPtp_hlm (f : Ptp → Ptp) : (d.modPtp f).hlm = d.hlm := rfl
@[simp] theorem Data.modPtp_mnts (f : Ptp → Ptp) : (d.modPtp f).mnts = d.mnts := rfl
@[simp] theorem Data.modPtp_mntTurn (f : Ptp → Ptp) : (d.modPtp f).mntTurn = d.mntTurn := rfl
@[simp] theorem Data.modPtp_que (f : Ptp → Ptp) : (d.modPtp f).que = d.que := rfl
@[simp] theorem Data.modPtp_queOnce (f : Ptp → Ptp) : (d.modPtp f).queOnce = d.queOnce := rfl
@[simp] theorem Data.modPtp_evt (f : Ptp → Ptp) : (d.modPtp f).evt = d.evt := rfl
@[simp] theorem Data.modPtp_pmc (f : Ptp → Ptp) : (d.modPtp f).pmc = d.pmc := rfl
@[simp] theorem Data.modPtp_rig (f : Ptp → Ptp) : (d.modPtp f).rig = d.rig := rfl
@[simp] theorem Data.modPtp_reload (f : Ptp → Ptp) : (d.modPtp f).reload = d.reload := rfl
@[simp] theorem Data.modPtp_prev (f : Ptp → Ptp) : (d.modPtp f).prev = d.prev := rfl
@[simp] theorem Data.modPtp_rigFallback (f : Ptp → Ptp) : (d.modPtp f).rigFallback = d.rigFallback := rfl
@[simp] theorem Data.modPtp_rigErr (f : Ptp → Ptp) : (d.modPtp f).rigErr = d.rigErr := rfl
@[simp] theorem Data.modPtp_rigErrSec (f : Ptp → Ptp) : (d.modPtp f).rigErrSec = d.rigErrSec := rfl
@[simp] theorem Data.modPtp_rigBusyGo (f : Ptp → Ptp) : (d.modPtp f).rigBusyGo = d.rigBusyGo := rfl
@[simp] theorem Data.modPtp_byp (f : Ptp → Ptp) : (d.modPtp f).byp = d.byp := rfl
@[simp] theorem Data.modPtp_bypAt (f : Ptp → Ptp) : (d.modPtp f).bypAt = d.bypAt := rfl
@[simp] theorem Data.modPtp_bypStale (f : Ptp → Ptp) : (d.modPtp f).bypStale = d.bypStale := rfl
@[simp] theorem Data.modPtp_touchDem (f : Ptp → Ptp) : (d.modPtp f).touchDem = d.touchDem := rfl
@[simp] theorem Data.modPtp_pwr (f : Ptp → Ptp) : (d.modPtp f).pwr = d.pwr := rfl
@[simp] theorem Data.modPtp_ptp (f : Ptp → Ptp) : (d.modPtp f).ptp = f d.ptp := rfl
@[simp] theorem Data.modPtp_pair (f : Ptp → Ptp) : (d.modPtp f).pair = d.pair := rfl
@[simp] theorem Data.modPtp_svc (f : Ptp → Ptp) : (d.modPtp f).svc = d.svc := rfl
@[simp] theorem Data.modPair_fuses (f : Pair → Pair) : (d.modPair f).fuses = d.fuses := rfl
@[simp] theorem Data.modPair_now (f : Pair → Pair) : (d.modPair f).now = d.now := rfl
@[simp] theorem Data.modPair_cyc (f : Pair → Pair) : (d.modPair f).cyc = d.cyc := rfl
@[simp] theorem Data.modPair_seq (f : Pair → Pair) : (d.modPair f).seq = d.seq := rfl
@[simp] theorem Data.modPair_free (f : Pair → Pair) : (d.modPair f).free = d.free := rfl
@[simp] theorem Data.modPair_regs (f : Pair → Pair) : (d.modPair f).regs = d.regs := rfl
@[simp] theorem Data.modPair_banks (f : Pair → Pair) : (d.modPair f).banks = d.banks := rfl
@[simp] theorem Data.modPair_mbx (f : Pair → Pair) : (d.modPair f).mbx = d.mbx := rfl
@[simp] theorem Data.modPair_links (f : Pair → Pair) : (d.modPair f).links = d.links := rfl
@[simp] theorem Data.modPair_ports (f : Pair → Pair) : (d.modPair f).ports = d.ports := rfl
@[simp] theorem Data.modPair_ilv (f : Pair → Pair) : (d.modPair f).ilv = d.ilv := rfl
@[simp] theorem Data.modPair_slices (f : Pair → Pair) : (d.modPair f).slices = d.slices := rfl
@[simp] theorem Data.modPair_store (f : Pair → Pair) : (d.modPair f).store = d.store := rfl
@[simp] theorem Data.modPair_bkps (f : Pair → Pair) : (d.modPair f).bkps = d.bkps := rfl
@[simp] theorem Data.modPair_dur (f : Pair → Pair) : (d.modPair f).dur = d.dur := rfl
@[simp] theorem Data.modPair_hlm (f : Pair → Pair) : (d.modPair f).hlm = d.hlm := rfl
@[simp] theorem Data.modPair_mnts (f : Pair → Pair) : (d.modPair f).mnts = d.mnts := rfl
@[simp] theorem Data.modPair_mntTurn (f : Pair → Pair) : (d.modPair f).mntTurn = d.mntTurn := rfl
@[simp] theorem Data.modPair_que (f : Pair → Pair) : (d.modPair f).que = d.que := rfl
@[simp] theorem Data.modPair_queOnce (f : Pair → Pair) : (d.modPair f).queOnce = d.queOnce := rfl
@[simp] theorem Data.modPair_evt (f : Pair → Pair) : (d.modPair f).evt = d.evt := rfl
@[simp] theorem Data.modPair_pmc (f : Pair → Pair) : (d.modPair f).pmc = d.pmc := rfl
@[simp] theorem Data.modPair_rig (f : Pair → Pair) : (d.modPair f).rig = d.rig := rfl
@[simp] theorem Data.modPair_reload (f : Pair → Pair) : (d.modPair f).reload = d.reload := rfl
@[simp] theorem Data.modPair_prev (f : Pair → Pair) : (d.modPair f).prev = d.prev := rfl
@[simp] theorem Data.modPair_rigFallback (f : Pair → Pair) : (d.modPair f).rigFallback = d.rigFallback := rfl
@[simp] theorem Data.modPair_rigErr (f : Pair → Pair) : (d.modPair f).rigErr = d.rigErr := rfl
@[simp] theorem Data.modPair_rigErrSec (f : Pair → Pair) : (d.modPair f).rigErrSec = d.rigErrSec := rfl
@[simp] theorem Data.modPair_rigBusyGo (f : Pair → Pair) : (d.modPair f).rigBusyGo = d.rigBusyGo := rfl
@[simp] theorem Data.modPair_byp (f : Pair → Pair) : (d.modPair f).byp = d.byp := rfl
@[simp] theorem Data.modPair_bypAt (f : Pair → Pair) : (d.modPair f).bypAt = d.bypAt := rfl
@[simp] theorem Data.modPair_bypStale (f : Pair → Pair) : (d.modPair f).bypStale = d.bypStale := rfl
@[simp] theorem Data.modPair_touchDem (f : Pair → Pair) : (d.modPair f).touchDem = d.touchDem := rfl
@[simp] theorem Data.modPair_pwr (f : Pair → Pair) : (d.modPair f).pwr = d.pwr := rfl
@[simp] theorem Data.modPair_ptp (f : Pair → Pair) : (d.modPair f).ptp = d.ptp := rfl
@[simp] theorem Data.modPair_pair (f : Pair → Pair) : (d.modPair f).pair = f d.pair := rfl
@[simp] theorem Data.modPair_svc (f : Pair → Pair) : (d.modPair f).svc = d.svc := rfl
@[simp] theorem Data.modSvc_fuses (f : Service → Service) : (d.modSvc f).fuses = d.fuses := rfl
@[simp] theorem Data.modSvc_now (f : Service → Service) : (d.modSvc f).now = d.now := rfl
@[simp] theorem Data.modSvc_cyc (f : Service → Service) : (d.modSvc f).cyc = d.cyc := rfl
@[simp] theorem Data.modSvc_seq (f : Service → Service) : (d.modSvc f).seq = d.seq := rfl
@[simp] theorem Data.modSvc_free (f : Service → Service) : (d.modSvc f).free = d.free := rfl
@[simp] theorem Data.modSvc_regs (f : Service → Service) : (d.modSvc f).regs = d.regs := rfl
@[simp] theorem Data.modSvc_banks (f : Service → Service) : (d.modSvc f).banks = d.banks := rfl
@[simp] theorem Data.modSvc_mbx (f : Service → Service) : (d.modSvc f).mbx = d.mbx := rfl
@[simp] theorem Data.modSvc_links (f : Service → Service) : (d.modSvc f).links = d.links := rfl
@[simp] theorem Data.modSvc_ports (f : Service → Service) : (d.modSvc f).ports = d.ports := rfl
@[simp] theorem Data.modSvc_ilv (f : Service → Service) : (d.modSvc f).ilv = d.ilv := rfl
@[simp] theorem Data.modSvc_slices (f : Service → Service) : (d.modSvc f).slices = d.slices := rfl
@[simp] theorem Data.modSvc_store (f : Service → Service) : (d.modSvc f).store = d.store := rfl
@[simp] theorem Data.modSvc_bkps (f : Service → Service) : (d.modSvc f).bkps = d.bkps := rfl
@[simp] theorem Data.modSvc_dur (f : Service → Service) : (d.modSvc f).dur = d.dur := rfl
@[simp] theorem Data.modSvc_hlm (f : Service → Service) : (d.modSvc f).hlm = d.hlm := rfl
@[simp] theorem Data.modSvc_mnts (f : Service → Service) : (d.modSvc f).mnts = d.mnts := rfl
@[simp] theorem Data.modSvc_mntTurn (f : Service → Service) : (d.modSvc f).mntTurn = d.mntTurn := rfl
@[simp] theorem Data.modSvc_que (f : Service → Service) : (d.modSvc f).que = d.que := rfl
@[simp] theorem Data.modSvc_queOnce (f : Service → Service) : (d.modSvc f).queOnce = d.queOnce := rfl
@[simp] theorem Data.modSvc_evt (f : Service → Service) : (d.modSvc f).evt = d.evt := rfl
@[simp] theorem Data.modSvc_pmc (f : Service → Service) : (d.modSvc f).pmc = d.pmc := rfl
@[simp] theorem Data.modSvc_rig (f : Service → Service) : (d.modSvc f).rig = d.rig := rfl
@[simp] theorem Data.modSvc_reload (f : Service → Service) : (d.modSvc f).reload = d.reload := rfl
@[simp] theorem Data.modSvc_prev (f : Service → Service) : (d.modSvc f).prev = d.prev := rfl
@[simp] theorem Data.modSvc_rigFallback (f : Service → Service) : (d.modSvc f).rigFallback = d.rigFallback := rfl
@[simp] theorem Data.modSvc_rigErr (f : Service → Service) : (d.modSvc f).rigErr = d.rigErr := rfl
@[simp] theorem Data.modSvc_rigErrSec (f : Service → Service) : (d.modSvc f).rigErrSec = d.rigErrSec := rfl
@[simp] theorem Data.modSvc_rigBusyGo (f : Service → Service) : (d.modSvc f).rigBusyGo = d.rigBusyGo := rfl
@[simp] theorem Data.modSvc_byp (f : Service → Service) : (d.modSvc f).byp = d.byp := rfl
@[simp] theorem Data.modSvc_bypAt (f : Service → Service) : (d.modSvc f).bypAt = d.bypAt := rfl
@[simp] theorem Data.modSvc_bypStale (f : Service → Service) : (d.modSvc f).bypStale = d.bypStale := rfl
@[simp] theorem Data.modSvc_touchDem (f : Service → Service) : (d.modSvc f).touchDem = d.touchDem := rfl
@[simp] theorem Data.modSvc_pwr (f : Service → Service) : (d.modSvc f).pwr = d.pwr := rfl
@[simp] theorem Data.modSvc_ptp (f : Service → Service) : (d.modSvc f).ptp = d.ptp := rfl
@[simp] theorem Data.modSvc_pair (f : Service → Service) : (d.modSvc f).pair = d.pair := rfl
@[simp] theorem Data.modSvc_svc (f : Service → Service) : (d.modSvc f).svc = f d.svc := rfl
@[simp] theorem Data.modStore_fuses (f : Store → Store) : (d.modStore f).fuses = d.fuses := rfl
@[simp] theorem Data.modStore_now (f : Store → Store) : (d.modStore f).now = d.now := rfl
@[simp] theorem Data.modStore_cyc (f : Store → Store) : (d.modStore f).cyc = d.cyc := rfl
@[simp] theorem Data.modStore_seq (f : Store → Store) : (d.modStore f).seq = d.seq := rfl
@[simp] theorem Data.modStore_free (f : Store → Store) : (d.modStore f).free = d.free := rfl
@[simp] theorem Data.modStore_regs (f : Store → Store) : (d.modStore f).regs = d.regs := rfl
@[simp] theorem Data.modStore_banks (f : Store → Store) : (d.modStore f).banks = d.banks := rfl
@[simp] theorem Data.modStore_mbx (f : Store → Store) : (d.modStore f).mbx = d.mbx := rfl
@[simp] theorem Data.modStore_links (f : Store → Store) : (d.modStore f).links = d.links := rfl
@[simp] theorem Data.modStore_ports (f : Store → Store) : (d.modStore f).ports = d.ports := rfl
@[simp] theorem Data.modStore_ilv (f : Store → Store) : (d.modStore f).ilv = d.ilv := rfl
@[simp] theorem Data.modStore_slices (f : Store → Store) : (d.modStore f).slices = d.slices := rfl
@[simp] theorem Data.modStore_store (f : Store → Store) : (d.modStore f).store = f d.store := rfl
@[simp] theorem Data.modStore_bkps (f : Store → Store) : (d.modStore f).bkps = d.bkps := rfl
@[simp] theorem Data.modStore_dur (f : Store → Store) : (d.modStore f).dur = d.dur := rfl
@[simp] theorem Data.modStore_hlm (f : Store → Store) : (d.modStore f).hlm = d.hlm := rfl
@[simp] theorem Data.modStore_mnts (f : Store → Store) : (d.modStore f).mnts = d.mnts := rfl
@[simp] theorem Data.modStore_mntTurn (f : Store → Store) : (d.modStore f).mntTurn = d.mntTurn := rfl
@[simp] theorem Data.modStore_que (f : Store → Store) : (d.modStore f).que = d.que := rfl
@[simp] theorem Data.modStore_queOnce (f : Store → Store) : (d.modStore f).queOnce = d.queOnce := rfl
@[simp] theorem Data.modStore_evt (f : Store → Store) : (d.modStore f).evt = d.evt := rfl
@[simp] theorem Data.modStore_pmc (f : Store → Store) : (d.modStore f).pmc = d.pmc := rfl
@[simp] theorem Data.modStore_rig (f : Store → Store) : (d.modStore f).rig = d.rig := rfl
@[simp] theorem Data.modStore_reload (f : Store → Store) : (d.modStore f).reload = d.reload := rfl
@[simp] theorem Data.modStore_prev (f : Store → Store) : (d.modStore f).prev = d.prev := rfl
@[simp] theorem Data.modStore_rigFallback (f : Store → Store) : (d.modStore f).rigFallback = d.rigFallback := rfl
@[simp] theorem Data.modStore_rigErr (f : Store → Store) : (d.modStore f).rigErr = d.rigErr := rfl
@[simp] theorem Data.modStore_rigErrSec (f : Store → Store) : (d.modStore f).rigErrSec = d.rigErrSec := rfl
@[simp] theorem Data.modStore_rigBusyGo (f : Store → Store) : (d.modStore f).rigBusyGo = d.rigBusyGo := rfl
@[simp] theorem Data.modStore_byp (f : Store → Store) : (d.modStore f).byp = d.byp := rfl
@[simp] theorem Data.modStore_bypAt (f : Store → Store) : (d.modStore f).bypAt = d.bypAt := rfl
@[simp] theorem Data.modStore_bypStale (f : Store → Store) : (d.modStore f).bypStale = d.bypStale := rfl
@[simp] theorem Data.modStore_touchDem (f : Store → Store) : (d.modStore f).touchDem = d.touchDem := rfl
@[simp] theorem Data.modStore_pwr (f : Store → Store) : (d.modStore f).pwr = d.pwr := rfl
@[simp] theorem Data.modStore_ptp (f : Store → Store) : (d.modStore f).ptp = d.ptp := rfl
@[simp] theorem Data.modStore_pair (f : Store → Store) : (d.modStore f).pair = d.pair := rfl
@[simp] theorem Data.modStore_svc (f : Store → Store) : (d.modStore f).svc = d.svc := rfl
@[simp] theorem Data.modSlice_fuses (i : SliceId) (f : Slice → Slice) : (d.modSlice i f).fuses = d.fuses := rfl
@[simp] theorem Data.modSlice_now (i : SliceId) (f : Slice → Slice) : (d.modSlice i f).now = d.now := rfl
@[simp] theorem Data.modSlice_cyc (i : SliceId) (f : Slice → Slice) : (d.modSlice i f).cyc = d.cyc := rfl
@[simp] theorem Data.modSlice_seq (i : SliceId) (f : Slice → Slice) : (d.modSlice i f).seq = d.seq := rfl
@[simp] theorem Data.modSlice_free (i : SliceId) (f : Slice → Slice) : (d.modSlice i f).free = d.free := rfl
@[simp] theorem Data.modSlice_regs (i : SliceId) (f : Slice → Slice) : (d.modSlice i f).regs = d.regs := rfl
@[simp] theorem Data.modSlice_banks (i : SliceId) (f : Slice → Slice) : (d.modSlice i f).banks = d.banks := rfl
@[simp] theorem Data.modSlice_mbx (i : SliceId) (f : Slice → Slice) : (d.modSlice i f).mbx = d.mbx := rfl
@[simp] theorem Data.modSlice_links (i : SliceId) (f : Slice → Slice) : (d.modSlice i f).links = d.links := rfl
@[simp] theorem Data.modSlice_ports (i : SliceId) (f : Slice → Slice) : (d.modSlice i f).ports = d.ports := rfl
@[simp] theorem Data.modSlice_ilv (i : SliceId) (f : Slice → Slice) : (d.modSlice i f).ilv = d.ilv := rfl
@[simp] theorem Data.modSlice_slices (i : SliceId) (f : Slice → Slice) : (d.modSlice i f).slices = vmod d.slices i f := rfl
@[simp] theorem Data.modSlice_store (i : SliceId) (f : Slice → Slice) : (d.modSlice i f).store = d.store := rfl
@[simp] theorem Data.modSlice_bkps (i : SliceId) (f : Slice → Slice) : (d.modSlice i f).bkps = d.bkps := rfl
@[simp] theorem Data.modSlice_dur (i : SliceId) (f : Slice → Slice) : (d.modSlice i f).dur = d.dur := rfl
@[simp] theorem Data.modSlice_hlm (i : SliceId) (f : Slice → Slice) : (d.modSlice i f).hlm = d.hlm := rfl
@[simp] theorem Data.modSlice_mnts (i : SliceId) (f : Slice → Slice) : (d.modSlice i f).mnts = d.mnts := rfl
@[simp] theorem Data.modSlice_mntTurn (i : SliceId) (f : Slice → Slice) : (d.modSlice i f).mntTurn = d.mntTurn := rfl
@[simp] theorem Data.modSlice_que (i : SliceId) (f : Slice → Slice) : (d.modSlice i f).que = d.que := rfl
@[simp] theorem Data.modSlice_queOnce (i : SliceId) (f : Slice → Slice) : (d.modSlice i f).queOnce = d.queOnce := rfl
@[simp] theorem Data.modSlice_evt (i : SliceId) (f : Slice → Slice) : (d.modSlice i f).evt = d.evt := rfl
@[simp] theorem Data.modSlice_pmc (i : SliceId) (f : Slice → Slice) : (d.modSlice i f).pmc = d.pmc := rfl
@[simp] theorem Data.modSlice_rig (i : SliceId) (f : Slice → Slice) : (d.modSlice i f).rig = d.rig := rfl
@[simp] theorem Data.modSlice_reload (i : SliceId) (f : Slice → Slice) : (d.modSlice i f).reload = d.reload := rfl
@[simp] theorem Data.modSlice_prev (i : SliceId) (f : Slice → Slice) : (d.modSlice i f).prev = d.prev := rfl
@[simp] theorem Data.modSlice_rigFallback (i : SliceId) (f : Slice → Slice) : (d.modSlice i f).rigFallback = d.rigFallback := rfl
@[simp] theorem Data.modSlice_rigErr (i : SliceId) (f : Slice → Slice) : (d.modSlice i f).rigErr = d.rigErr := rfl
@[simp] theorem Data.modSlice_rigErrSec (i : SliceId) (f : Slice → Slice) : (d.modSlice i f).rigErrSec = d.rigErrSec := rfl
@[simp] theorem Data.modSlice_rigBusyGo (i : SliceId) (f : Slice → Slice) : (d.modSlice i f).rigBusyGo = d.rigBusyGo := rfl
@[simp] theorem Data.modSlice_byp (i : SliceId) (f : Slice → Slice) : (d.modSlice i f).byp = d.byp := rfl
@[simp] theorem Data.modSlice_bypAt (i : SliceId) (f : Slice → Slice) : (d.modSlice i f).bypAt = d.bypAt := rfl
@[simp] theorem Data.modSlice_bypStale (i : SliceId) (f : Slice → Slice) : (d.modSlice i f).bypStale = d.bypStale := rfl
@[simp] theorem Data.modSlice_touchDem (i : SliceId) (f : Slice → Slice) : (d.modSlice i f).touchDem = d.touchDem := rfl
@[simp] theorem Data.modSlice_pwr (i : SliceId) (f : Slice → Slice) : (d.modSlice i f).pwr = d.pwr := rfl
@[simp] theorem Data.modSlice_ptp (i : SliceId) (f : Slice → Slice) : (d.modSlice i f).ptp = d.ptp := rfl
@[simp] theorem Data.modSlice_pair (i : SliceId) (f : Slice → Slice) : (d.modSlice i f).pair = d.pair := rfl
@[simp] theorem Data.modSlice_svc (i : SliceId) (f : Slice → Slice) : (d.modSlice i f).svc = d.svc := rfl
@[simp] theorem Data.modPort_fuses (i : Agent) (f : Port → Port) : (d.modPort i f).fuses = d.fuses := rfl
@[simp] theorem Data.modPort_now (i : Agent) (f : Port → Port) : (d.modPort i f).now = d.now := rfl
@[simp] theorem Data.modPort_cyc (i : Agent) (f : Port → Port) : (d.modPort i f).cyc = d.cyc := rfl
@[simp] theorem Data.modPort_seq (i : Agent) (f : Port → Port) : (d.modPort i f).seq = d.seq := rfl
@[simp] theorem Data.modPort_free (i : Agent) (f : Port → Port) : (d.modPort i f).free = d.free := rfl
@[simp] theorem Data.modPort_regs (i : Agent) (f : Port → Port) : (d.modPort i f).regs = d.regs := rfl
@[simp] theorem Data.modPort_banks (i : Agent) (f : Port → Port) : (d.modPort i f).banks = d.banks := rfl
@[simp] theorem Data.modPort_mbx (i : Agent) (f : Port → Port) : (d.modPort i f).mbx = d.mbx := rfl
@[simp] theorem Data.modPort_links (i : Agent) (f : Port → Port) : (d.modPort i f).links = d.links := rfl
@[simp] theorem Data.modPort_ports (i : Agent) (f : Port → Port) : (d.modPort i f).ports = vmod d.ports i f := rfl
@[simp] theorem Data.modPort_ilv (i : Agent) (f : Port → Port) : (d.modPort i f).ilv = d.ilv := rfl
@[simp] theorem Data.modPort_slices (i : Agent) (f : Port → Port) : (d.modPort i f).slices = d.slices := rfl
@[simp] theorem Data.modPort_store (i : Agent) (f : Port → Port) : (d.modPort i f).store = d.store := rfl
@[simp] theorem Data.modPort_bkps (i : Agent) (f : Port → Port) : (d.modPort i f).bkps = d.bkps := rfl
@[simp] theorem Data.modPort_dur (i : Agent) (f : Port → Port) : (d.modPort i f).dur = d.dur := rfl
@[simp] theorem Data.modPort_hlm (i : Agent) (f : Port → Port) : (d.modPort i f).hlm = d.hlm := rfl
@[simp] theorem Data.modPort_mnts (i : Agent) (f : Port → Port) : (d.modPort i f).mnts = d.mnts := rfl
@[simp] theorem Data.modPort_mntTurn (i : Agent) (f : Port → Port) : (d.modPort i f).mntTurn = d.mntTurn := rfl
@[simp] theorem Data.modPort_que (i : Agent) (f : Port → Port) : (d.modPort i f).que = d.que := rfl
@[simp] theorem Data.modPort_queOnce (i : Agent) (f : Port → Port) : (d.modPort i f).queOnce = d.queOnce := rfl
@[simp] theorem Data.modPort_evt (i : Agent) (f : Port → Port) : (d.modPort i f).evt = d.evt := rfl
@[simp] theorem Data.modPort_pmc (i : Agent) (f : Port → Port) : (d.modPort i f).pmc = d.pmc := rfl
@[simp] theorem Data.modPort_rig (i : Agent) (f : Port → Port) : (d.modPort i f).rig = d.rig := rfl
@[simp] theorem Data.modPort_reload (i : Agent) (f : Port → Port) : (d.modPort i f).reload = d.reload := rfl
@[simp] theorem Data.modPort_prev (i : Agent) (f : Port → Port) : (d.modPort i f).prev = d.prev := rfl
@[simp] theorem Data.modPort_rigFallback (i : Agent) (f : Port → Port) : (d.modPort i f).rigFallback = d.rigFallback := rfl
@[simp] theorem Data.modPort_rigErr (i : Agent) (f : Port → Port) : (d.modPort i f).rigErr = d.rigErr := rfl
@[simp] theorem Data.modPort_rigErrSec (i : Agent) (f : Port → Port) : (d.modPort i f).rigErrSec = d.rigErrSec := rfl
@[simp] theorem Data.modPort_rigBusyGo (i : Agent) (f : Port → Port) : (d.modPort i f).rigBusyGo = d.rigBusyGo := rfl
@[simp] theorem Data.modPort_byp (i : Agent) (f : Port → Port) : (d.modPort i f).byp = d.byp := rfl
@[simp] theorem Data.modPort_bypAt (i : Agent) (f : Port → Port) : (d.modPort i f).bypAt = d.bypAt := rfl
@[simp] theorem Data.modPort_bypStale (i : Agent) (f : Port → Port) : (d.modPort i f).bypStale = d.bypStale := rfl
@[simp] theorem Data.modPort_touchDem (i : Agent) (f : Port → Port) : (d.modPort i f).touchDem = d.touchDem := rfl
@[simp] theorem Data.modPort_pwr (i : Agent) (f : Port → Port) : (d.modPort i f).pwr = d.pwr := rfl
@[simp] theorem Data.modPort_ptp (i : Agent) (f : Port → Port) : (d.modPort i f).ptp = d.ptp := rfl
@[simp] theorem Data.modPort_pair (i : Agent) (f : Port → Port) : (d.modPort i f).pair = d.pair := rfl
@[simp] theorem Data.modPort_svc (i : Agent) (f : Port → Port) : (d.modPort i f).svc = d.svc := rfl
@[simp] theorem Data.modLink_fuses (i : LinkId) (f : Link → Link) : (d.modLink i f).fuses = d.fuses := rfl
@[simp] theorem Data.modLink_now (i : LinkId) (f : Link → Link) : (d.modLink i f).now = d.now := rfl
@[simp] theorem Data.modLink_cyc (i : LinkId) (f : Link → Link) : (d.modLink i f).cyc = d.cyc := rfl
@[simp] theorem Data.modLink_seq (i : LinkId) (f : Link → Link) : (d.modLink i f).seq = d.seq := rfl
@[simp] theorem Data.modLink_free (i : LinkId) (f : Link → Link) : (d.modLink i f).free = d.free := rfl
@[simp] theorem Data.modLink_regs (i : LinkId) (f : Link → Link) : (d.modLink i f).regs = d.regs := rfl
@[simp] theorem Data.modLink_banks (i : LinkId) (f : Link → Link) : (d.modLink i f).banks = d.banks := rfl
@[simp] theorem Data.modLink_mbx (i : LinkId) (f : Link → Link) : (d.modLink i f).mbx = d.mbx := rfl
@[simp] theorem Data.modLink_links (i : LinkId) (f : Link → Link) : (d.modLink i f).links = vmod d.links i f := rfl
@[simp] theorem Data.modLink_ports (i : LinkId) (f : Link → Link) : (d.modLink i f).ports = d.ports := rfl
@[simp] theorem Data.modLink_ilv (i : LinkId) (f : Link → Link) : (d.modLink i f).ilv = d.ilv := rfl
@[simp] theorem Data.modLink_slices (i : LinkId) (f : Link → Link) : (d.modLink i f).slices = d.slices := rfl
@[simp] theorem Data.modLink_store (i : LinkId) (f : Link → Link) : (d.modLink i f).store = d.store := rfl
@[simp] theorem Data.modLink_bkps (i : LinkId) (f : Link → Link) : (d.modLink i f).bkps = d.bkps := rfl
@[simp] theorem Data.modLink_dur (i : LinkId) (f : Link → Link) : (d.modLink i f).dur = d.dur := rfl
@[simp] theorem Data.modLink_hlm (i : LinkId) (f : Link → Link) : (d.modLink i f).hlm = d.hlm := rfl
@[simp] theorem Data.modLink_mnts (i : LinkId) (f : Link → Link) : (d.modLink i f).mnts = d.mnts := rfl
@[simp] theorem Data.modLink_mntTurn (i : LinkId) (f : Link → Link) : (d.modLink i f).mntTurn = d.mntTurn := rfl
@[simp] theorem Data.modLink_que (i : LinkId) (f : Link → Link) : (d.modLink i f).que = d.que := rfl
@[simp] theorem Data.modLink_queOnce (i : LinkId) (f : Link → Link) : (d.modLink i f).queOnce = d.queOnce := rfl
@[simp] theorem Data.modLink_evt (i : LinkId) (f : Link → Link) : (d.modLink i f).evt = d.evt := rfl
@[simp] theorem Data.modLink_pmc (i : LinkId) (f : Link → Link) : (d.modLink i f).pmc = d.pmc := rfl
@[simp] theorem Data.modLink_rig (i : LinkId) (f : Link → Link) : (d.modLink i f).rig = d.rig := rfl
@[simp] theorem Data.modLink_reload (i : LinkId) (f : Link → Link) : (d.modLink i f).reload = d.reload := rfl
@[simp] theorem Data.modLink_prev (i : LinkId) (f : Link → Link) : (d.modLink i f).prev = d.prev := rfl
@[simp] theorem Data.modLink_rigFallback (i : LinkId) (f : Link → Link) : (d.modLink i f).rigFallback = d.rigFallback := rfl
@[simp] theorem Data.modLink_rigErr (i : LinkId) (f : Link → Link) : (d.modLink i f).rigErr = d.rigErr := rfl
@[simp] theorem Data.modLink_rigErrSec (i : LinkId) (f : Link → Link) : (d.modLink i f).rigErrSec = d.rigErrSec := rfl
@[simp] theorem Data.modLink_rigBusyGo (i : LinkId) (f : Link → Link) : (d.modLink i f).rigBusyGo = d.rigBusyGo := rfl
@[simp] theorem Data.modLink_byp (i : LinkId) (f : Link → Link) : (d.modLink i f).byp = d.byp := rfl
@[simp] theorem Data.modLink_bypAt (i : LinkId) (f : Link → Link) : (d.modLink i f).bypAt = d.bypAt := rfl
@[simp] theorem Data.modLink_bypStale (i : LinkId) (f : Link → Link) : (d.modLink i f).bypStale = d.bypStale := rfl
@[simp] theorem Data.modLink_touchDem (i : LinkId) (f : Link → Link) : (d.modLink i f).touchDem = d.touchDem := rfl
@[simp] theorem Data.modLink_pwr (i : LinkId) (f : Link → Link) : (d.modLink i f).pwr = d.pwr := rfl
@[simp] theorem Data.modLink_ptp (i : LinkId) (f : Link → Link) : (d.modLink i f).ptp = d.ptp := rfl
@[simp] theorem Data.modLink_pair (i : LinkId) (f : Link → Link) : (d.modLink i f).pair = d.pair := rfl
@[simp] theorem Data.modLink_svc (i : LinkId) (f : Link → Link) : (d.modLink i f).svc = d.svc := rfl
@[simp] theorem Data.modBkp_fuses (i : BkpId) (f : Bkp → Bkp) : (d.modBkp i f).fuses = d.fuses := rfl
@[simp] theorem Data.modBkp_now (i : BkpId) (f : Bkp → Bkp) : (d.modBkp i f).now = d.now := rfl
@[simp] theorem Data.modBkp_cyc (i : BkpId) (f : Bkp → Bkp) : (d.modBkp i f).cyc = d.cyc := rfl
@[simp] theorem Data.modBkp_seq (i : BkpId) (f : Bkp → Bkp) : (d.modBkp i f).seq = d.seq := rfl
@[simp] theorem Data.modBkp_free (i : BkpId) (f : Bkp → Bkp) : (d.modBkp i f).free = d.free := rfl
@[simp] theorem Data.modBkp_regs (i : BkpId) (f : Bkp → Bkp) : (d.modBkp i f).regs = d.regs := rfl
@[simp] theorem Data.modBkp_banks (i : BkpId) (f : Bkp → Bkp) : (d.modBkp i f).banks = d.banks := rfl
@[simp] theorem Data.modBkp_mbx (i : BkpId) (f : Bkp → Bkp) : (d.modBkp i f).mbx = d.mbx := rfl
@[simp] theorem Data.modBkp_links (i : BkpId) (f : Bkp → Bkp) : (d.modBkp i f).links = d.links := rfl
@[simp] theorem Data.modBkp_ports (i : BkpId) (f : Bkp → Bkp) : (d.modBkp i f).ports = d.ports := rfl
@[simp] theorem Data.modBkp_ilv (i : BkpId) (f : Bkp → Bkp) : (d.modBkp i f).ilv = d.ilv := rfl
@[simp] theorem Data.modBkp_slices (i : BkpId) (f : Bkp → Bkp) : (d.modBkp i f).slices = d.slices := rfl
@[simp] theorem Data.modBkp_store (i : BkpId) (f : Bkp → Bkp) : (d.modBkp i f).store = d.store := rfl
@[simp] theorem Data.modBkp_bkps (i : BkpId) (f : Bkp → Bkp) : (d.modBkp i f).bkps = vmod d.bkps i f := rfl
@[simp] theorem Data.modBkp_dur (i : BkpId) (f : Bkp → Bkp) : (d.modBkp i f).dur = d.dur := rfl
@[simp] theorem Data.modBkp_hlm (i : BkpId) (f : Bkp → Bkp) : (d.modBkp i f).hlm = d.hlm := rfl
@[simp] theorem Data.modBkp_mnts (i : BkpId) (f : Bkp → Bkp) : (d.modBkp i f).mnts = d.mnts := rfl
@[simp] theorem Data.modBkp_mntTurn (i : BkpId) (f : Bkp → Bkp) : (d.modBkp i f).mntTurn = d.mntTurn := rfl
@[simp] theorem Data.modBkp_que (i : BkpId) (f : Bkp → Bkp) : (d.modBkp i f).que = d.que := rfl
@[simp] theorem Data.modBkp_queOnce (i : BkpId) (f : Bkp → Bkp) : (d.modBkp i f).queOnce = d.queOnce := rfl
@[simp] theorem Data.modBkp_evt (i : BkpId) (f : Bkp → Bkp) : (d.modBkp i f).evt = d.evt := rfl
@[simp] theorem Data.modBkp_pmc (i : BkpId) (f : Bkp → Bkp) : (d.modBkp i f).pmc = d.pmc := rfl
@[simp] theorem Data.modBkp_rig (i : BkpId) (f : Bkp → Bkp) : (d.modBkp i f).rig = d.rig := rfl
@[simp] theorem Data.modBkp_reload (i : BkpId) (f : Bkp → Bkp) : (d.modBkp i f).reload = d.reload := rfl
@[simp] theorem Data.modBkp_prev (i : BkpId) (f : Bkp → Bkp) : (d.modBkp i f).prev = d.prev := rfl
@[simp] theorem Data.modBkp_rigFallback (i : BkpId) (f : Bkp → Bkp) : (d.modBkp i f).rigFallback = d.rigFallback := rfl
@[simp] theorem Data.modBkp_rigErr (i : BkpId) (f : Bkp → Bkp) : (d.modBkp i f).rigErr = d.rigErr := rfl
@[simp] theorem Data.modBkp_rigErrSec (i : BkpId) (f : Bkp → Bkp) : (d.modBkp i f).rigErrSec = d.rigErrSec := rfl
@[simp] theorem Data.modBkp_rigBusyGo (i : BkpId) (f : Bkp → Bkp) : (d.modBkp i f).rigBusyGo = d.rigBusyGo := rfl
@[simp] theorem Data.modBkp_byp (i : BkpId) (f : Bkp → Bkp) : (d.modBkp i f).byp = d.byp := rfl
@[simp] theorem Data.modBkp_bypAt (i : BkpId) (f : Bkp → Bkp) : (d.modBkp i f).bypAt = d.bypAt := rfl
@[simp] theorem Data.modBkp_bypStale (i : BkpId) (f : Bkp → Bkp) : (d.modBkp i f).bypStale = d.bypStale := rfl
@[simp] theorem Data.modBkp_touchDem (i : BkpId) (f : Bkp → Bkp) : (d.modBkp i f).touchDem = d.touchDem := rfl
@[simp] theorem Data.modBkp_pwr (i : BkpId) (f : Bkp → Bkp) : (d.modBkp i f).pwr = d.pwr := rfl
@[simp] theorem Data.modBkp_ptp (i : BkpId) (f : Bkp → Bkp) : (d.modBkp i f).ptp = d.ptp := rfl
@[simp] theorem Data.modBkp_pair (i : BkpId) (f : Bkp → Bkp) : (d.modBkp i f).pair = d.pair := rfl
@[simp] theorem Data.modBkp_svc (i : BkpId) (f : Bkp → Bkp) : (d.modBkp i f).svc = d.svc := rfl
@[simp] theorem Data.modBank_fuses (i : Requester) (f : Bank → Bank) : (d.modBank i f).fuses = d.fuses := rfl
@[simp] theorem Data.modBank_now (i : Requester) (f : Bank → Bank) : (d.modBank i f).now = d.now := rfl
@[simp] theorem Data.modBank_cyc (i : Requester) (f : Bank → Bank) : (d.modBank i f).cyc = d.cyc := rfl
@[simp] theorem Data.modBank_seq (i : Requester) (f : Bank → Bank) : (d.modBank i f).seq = d.seq := rfl
@[simp] theorem Data.modBank_free (i : Requester) (f : Bank → Bank) : (d.modBank i f).free = d.free := rfl
@[simp] theorem Data.modBank_regs (i : Requester) (f : Bank → Bank) : (d.modBank i f).regs = d.regs := rfl
@[simp] theorem Data.modBank_banks (i : Requester) (f : Bank → Bank) : (d.modBank i f).banks = vmod d.banks i f := rfl
@[simp] theorem Data.modBank_mbx (i : Requester) (f : Bank → Bank) : (d.modBank i f).mbx = d.mbx := rfl
@[simp] theorem Data.modBank_links (i : Requester) (f : Bank → Bank) : (d.modBank i f).links = d.links := rfl
@[simp] theorem Data.modBank_ports (i : Requester) (f : Bank → Bank) : (d.modBank i f).ports = d.ports := rfl
@[simp] theorem Data.modBank_ilv (i : Requester) (f : Bank → Bank) : (d.modBank i f).ilv = d.ilv := rfl
@[simp] theorem Data.modBank_slices (i : Requester) (f : Bank → Bank) : (d.modBank i f).slices = d.slices := rfl
@[simp] theorem Data.modBank_store (i : Requester) (f : Bank → Bank) : (d.modBank i f).store = d.store := rfl
@[simp] theorem Data.modBank_bkps (i : Requester) (f : Bank → Bank) : (d.modBank i f).bkps = d.bkps := rfl
@[simp] theorem Data.modBank_dur (i : Requester) (f : Bank → Bank) : (d.modBank i f).dur = d.dur := rfl
@[simp] theorem Data.modBank_hlm (i : Requester) (f : Bank → Bank) : (d.modBank i f).hlm = d.hlm := rfl
@[simp] theorem Data.modBank_mnts (i : Requester) (f : Bank → Bank) : (d.modBank i f).mnts = d.mnts := rfl
@[simp] theorem Data.modBank_mntTurn (i : Requester) (f : Bank → Bank) : (d.modBank i f).mntTurn = d.mntTurn := rfl
@[simp] theorem Data.modBank_que (i : Requester) (f : Bank → Bank) : (d.modBank i f).que = d.que := rfl
@[simp] theorem Data.modBank_queOnce (i : Requester) (f : Bank → Bank) : (d.modBank i f).queOnce = d.queOnce := rfl
@[simp] theorem Data.modBank_evt (i : Requester) (f : Bank → Bank) : (d.modBank i f).evt = d.evt := rfl
@[simp] theorem Data.modBank_pmc (i : Requester) (f : Bank → Bank) : (d.modBank i f).pmc = d.pmc := rfl
@[simp] theorem Data.modBank_rig (i : Requester) (f : Bank → Bank) : (d.modBank i f).rig = d.rig := rfl
@[simp] theorem Data.modBank_reload (i : Requester) (f : Bank → Bank) : (d.modBank i f).reload = d.reload := rfl
@[simp] theorem Data.modBank_prev (i : Requester) (f : Bank → Bank) : (d.modBank i f).prev = d.prev := rfl
@[simp] theorem Data.modBank_rigFallback (i : Requester) (f : Bank → Bank) : (d.modBank i f).rigFallback = d.rigFallback := rfl
@[simp] theorem Data.modBank_rigErr (i : Requester) (f : Bank → Bank) : (d.modBank i f).rigErr = d.rigErr := rfl
@[simp] theorem Data.modBank_rigErrSec (i : Requester) (f : Bank → Bank) : (d.modBank i f).rigErrSec = d.rigErrSec := rfl
@[simp] theorem Data.modBank_rigBusyGo (i : Requester) (f : Bank → Bank) : (d.modBank i f).rigBusyGo = d.rigBusyGo := rfl
@[simp] theorem Data.modBank_byp (i : Requester) (f : Bank → Bank) : (d.modBank i f).byp = d.byp := rfl
@[simp] theorem Data.modBank_bypAt (i : Requester) (f : Bank → Bank) : (d.modBank i f).bypAt = d.bypAt := rfl
@[simp] theorem Data.modBank_bypStale (i : Requester) (f : Bank → Bank) : (d.modBank i f).bypStale = d.bypStale := rfl
@[simp] theorem Data.modBank_touchDem (i : Requester) (f : Bank → Bank) : (d.modBank i f).touchDem = d.touchDem := rfl
@[simp] theorem Data.modBank_pwr (i : Requester) (f : Bank → Bank) : (d.modBank i f).pwr = d.pwr := rfl
@[simp] theorem Data.modBank_ptp (i : Requester) (f : Bank → Bank) : (d.modBank i f).ptp = d.ptp := rfl
@[simp] theorem Data.modBank_pair (i : Requester) (f : Bank → Bank) : (d.modBank i f).pair = d.pair := rfl
@[simp] theorem Data.modBank_svc (i : Requester) (f : Bank → Bank) : (d.modBank i f).svc = d.svc := rfl
@[simp] theorem Data.modMbx_fuses (i : Fin 8) (f : Mbx → Mbx) : (d.modMbx i f).fuses = d.fuses := rfl
@[simp] theorem Data.modMbx_now (i : Fin 8) (f : Mbx → Mbx) : (d.modMbx i f).now = d.now := rfl
@[simp] theorem Data.modMbx_cyc (i : Fin 8) (f : Mbx → Mbx) : (d.modMbx i f).cyc = d.cyc := rfl
@[simp] theorem Data.modMbx_seq (i : Fin 8) (f : Mbx → Mbx) : (d.modMbx i f).seq = d.seq := rfl
@[simp] theorem Data.modMbx_free (i : Fin 8) (f : Mbx → Mbx) : (d.modMbx i f).free = d.free := rfl
@[simp] theorem Data.modMbx_regs (i : Fin 8) (f : Mbx → Mbx) : (d.modMbx i f).regs = d.regs := rfl
@[simp] theorem Data.modMbx_banks (i : Fin 8) (f : Mbx → Mbx) : (d.modMbx i f).banks = d.banks := rfl
@[simp] theorem Data.modMbx_mbx (i : Fin 8) (f : Mbx → Mbx) : (d.modMbx i f).mbx = vmod d.mbx i f := rfl
@[simp] theorem Data.modMbx_links (i : Fin 8) (f : Mbx → Mbx) : (d.modMbx i f).links = d.links := rfl
@[simp] theorem Data.modMbx_ports (i : Fin 8) (f : Mbx → Mbx) : (d.modMbx i f).ports = d.ports := rfl
@[simp] theorem Data.modMbx_ilv (i : Fin 8) (f : Mbx → Mbx) : (d.modMbx i f).ilv = d.ilv := rfl
@[simp] theorem Data.modMbx_slices (i : Fin 8) (f : Mbx → Mbx) : (d.modMbx i f).slices = d.slices := rfl
@[simp] theorem Data.modMbx_store (i : Fin 8) (f : Mbx → Mbx) : (d.modMbx i f).store = d.store := rfl
@[simp] theorem Data.modMbx_bkps (i : Fin 8) (f : Mbx → Mbx) : (d.modMbx i f).bkps = d.bkps := rfl
@[simp] theorem Data.modMbx_dur (i : Fin 8) (f : Mbx → Mbx) : (d.modMbx i f).dur = d.dur := rfl
@[simp] theorem Data.modMbx_hlm (i : Fin 8) (f : Mbx → Mbx) : (d.modMbx i f).hlm = d.hlm := rfl
@[simp] theorem Data.modMbx_mnts (i : Fin 8) (f : Mbx → Mbx) : (d.modMbx i f).mnts = d.mnts := rfl
@[simp] theorem Data.modMbx_mntTurn (i : Fin 8) (f : Mbx → Mbx) : (d.modMbx i f).mntTurn = d.mntTurn := rfl
@[simp] theorem Data.modMbx_que (i : Fin 8) (f : Mbx → Mbx) : (d.modMbx i f).que = d.que := rfl
@[simp] theorem Data.modMbx_queOnce (i : Fin 8) (f : Mbx → Mbx) : (d.modMbx i f).queOnce = d.queOnce := rfl
@[simp] theorem Data.modMbx_evt (i : Fin 8) (f : Mbx → Mbx) : (d.modMbx i f).evt = d.evt := rfl
@[simp] theorem Data.modMbx_pmc (i : Fin 8) (f : Mbx → Mbx) : (d.modMbx i f).pmc = d.pmc := rfl
@[simp] theorem Data.modMbx_rig (i : Fin 8) (f : Mbx → Mbx) : (d.modMbx i f).rig = d.rig := rfl
@[simp] theorem Data.modMbx_reload (i : Fin 8) (f : Mbx → Mbx) : (d.modMbx i f).reload = d.reload := rfl
@[simp] theorem Data.modMbx_prev (i : Fin 8) (f : Mbx → Mbx) : (d.modMbx i f).prev = d.prev := rfl
@[simp] theorem Data.modMbx_rigFallback (i : Fin 8) (f : Mbx → Mbx) : (d.modMbx i f).rigFallback = d.rigFallback := rfl
@[simp] theorem Data.modMbx_rigErr (i : Fin 8) (f : Mbx → Mbx) : (d.modMbx i f).rigErr = d.rigErr := rfl
@[simp] theorem Data.modMbx_rigErrSec (i : Fin 8) (f : Mbx → Mbx) : (d.modMbx i f).rigErrSec = d.rigErrSec := rfl
@[simp] theorem Data.modMbx_rigBusyGo (i : Fin 8) (f : Mbx → Mbx) : (d.modMbx i f).rigBusyGo = d.rigBusyGo := rfl
@[simp] theorem Data.modMbx_byp (i : Fin 8) (f : Mbx → Mbx) : (d.modMbx i f).byp = d.byp := rfl
@[simp] theorem Data.modMbx_bypAt (i : Fin 8) (f : Mbx → Mbx) : (d.modMbx i f).bypAt = d.bypAt := rfl
@[simp] theorem Data.modMbx_bypStale (i : Fin 8) (f : Mbx → Mbx) : (d.modMbx i f).bypStale = d.bypStale := rfl
@[simp] theorem Data.modMbx_touchDem (i : Fin 8) (f : Mbx → Mbx) : (d.modMbx i f).touchDem = d.touchDem := rfl
@[simp] theorem Data.modMbx_pwr (i : Fin 8) (f : Mbx → Mbx) : (d.modMbx i f).pwr = d.pwr := rfl
@[simp] theorem Data.modMbx_ptp (i : Fin 8) (f : Mbx → Mbx) : (d.modMbx i f).ptp = d.ptp := rfl
@[simp] theorem Data.modMbx_pair (i : Fin 8) (f : Mbx → Mbx) : (d.modMbx i f).pair = d.pair := rfl
@[simp] theorem Data.modMbx_svc (i : Fin 8) (f : Mbx → Mbx) : (d.modMbx i f).svc = d.svc := rfl
@[simp] theorem Data.regSet_fuses (a : Nat) (v : Word) : (d.regSet a v).fuses = d.fuses := rfl
@[simp] theorem Data.regSet_now (a : Nat) (v : Word) : (d.regSet a v).now = d.now := rfl
@[simp] theorem Data.regSet_cyc (a : Nat) (v : Word) : (d.regSet a v).cyc = d.cyc := rfl
@[simp] theorem Data.regSet_seq (a : Nat) (v : Word) : (d.regSet a v).seq = d.seq := rfl
@[simp] theorem Data.regSet_free (a : Nat) (v : Word) : (d.regSet a v).free = d.free := rfl
@[simp] theorem Data.regSet_regs (a : Nat) (v : Word) : (d.regSet a v).regs = SMap.set (regReset a) d.regs a v := rfl
@[simp] theorem Data.regSet_banks (a : Nat) (v : Word) : (d.regSet a v).banks = d.banks := rfl
@[simp] theorem Data.regSet_mbx (a : Nat) (v : Word) : (d.regSet a v).mbx = d.mbx := rfl
@[simp] theorem Data.regSet_links (a : Nat) (v : Word) : (d.regSet a v).links = d.links := rfl
@[simp] theorem Data.regSet_ports (a : Nat) (v : Word) : (d.regSet a v).ports = d.ports := rfl
@[simp] theorem Data.regSet_ilv (a : Nat) (v : Word) : (d.regSet a v).ilv = d.ilv := rfl
@[simp] theorem Data.regSet_slices (a : Nat) (v : Word) : (d.regSet a v).slices = d.slices := rfl
@[simp] theorem Data.regSet_store (a : Nat) (v : Word) : (d.regSet a v).store = d.store := rfl
@[simp] theorem Data.regSet_bkps (a : Nat) (v : Word) : (d.regSet a v).bkps = d.bkps := rfl
@[simp] theorem Data.regSet_dur (a : Nat) (v : Word) : (d.regSet a v).dur = d.dur := rfl
@[simp] theorem Data.regSet_hlm (a : Nat) (v : Word) : (d.regSet a v).hlm = d.hlm := rfl
@[simp] theorem Data.regSet_mnts (a : Nat) (v : Word) : (d.regSet a v).mnts = d.mnts := rfl
@[simp] theorem Data.regSet_mntTurn (a : Nat) (v : Word) : (d.regSet a v).mntTurn = d.mntTurn := rfl
@[simp] theorem Data.regSet_que (a : Nat) (v : Word) : (d.regSet a v).que = d.que := rfl
@[simp] theorem Data.regSet_queOnce (a : Nat) (v : Word) : (d.regSet a v).queOnce = d.queOnce := rfl
@[simp] theorem Data.regSet_evt (a : Nat) (v : Word) : (d.regSet a v).evt = d.evt := rfl
@[simp] theorem Data.regSet_pmc (a : Nat) (v : Word) : (d.regSet a v).pmc = d.pmc := rfl
@[simp] theorem Data.regSet_rig (a : Nat) (v : Word) : (d.regSet a v).rig = d.rig := rfl
@[simp] theorem Data.regSet_reload (a : Nat) (v : Word) : (d.regSet a v).reload = d.reload := rfl
@[simp] theorem Data.regSet_prev (a : Nat) (v : Word) : (d.regSet a v).prev = d.prev := rfl
@[simp] theorem Data.regSet_rigFallback (a : Nat) (v : Word) : (d.regSet a v).rigFallback = d.rigFallback := rfl
@[simp] theorem Data.regSet_rigErr (a : Nat) (v : Word) : (d.regSet a v).rigErr = d.rigErr := rfl
@[simp] theorem Data.regSet_rigErrSec (a : Nat) (v : Word) : (d.regSet a v).rigErrSec = d.rigErrSec := rfl
@[simp] theorem Data.regSet_rigBusyGo (a : Nat) (v : Word) : (d.regSet a v).rigBusyGo = d.rigBusyGo := rfl
@[simp] theorem Data.regSet_byp (a : Nat) (v : Word) : (d.regSet a v).byp = d.byp := rfl
@[simp] theorem Data.regSet_bypAt (a : Nat) (v : Word) : (d.regSet a v).bypAt = d.bypAt := rfl
@[simp] theorem Data.regSet_bypStale (a : Nat) (v : Word) : (d.regSet a v).bypStale = d.bypStale := rfl
@[simp] theorem Data.regSet_touchDem (a : Nat) (v : Word) : (d.regSet a v).touchDem = d.touchDem := rfl
@[simp] theorem Data.regSet_pwr (a : Nat) (v : Word) : (d.regSet a v).pwr = d.pwr := rfl
@[simp] theorem Data.regSet_ptp (a : Nat) (v : Word) : (d.regSet a v).ptp = d.ptp := rfl
@[simp] theorem Data.regSet_pair (a : Nat) (v : Word) : (d.regSet a v).pair = d.pair := rfl
@[simp] theorem Data.regSet_svc (a : Nat) (v : Word) : (d.regSet a v).svc = d.svc := rfl
@[simp] theorem Data.stamp_fuses (a : Nat) (m : Word) : (d.stamp a m).fuses = d.fuses := rfl
@[simp] theorem Data.stamp_now (a : Nat) (m : Word) : (d.stamp a m).now = d.now := rfl
@[simp] theorem Data.stamp_seq (a : Nat) (m : Word) : (d.stamp a m).seq = d.seq := rfl
@[simp] theorem Data.stamp_free (a : Nat) (m : Word) : (d.stamp a m).free = d.free := rfl
@[simp] theorem Data.stamp_regs (a : Nat) (m : Word) : (d.stamp a m).regs = d.regs := rfl
@[simp] theorem Data.stamp_banks (a : Nat) (m : Word) : (d.stamp a m).banks = d.banks := rfl
@[simp] theorem Data.stamp_mbx (a : Nat) (m : Word) : (d.stamp a m).mbx = d.mbx := rfl
@[simp] theorem Data.stamp_links (a : Nat) (m : Word) : (d.stamp a m).links = d.links := rfl
@[simp] theorem Data.stamp_ports (a : Nat) (m : Word) : (d.stamp a m).ports = d.ports := rfl
@[simp] theorem Data.stamp_ilv (a : Nat) (m : Word) : (d.stamp a m).ilv = d.ilv := rfl
@[simp] theorem Data.stamp_slices (a : Nat) (m : Word) : (d.stamp a m).slices = d.slices := rfl
@[simp] theorem Data.stamp_store (a : Nat) (m : Word) : (d.stamp a m).store = d.store := rfl
@[simp] theorem Data.stamp_bkps (a : Nat) (m : Word) : (d.stamp a m).bkps = d.bkps := rfl
@[simp] theorem Data.stamp_dur (a : Nat) (m : Word) : (d.stamp a m).dur = d.dur := rfl
@[simp] theorem Data.stamp_hlm (a : Nat) (m : Word) : (d.stamp a m).hlm = d.hlm := rfl
@[simp] theorem Data.stamp_mnts (a : Nat) (m : Word) : (d.stamp a m).mnts = d.mnts := rfl
@[simp] theorem Data.stamp_mntTurn (a : Nat) (m : Word) : (d.stamp a m).mntTurn = d.mntTurn := rfl
@[simp] theorem Data.stamp_que (a : Nat) (m : Word) : (d.stamp a m).que = d.que := rfl
@[simp] theorem Data.stamp_queOnce (a : Nat) (m : Word) : (d.stamp a m).queOnce = d.queOnce := rfl
@[simp] theorem Data.stamp_evt (a : Nat) (m : Word) : (d.stamp a m).evt = d.evt := rfl
@[simp] theorem Data.stamp_pmc (a : Nat) (m : Word) : (d.stamp a m).pmc = d.pmc := rfl
@[simp] theorem Data.stamp_rig (a : Nat) (m : Word) : (d.stamp a m).rig = d.rig := rfl
@[simp] theorem Data.stamp_reload (a : Nat) (m : Word) : (d.stamp a m).reload = d.reload := rfl
@[simp] theorem Data.stamp_prev (a : Nat) (m : Word) : (d.stamp a m).prev = d.prev := rfl
@[simp] theorem Data.stamp_rigFallback (a : Nat) (m : Word) : (d.stamp a m).rigFallback = d.rigFallback := rfl
@[simp] theorem Data.stamp_rigErr (a : Nat) (m : Word) : (d.stamp a m).rigErr = d.rigErr := rfl
@[simp] theorem Data.stamp_rigErrSec (a : Nat) (m : Word) : (d.stamp a m).rigErrSec = d.rigErrSec := rfl
@[simp] theorem Data.stamp_rigBusyGo (a : Nat) (m : Word) : (d.stamp a m).rigBusyGo = d.rigBusyGo := rfl
@[simp] theorem Data.stamp_byp (a : Nat) (m : Word) : (d.stamp a m).byp = d.byp := rfl
@[simp] theorem Data.stamp_bypAt (a : Nat) (m : Word) : (d.stamp a m).bypAt = d.bypAt := rfl
@[simp] theorem Data.stamp_bypStale (a : Nat) (m : Word) : (d.stamp a m).bypStale = d.bypStale := rfl
@[simp] theorem Data.stamp_touchDem (a : Nat) (m : Word) : (d.stamp a m).touchDem = d.touchDem := rfl
@[simp] theorem Data.stamp_pwr (a : Nat) (m : Word) : (d.stamp a m).pwr = d.pwr := rfl
@[simp] theorem Data.stamp_ptp (a : Nat) (m : Word) : (d.stamp a m).ptp = d.ptp := rfl
@[simp] theorem Data.stamp_pair (a : Nat) (m : Word) : (d.stamp a m).pair = d.pair := rfl
@[simp] theorem Data.stamp_svc (a : Nat) (m : Word) : (d.stamp a m).svc = d.svc := rfl

end Updates

/-! ## Elements of a vector -/

theorem vmod_self {α : Type} {n : Nat} (v : Vector α n) (i : Fin n) (f : α → α) : (vmod v i f)[i] = f v[i] := by
  simp [vmod]

theorem vmod_other {α : Type} {n : Nat} (v : Vector α n) {i j : Fin n} (f : α → α) (h : j ≠ i) : (vmod v i f)[j] = v[j] := by
  have : i.val ≠ j.val := fun e => h (Fin.ext e.symm)
  simp [vmod, this]

/-- The same for an index written as a number, which is how `simp` writes it. -/
@[simp] theorem vmod_getElem {α : Type} {n : Nat} (v : Vector α n) (i : Fin n) (f : α → α) (j : Nat) (h : j < n) :
    (vmod v i f)[j] = if i.val = j then f v[j] else v[j] := by
  unfold vmod
  rw [Vector.getElem_set]
  split
  · rename_i e; subst e; rfl
  · rfl

/-! ## How commands work on the whole state -/

section Whole
variable (s : State) (x : DM) (d : Data)

@[simp] theorem State.begun_d : s.begun.d = s.d := rfl
@[simp] theorem State.afterDM_pending : (s.afterDM x).pending = s.pending := by simp only [State.afterDM]
@[simp] theorem State.afterDM_tap : (s.afterDM x).tap = s.tap := by simp only [State.afterDM]
@[simp] theorem State.after_pending : (s.after d).pending = s.pending := by simp only [State.after, State.afterDM_pending]
@[simp] theorem State.after_tap : (s.after d).tap = s.tap := by simp only [State.after, State.afterDM_tap]
@[simp] theorem State.onDM_pending (f : DM → DM) : (s.onDM f).pending = s.pending := by simp only [State.onDM, State.afterDM_pending]
@[simp] theorem State.onDM_tap (f : DM → DM) : (s.onDM f).tap = s.tap := by simp only [State.onDM, State.afterDM_tap]
@[simp] theorem State.onData_pending (f : Data → Data) : (s.onData f).pending = s.pending := by simp only [State.onData, State.after_pending]
@[simp] theorem State.onData_tap (f : Data → Data) : (s.onData f).tap = s.tap := by simp only [State.onData, State.after_tap]
theorem State.onDM_eq (f : DM → DM) : s.onDM f = s.afterDM (f s.begun) := by simp only [State.onDM]
theorem State.onData_eq (f : Data → Data) : s.onData f = s.after (f s.d) := by simp only [State.onData]

/-- A change of the device alone, as a change of the device and the cluster. -/
theorem State.afterDM_begun : s.afterDM { s.begun with d := d } = s.after d := by simp only [State.after]

end Whole

end Sys2Proof.Machine
end

