-- ==== Sys2Proof/Laws/Commands.lean ====
section
/-!
SUPPORT. What a command can do, once for all commands: it changes the device and the cluster by one function and lets follow what
follows of itself, or it is one of the two commands of the test access port.
-/

namespace Sys2Proof.Machine

/-- Every command is a change of the device, a change of the device and the cluster, or a command of the TAP. -/
theorem exec_shape (c : Instr) (s : State) :
    (∃ f, exec c s = .next (s.onData f)) ∨ (∃ f, exec c s = .next (s.onDM f)) ∨
    (∃ rise tms tdi, c = .tck rise tms tdi ∧
      exec c s = .next { s with d := (tapEdge s.d s.tap rise tms tdi).1, tap := (tapEdge s.d s.tap rise tms tdi).2 }) ∨
    (c = .trstN ∧ exec c s = .next { s with tap := tapReset s.tap }) := by
  cases c
  case tck r a b => exact .inr (.inr (.inl ⟨r, a, b, rfl, rfl⟩))
  case trstN => exact .inr (.inr (.inr ⟨rfl, rfl⟩))
  case rdSh | rdOwn | upgrade | wr | evict | wb | passAdmission | waitListReadmission | retryReentry | rspI |
      rspIFwd | rspSFwd | rspOFwd | rspIWb | rspRecall | rspCnS | rspCnX | rspCnO | datS | datE | datM | datSnpC |
      datSnpD | fill | storeReadReturn | binv | directoryFetchReturn | spillBackstopWrite | holdExpiry |
      snoopAnswerTimeout | owedAnswerTimeout | backingReadTimeout | backingWriteTimeout | storeDirectoryTimeout |
      retryWaitTimeout | budgetWaitTimeout | backingWriteAck | wbEntrySend | combineExpiry | prefetch |
      prefetchData | sideBufferAgeOut | viralIndication | backingLinkLost | dirtyMapEpoch | earlyCleaningStep |
      powerFailWarning | recallDeadline | drainStep | drainDeadline | gpfPhase1Response | gpfPhase2Response |
      persistDeadline | setShutdownStateComplete | journalDeadline | journalFlushTimeout | sealItem |
      sealDurabilityStep | sealHashComplete | clean | inv | clinv | retire | unretire | maintenanceStep |
      planishStep | scrubRead | scrubPeriodEnd | qPush | qPop | queueStaleTimeout | gapMarker | regRd | regWr |
      reloadSwitch | reloadTimeout | rld | reloadPartnerTimeout | eventQueuePush | snapshotPeriodExpiry | snapshot |
      assayComplete | bkpReturnComplete | strapSample | rdy | resetN | refclkFailure | d1WakeTimer |
      stackTemperature | thermtrip | receiverDetected | detectTimeout | sts1 | sts2 | sdm | trainTimeout |
      cfgTimeout | equalisationComplete | equalisationFailure | initTimeout | payload | nop | badFlit |
      nakResendTimeout | replayTimeout | laneLockLost | recoverComplete | recoverTimeout | l1Req | l1Ack | l1Nak |
      l1AnswerTimeout | l1idleExpiry | electricalIdleExit | wakeComplete | wakeTimeout | creditWait |
      creditWaitIsolation | shroudHello | hb | heartbeatMissed | censusLimitExpiry | censusCloseWalkStep |
      failoverResume | salvageStep | sliceFaultResume | witnessWrite | witnessWriteTimeout | witnessReadComplete |
      joinwExpiry | shroudRetry | mwr | mclr | swr | sclr | mrd | mdat | mfull | mirrorReadTimeout |
      mirrorDrainStep | mirrorResyncStep | dxf | dxfEnd | sync | syncTimeout | heartbeatSend | waitWitnessRead => exact .inl ⟨_, rfl⟩
  case durBudget | doneRestart | arm | quePushHi | quePopLo | flush | registerWrite | rcFieldRead |
      postedWriteEffect | farAccessTimeout | mbxSel | mbxFillComplete | mbxAck | mbxDataRead | go | slcDisGo |
      slcEnGo | cbypDisGo | cbypEnGo | eventTick | evtForce | snap | clrAll | pmcWvalHi | pmcSmpSeed | aptSwev |
      dis | retrain | drain | returnSlc | artsGo | assay | bkpReturn | bkpFail | handover | handback | halCtlEnum |
      unreef | reef | reset | kick | powerGood | pwrgdLow | warmResetEffect | domainIdleReef | domainWake |
      domainWakeComplete | domainWakeTimeout | pllLockFailure | crystalFailure | watchdogExpiry | hello | tmpRegRd |
      tmpRegWr | mbxRd | qSub | tmpQPush | evtSub | evtSubLapse | logRd | time | tmpSnap | updStart | updData |
      updEnd | updActivate | updConfirm | updAbort | updStat | rigWrite | rigErase | setRd | setWr | restartDevice |
      restartManagementCluster | relayExpiry | chainPortUp | chainPortDown | enum | enumDone | tmpFrame | imgOffer |
      imgReq | imgData | imgRsp | imgReqResendTimeout | crucibleLockTimeout | trialRecordTimer | autoConfirmExpiry |
      ethernetLinkUp | ethernetLinkDown | domainReefComplete | flashBlockErased | frameBufferCredit => exact .inr (.inl ⟨_, rfl⟩)

/-- A command on the device, and what it leaves there. -/
theorem exec_after {c : Instr} {s : State} {f : Data → Data} {d : Data} (h : exec c s = .next (s.onData f)) (hd : f s.d = d) :
    exec c s = .next (s.after d) := by rw [h, State.onData, hd]

/-- A command on the device and the cluster, and what it leaves there. -/
theorem exec_afterDM {c : Instr} {s : State} {f : DM → DM} {x : DM} (h : exec c s = .next (s.onDM f)) (hx : f s.begun = x) :
    exec c s = .next (s.afterDM x) := by rw [h, State.onDM, hx]

/-- A command that may concern the cluster and leaves it as it found it. -/
theorem exec_afterDM_data {c : Instr} {s : State} {f : DM → DM} {d : Data} (h : exec c s = .next (s.onDM f))
    (hx : f s.begun = { s.begun with d := d }) : exec c s = .next (s.after d) := by rw [h, State.onDM, hx, State.afterDM_begun]

/-- A step of an empty queue, and of a queue with a command in front. -/
theorem step_nil (s : State) (h : s.pending = []) : step s = .next s.idle := by simp only [step, h]
theorem step_cons (s : State) (c : Instr) (rest : List Instr) (h : s.pending = c :: rest) :
    step s = exec c { s with pending := rest } := by simp only [step, h]

/-! ## The test access port -/

@[simp] theorem tapRise_st (t : Tap) (e : Bool) (m : BitVec 11) (tms tdi : Bool) (v : BitVec 64) :
    (tapRise t e m tms tdi v).st = tapNext t.st tms := by
  cases t with | mk st => cases st <;> simp only [tapRise]; all_goals first | rfl | (split; all_goals rfl)

@[simp] theorem tapRise_ir (t : Tap) (e : Bool) (m : BitVec 11) (tms tdi : Bool) (v : BitVec 64) :
    (tapRise t e m tms tdi v).ir = t.ir := by
  cases t with | mk st => cases st <;> simp only [tapRise]; all_goals first | rfl | (split; all_goals rfl)

@[simp] theorem tapRise_tck (t : Tap) (e : Bool) (m : BitVec 11) (tms tdi : Bool) (v : BitVec 64) :
    (tapRise t e m tms tdi v).tck = true := by
  cases t with | mk st => cases st <;> simp only [tapRise]; all_goals first | rfl | (split; all_goals rfl)

@[simp] theorem tapFall_st (t : Tap) (e : Bool) (tms tdi : Bool) (v : BitVec 64) : (tapFall t e tms tdi v).st = t.st := by
  cases t with | mk st => cases st <;> simp [tapFall]

@[simp] theorem tapFall_tck (t : Tap) (e : Bool) (tms tdi : Bool) (v : BitVec 64) : (tapFall t e tms tdi v).tck = false := by
  cases t with | mk st => cases st <;> simp [tapFall]

end Sys2Proof.Machine
end

