-- ==== Sys2Proof/Laws/Digests.lean ====
section
/-!
SUPPORT. Lengths of digests and of the code of a TMP message.
-/

namespace Sys2Proof.Machine

@[simp] theorem leBytes_length (n x : Nat) : (leBytes n x).length = n := by
  induction n generalizing x with
  | zero => rfl
  | succ n ih => simp [leBytes, ih]

theorem shaRound_length {w : Nat} (r : ShaRot) (v : List (BitVec w)) (kw : BitVec w × BitVec w) : (shaRound r v kw).length = v.length := by
  unfold shaRound
  split <;> rfl

theorem shaRounds_length {w : Nat} (r : ShaRot) (l : List (BitVec w × BitVec w)) (v : List (BitVec w)) :
    (l.foldl (shaRound r) v).length = v.length := by
  induction l generalizing v with
  | nil => rfl
  | cons x xs ih => rw [List.foldl_cons, ih, shaRound_length]

theorem shaBlock_length {w : Nat} (r : ShaRot) (ks h blk : List (BitVec w)) : (shaBlock r ks h blk).length = h.length := by
  simp [shaBlock, shaRounds_length]

/-- A digest has one word for each word of the initial value. -/
theorem sha2_length {w : Nat} (r : ShaRot) (ks h : List (BitVec w)) (l : List Byte) : (sha2 r ks h l).length = h.length * (w / 8) := by
  have fold : ∀ (bs : List (List Byte)) (v : List (BitVec w)),
      (bs.foldl (fun h b => shaBlock r ks h ((pieces (w / 8) 16 b).map fun x => BitVec.ofNat w (beNat x))) v).length = v.length := by
    intro bs
    induction bs with
    | nil => intro v; rfl
    | cons b bs ih => intro v; rw [List.foldl_cons, ih, shaBlock_length]
  simp [sha2, List.length_flatMap, fold]

@[simp] theorem sha256_length (l : List Byte) : (sha256 l).length = 32 := by simp [sha256, sha2_length, sha256H]

/-- The code of a TMP message is 16 bytes long (R356). -/
@[simp] theorem tmpMac_length (k l : List Byte) : (tmpMac k l).length = 16 := by simp [tmpMac, hmac256]

end Sys2Proof.Machine
end

