-- ==== Sys2Proof/Laws/Maps.lean ====
section
/-!
SUPPORT. Laws of sparse maps: what is read after a write, and that writes keep the canonical form.
-/

namespace Sys2Proof.Machine

variable {β : Type}

@[simp] theorem SMap.get_nil (d : β) (k : Nat) : SMap.get d [] k = d := rfl

@[simp] theorem SMap.get_del_self (d : β) (m : SMap β) (k : Nat) : SMap.get d (SMap.del m k) k = d := by
  induction m with
  | nil => rfl
  | cons x m ih => simp only [SMap.del]; split <;> simp_all [SMap.get]

theorem SMap.get_del_other (d : β) (m : SMap β) {k j : Nat} (h : j ≠ k) :
    SMap.get d (SMap.del m k) j = SMap.get d m j := by
  induction m with
  | nil => rfl
  | cons x m ih =>
    simp only [SMap.del]
    split
    · rename_i hk
      have : x.1 ≠ j := fun e => h (e.symm.trans hk)
      simp [SMap.get, ih, this]
    · simp [SMap.get, ih]

@[simp] theorem SMap.get_ins_self (d : β) (m : SMap β) (k : Nat) (v : β) : SMap.get d (SMap.ins m k v) k = v := by
  induction m with
  | nil => simp [SMap.ins, SMap.get]
  | cons x m ih =>
    simp only [SMap.ins]
    split
    · simp [SMap.get]
    · split
      · simp [SMap.get]
      · rename_i h1 h2
        simp [SMap.get, Ne.symm h2, ih]

theorem SMap.get_ins_other (d : β) (m : SMap β) (v : β) {k j : Nat} (h : j ≠ k) :
    SMap.get d (SMap.ins m k v) j = SMap.get d m j := by
  induction m with
  | nil => simp [SMap.ins, SMap.get, Ne.symm h]
  | cons x m ih =>
    simp only [SMap.ins]
    split
    · simp [SMap.get, Ne.symm h]
    · split
      · rename_i h1 h2
        subst h2
        simp [SMap.get, Ne.symm h]
      · simp [SMap.get, ih]

/-- A read after a write to the same key gives the value written. -/
@[simp] theorem SMap.get_set_self [DecidableEq β] (d : β) (m : SMap β) (k : Nat) (v : β) :
    SMap.get d (SMap.set d m k v) k = v := by
  unfold SMap.set; split <;> simp_all

/-- A write leaves every other key alone. -/
theorem SMap.get_set_other [DecidableEq β] (d : β) (m : SMap β) (v : β) {k j : Nat} (h : j ≠ k) :
    SMap.get d (SMap.set d m k v) j = SMap.get d m j := by
  unfold SMap.set; split
  · exact SMap.get_del_other d m h
  · exact SMap.get_ins_other d m v h

/-- The same where reads use a default of their own. -/
theorem SMap.get_set_other' [DecidableEq β] (d e : β) (m : SMap β) (v : β) {k j : Nat} (h : j ≠ k) :
    SMap.get e (SMap.set d m k v) j = SMap.get e m j := by
  unfold SMap.set; split
  · exact SMap.get_del_other e m h
  · exact SMap.get_ins_other e m v h

@[simp] theorem SMap.get_upd_self [DecidableEq β] (d : β) (m : SMap β) (k : Nat) (f : β → β) :
    SMap.get d (SMap.upd d m k f) k = f (SMap.get d m k) := SMap.get_set_self ..

theorem SMap.get_upd_other [DecidableEq β] (d : β) (m : SMap β) (f : β → β) {k j : Nat} (h : j ≠ k) :
    SMap.get d (SMap.upd d m k f) j = SMap.get d m j := SMap.get_set_other d m _ h

/-! ## The canonical form -/

theorem SMap.mem_del {m : SMap β} {k : Nat} {x : Nat × β} (h : x ∈ SMap.del m k) : x ∈ m := by
  induction m with
  | nil => simp [SMap.del] at h
  | cons y m ih =>
    simp only [SMap.del] at h
    split at h
    · exact List.mem_cons_of_mem _ (ih h)
    · rcases List.mem_cons.1 h with rfl | h
      · exact List.mem_cons_self
      · exact List.mem_cons_of_mem _ (ih h)

theorem SMap.mem_ins {m : SMap β} {k : Nat} {v : β} {x : Nat × β} (h : x ∈ SMap.ins m k v) : x = (k, v) ∨ x ∈ m := by
  induction m with
  | nil => simpa [SMap.ins] using h
  | cons y m ih =>
    simp only [SMap.ins] at h
    split at h
    · simpa using h
    · split at h
      · rcases List.mem_cons.1 h with rfl | h
        · exact .inl rfl
        · exact .inr (List.mem_cons_of_mem _ h)
      · rcases List.mem_cons.1 h with rfl | h
        · exact .inr List.mem_cons_self
        · rcases ih h with rfl | h
          · exact .inl rfl
          · exact .inr (List.mem_cons_of_mem _ h)

theorem SMap.wf_nil (d : β) : SMap.wf d [] := ⟨.nil, by simp⟩

theorem SMap.wf_del {d : β} {m : SMap β} (h : SMap.wf d m) (k : Nat) : SMap.wf d (SMap.del m k) := by
  refine ⟨?_, fun a ha => h.2 a (SMap.mem_del ha)⟩
  have hp := h.1
  clear h
  induction m with
  | nil => exact .nil
  | cons y m ih =>
    simp only [SMap.del]
    split
    · exact ih (List.pairwise_cons.1 hp).2
    · exact List.pairwise_cons.2 ⟨fun a ha => (List.pairwise_cons.1 hp).1 a (SMap.mem_del ha), ih (List.pairwise_cons.1 hp).2⟩

theorem SMap.wf_ins {d : β} {m : SMap β} (h : SMap.wf d m) (k : Nat) {v : β} (hv : v ≠ d) : SMap.wf d (SMap.ins m k v) := by
  constructor
  · have hp := h.1
    clear h
    induction m with
    | nil => simp [SMap.ins]
    | cons y m ih =>
      have hy := List.pairwise_cons.1 hp
      simp only [SMap.ins]
      split
      · rename_i hk
        refine List.pairwise_cons.2 ⟨fun a ha => ?_, hp⟩
        rcases List.mem_cons.1 ha with rfl | ha
        · exact hk
        · exact Nat.lt_trans hk (hy.1 a ha)
      · split
        · rename_i hk hk'
          subst hk'
          exact List.pairwise_cons.2 ⟨hy.1, hy.2⟩
        · rename_i hk hk'
          refine List.pairwise_cons.2 ⟨fun a ha => ?_, ih hy.2⟩
          rcases SMap.mem_ins ha with rfl | ha
          · show y.1 < k; omega
          · exact hy.1 a ha
  · intro a ha
    rcases SMap.mem_ins ha with rfl | ha
    · exact hv
    · exact h.2 a ha

/-- A write keeps the canonical form. -/
theorem SMap.wf_set [DecidableEq β] {d : β} {m : SMap β} (h : SMap.wf d m) (k : Nat) (v : β) : SMap.wf d (SMap.set d m k v) := by
  unfold SMap.set; split
  · exact SMap.wf_del h k
  · exact SMap.wf_ins h k ‹_›

theorem SMap.wf_upd [DecidableEq β] {d : β} {m : SMap β} (h : SMap.wf d m) (k : Nat) (f : β → β) : SMap.wf d (SMap.upd d m k f) :=
  SMap.wf_set h k _

/-- Leaving entries out keeps the canonical form. -/
theorem SMap.wf_filter {d : β} {m : SMap β} (h : SMap.wf d m) (p : Nat × β → Bool) : SMap.wf d (m.filter p) :=
  ⟨h.1.filter p, fun a ha => h.2 a (List.mem_filter.1 ha).1⟩

/-- The check of the canonical form is the canonical form. -/
theorem SMap.ok_iff [DecidableEq β] (d : β) (m : SMap β) : SMap.ok d m = true ↔ SMap.wf d m := by
  unfold SMap.ok SMap.wf
  simp only [Bool.and_eq_true, List.all_eq_true, decide_eq_true_eq, bne_iff_ne]
  exact and_comm

end Sys2Proof.Machine
end

