-- ==== Sys2Proof/Laws/Flash.lean ====
section
/-!
SUPPORT. Laws of the flash (R367): what programming, erasing and copying leave in each byte, and that they keep the canonical form.
-/

namespace Sys2Proof.Machine

theorem flashOk_iff (m : Mgmt) : m.flashOk = true ↔ SMap.wf (0xFF : Byte) m.flash := SMap.ok_iff _ _

/-- A filter of keys leaves what it keeps, and nothing else. -/
theorem SMap.get_filter {β : Type} (d : β) (m : SMap β) (p : Nat → Bool) (k : Nat) :
    SMap.get d (m.filter fun x => p x.1) k = if p k then SMap.get d m k else d := by
  induction m with
  | nil => simp
  | cons x m ih =>
    obtain ⟨a, v⟩ := x
    by_cases ha : p a
    · rw [List.filter_cons_of_pos (by simpa using ha)]
      simp only [SMap.get, ih]
      by_cases h : a = k
      · subst h; simp [ha]
      · simp [h]
    · rw [List.filter_cons_of_neg (by simpa using ha), ih]
      by_cases h : a = k
      · subst h; simp [ha]
      · simp [SMap.get, h]

theorem flashErase_wf {f : List Host.Cell} (h : SMap.wf (0xFF : Byte) f) (o n : Nat) : SMap.wf (0xFF : Byte) (flashErase f o n) :=
  SMap.wf_filter h _

theorem flashGet_erase (f : List Host.Cell) (o n a : Nat) :
    flashGet (flashErase f o n) a = if o ≤ a ∧ a < o + n then 0xFF else flashGet f a := by
  unfold flashGet flashErase
  rw [SMap.get_filter (0xFF : Byte) f (fun k => !decide (o ≤ k ∧ k < o + n)) a]
  by_cases h : o ≤ a ∧ a < o + n <;> simp [h]

theorem flashProg_wf {f : List Host.Cell} (h : SMap.wf (0xFF : Byte) f) (o : Nat) (l : List Byte) : SMap.wf (0xFF : Byte) (flashProg f o l) := by
  unfold flashProg
  generalize l.zipIdx = z
  induction z generalizing f with
  | nil => exact h
  | cons x z ih => exact ih (SMap.wf_set h _ _)

theorem flashGet_prog (f : List Host.Cell) (o : Nat) (l : List Byte) (a : Nat) :
    flashGet (flashProg f o l) a = if o ≤ a ∧ a < o + l.length then flashGet f a &&& l.getD (a - o) 0xFF else flashGet f a := by
  have key : ∀ (l : List Byte) (f : List Host.Cell) (s : Nat),
      flashGet ((l.zipIdx s).foldl (fun f x => SMap.set (0xFF : Byte) f (o + x.2) (flashGet f (o + x.2) &&& x.1)) f) a =
        if o + s ≤ a ∧ a < o + s + l.length then flashGet f a &&& l.getD (a - (o + s)) 0xFF else flashGet f a := by
    intro l
    induction l with
    | nil => intro f s; simp
    | cons b l ih =>
      intro f s
      rw [List.zipIdx_cons, List.foldl_cons, ih]
      by_cases h0 : a = o + s
      · subst h0
        have h1 : ¬ (o + (s + 1) ≤ o + s ∧ o + s < o + (s + 1) + l.length) := by omega
        have h2 : o + s ≤ o + s ∧ o + s < o + s + (b :: l).length := by simp
        rw [if_neg h1, if_pos h2]
        simp [flashGet]
      · have hg : flashGet (SMap.set (0xFF : Byte) f (o + s) (flashGet f (o + s) &&& b)) a = flashGet f a :=
          SMap.get_set_other _ _ _ h0
        rw [hg]
        by_cases h1 : o + (s + 1) ≤ a ∧ a < o + (s + 1) + l.length
        · have h2 : o + s ≤ a ∧ a < o + s + (b :: l).length := by simp only [List.length_cons]; omega
          rw [if_pos h1, if_pos h2, show a - (o + s) = a - (o + (s + 1)) + 1 by omega]
          simp
        · have h2 : ¬ (o + s ≤ a ∧ a < o + s + (b :: l).length) := by simp only [List.length_cons]; omega
          rw [if_neg h1, if_neg h2]
  simpa [flashProg] using key l f 0

theorem flashCopy_wf {f : List Host.Cell} (h : SMap.wf (0xFF : Byte) f) (src dst b : Nat) : SMap.wf (0xFF : Byte) (flashCopy f src dst b) := by
  obtain ⟨hp, hn⟩ := h
  unfold flashCopy
  refine ⟨?_, ?_⟩
  · rw [List.append_assoc, List.pairwise_append, List.pairwise_append]
    refine ⟨hp.filter _, ⟨?_, hp.filter _, ?_⟩, ?_⟩
    · rw [List.pairwise_map]
      refine (hp.filter _).imp_of_mem ?_
      intro x y hx hy hxy
      simp only [List.mem_filter, decide_eq_true_eq] at hx hy
      show x.1 - _ + _ < y.1 - _ + _
      omega
    · intro x hx y hy
      simp only [List.mem_map, List.mem_filter, decide_eq_true_eq] at hx hy
      obtain ⟨z, ⟨_, hz⟩, rfl⟩ := hx
      show z.1 - _ + _ < y.1
      omega
    · intro x hx y hy
      simp only [List.mem_append, List.mem_map, List.mem_filter, decide_eq_true_eq] at hx hy
      rcases hy with ⟨z, ⟨_, hz⟩, rfl⟩ | hy
      · show x.1 < z.1 - _ + _
        omega
      · have : 0 < flBlock := by decide
        show x.1 < y.1
        omega
  · intro x hx
    simp only [List.mem_append, List.mem_map, List.mem_filter, decide_eq_true_eq] at hx
    rcases hx with (hx | ⟨z, hz, rfl⟩) | hx
    · exact hn x hx.1
    · exact hn z hz.1
    · exact hn x hx.1

end Sys2Proof.Machine
end

