-- ==== Sys2Proof/Laws/Registers.lean ====
section
/-!
SUPPORT. Laws of the register file (R9, R338): reads after writes, bit by bit, and what a control triggered by a register write
reaches.
-/

namespace Sys2Proof.Machine

/-! ## Whole registers -/

@[simp] theorem Data.reg_regSet_self (d : Data) (a : Nat) (v : Word) : (d.regSet a v).reg a = v := by
  simp [Data.reg]

theorem Data.reg_regSet_other (d : Data) (v : Word) {a b : Nat} (h : b ≠ a) : (d.regSet a v).reg b = d.reg b := by
  simp only [Data.reg, Data.regSet_regs]
  exact SMap.get_set_other' _ _ _ _ h

theorem Data.reg_regWrite_other (d : Data) (v en : Word) {a b : Nat} (h : b ≠ a) : (d.regWrite a v en).reg b = d.reg b := by
  unfold Data.regWrite; split
  · exact d.reg_regSet_other _ h
  · rfl

theorem Data.reg_regWrite_self (d : Data) (v en : Word) {a : Nat} {row : RegRow} (h : regRow a = some row) :
    (d.regWrite a v en).reg a = accApply row (d.reg a) v en := by
  simp [Data.regWrite, h]

/-- A write of a register's stored fields changes the register file alone. -/
theorem Data.regWrite_eq (d : Data) (a : Nat) (v en : Word) : ∃ m, d.regWrite a v en = { d with regs := m } := by
  unfold Data.regWrite; split
  · exact ⟨_, rfl⟩
  · exact ⟨d.regs, rfl⟩

/-! ## Bits of a write (R9, R338) -/

/-- A bit of a field of type RW, RWS or WO takes the value written where it is enabled. -/
theorem accApply_rw (row : RegRow) (old v en : Word) (i : Nat)
    (hr : (accMask row (fun a => a == .rw || a == .rws || a == .wo)).getLsbD i = true)
    (hc : (accMask row (· == .w1c)).getLsbD i = false) (hs : (accMask row (· == .w1s)).getLsbD i = false) :
    (accApply row old v en).getLsbD i = if en.getLsbD i then v.getLsbD i else old.getLsbD i := by
  rcases Nat.lt_or_ge i 32 with hi | hi
  · simp only [accApply, BitVec.getLsbD_or, BitVec.getLsbD_and, BitVec.getLsbD_not, hr, hc, hs, hi]
    cases en.getLsbD i <;> simp
  · simp [BitVec.getLsbD_of_ge _ _ hi]

/-- A bit of a field of type W1C goes to 0 where a 1 is written to it. -/
theorem accApply_w1c (row : RegRow) (old v en : Word) (i : Nat)
    (hr : (accMask row (fun a => a == .rw || a == .rws || a == .wo)).getLsbD i = false)
    (hc : (accMask row (· == .w1c)).getLsbD i = true) (hs : (accMask row (· == .w1s)).getLsbD i = false) :
    (accApply row old v en).getLsbD i = (old.getLsbD i && !(en.getLsbD i && v.getLsbD i)) := by
  rcases Nat.lt_or_ge i 32 with hi | hi
  · simp only [accApply, BitVec.getLsbD_or, BitVec.getLsbD_and, BitVec.getLsbD_not, hr, hc, hs, hi]
    cases en.getLsbD i <;> simp
  · simp [BitVec.getLsbD_of_ge _ _ hi]

/-- A bit of a field of type W1S goes to 1 where a 1 is written to it. -/
theorem accApply_w1s (row : RegRow) (old v en : Word) (i : Nat)
    (hr : (accMask row (fun a => a == .rw || a == .rws || a == .wo)).getLsbD i = false)
    (hc : (accMask row (· == .w1c)).getLsbD i = false) (hs : (accMask row (· == .w1s)).getLsbD i = true) :
    (accApply row old v en).getLsbD i = (old.getLsbD i || (en.getLsbD i && v.getLsbD i)) := by
  rcases Nat.lt_or_ge i 32 with hi | hi
  · simp only [accApply, BitVec.getLsbD_or, BitVec.getLsbD_and, BitVec.getLsbD_not, hr, hc, hs, hi]
    cases en.getLsbD i <;> simp
  · simp [BitVec.getLsbD_of_ge _ _ hi]

/-- Every other bit stands. -/
theorem accApply_ro (row : RegRow) (old v en : Word) (i : Nat)
    (hr : (accMask row (fun a => a == .rw || a == .rws || a == .wo)).getLsbD i = false)
    (hc : (accMask row (· == .w1c)).getLsbD i = false) (hs : (accMask row (· == .w1s)).getLsbD i = false) :
    (accApply row old v en).getLsbD i = old.getLsbD i := by
  rcases Nat.lt_or_ge i 32 with hi | hi
  · simp only [accApply, BitVec.getLsbD_or, BitVec.getLsbD_and, BitVec.getLsbD_not, hr, hc, hs, hi]
    cases en.getLsbD i <;> simp
  · simp [BitVec.getLsbD_of_ge _ _ hi]

/-- A field as bits of the register. -/
theorem bits_eq_extract (x : Word) (lo n : Nat) : bits x.toNat lo n = (x.extractLsb' lo n).toNat := by
  simp [bits, BitVec.extractLsb'_toNat]

/-- A bit that is not enabled stands, whatever its type. -/
theorem accApply_off (row : RegRow) (old v en : Word) (i : Nat) (he : en.getLsbD i = false) :
    (accApply row old v en).getLsbD i = old.getLsbD i := by
  rcases Nat.lt_or_ge i 32 with hi | hi
  · simp only [accApply, BitVec.getLsbD_or, BitVec.getLsbD_and, BitVec.getLsbD_not, he, hi]
    simp
  · simp [BitVec.getLsbD_of_ge _ _ hi]

theorem Data.flag_regWrite_off (d : Data) (a : Nat) (v en : Word) (i : Nat) (he : en.getLsbD i = false) :
    (d.regWrite a v en).flag a i = d.flag a i := by
  unfold Data.flag Data.regWrite
  split
  · rw [Data.reg_regSet_self, accApply_off _ _ _ _ _ he]
  · rfl

theorem Data.flag_regWrite_rw (d : Data) (a : Nat) (v en : Word) (i : Nat) {row : RegRow} (h : regRow a = some row)
    (hr : (accMask row (fun a => a == .rw || a == .rws || a == .wo)).getLsbD i = true)
    (hc : (accMask row (· == .w1c)).getLsbD i = false) (hs : (accMask row (· == .w1s)).getLsbD i = false)
    (he : en.getLsbD i = true) : (d.regWrite a v en).flag a i = v.getLsbD i := by
  unfold Data.flag
  rw [d.reg_regWrite_self v en h, accApply_rw _ _ _ _ _ hr hc hs, he, if_pos rfl]

/-- Fields with the same bits are equal. -/
theorem bits_congr {x y : Word} {lo n : Nat} (h : ∀ i < n, x.getLsbD (lo + i) = y.getLsbD (lo + i)) :
    bits x.toNat lo n = bits y.toNat lo n := by
  rw [bits_eq_extract, bits_eq_extract]
  congr 1
  apply BitVec.eq_of_getLsbD_eq
  intro i hi
  simp only [BitVec.getLsbD_extractLsb', hi, decide_true, Bool.true_and]
  exact h i hi

theorem Data.fld_regWrite_off (d : Data) (a : Nat) (v en : Word) (lo n : Nat) (he : ∀ i < n, en.getLsbD (lo + i) = false) :
    (d.regWrite a v en).fld a lo n = d.fld a lo n := by
  unfold Data.fld Data.regWrite
  split
  · rw [Data.reg_regSet_self]
    exact bits_congr fun i hi => accApply_off _ _ _ _ _ (he i hi)
  · rfl

/-- A field of type RW that is written whole takes the value written. -/
theorem Data.fld_regWrite_rw (d : Data) (a : Nat) (v en : Word) (lo n : Nat) {row : RegRow} (h : regRow a = some row)
    (hm : ∀ i < n, (accMask row (fun a => a == .rw || a == .rws || a == .wo)).getLsbD (lo + i) = true ∧
      (accMask row (· == .w1c)).getLsbD (lo + i) = false ∧ (accMask row (· == .w1s)).getLsbD (lo + i) = false ∧
      en.getLsbD (lo + i) = true) : (d.regWrite a v en).fld a lo n = bits v.toNat lo n := by
  unfold Data.fld
  rw [d.reg_regWrite_self v en h]
  exact bits_congr fun i hi => by
    obtain ⟨hr, hc, hs, he⟩ := hm i hi
    rw [accApply_rw _ _ _ _ _ hr hc hs, he, if_pos rfl]

/-! ## Controls triggered by a register write -/

/-- A write in whose cycle the hardware does nothing to the register. -/
theorem DM.writeReg_quiet (x : DM) (r : Requester) (a : Nat) (v en : Word) (m : BitVec 67) (he : en ≠ 0) (hq : x.d.quiet r a) :
    x.writeReg r a v en m = x.writeAlone r a v en m := by
  obtain ⟨hs, hl, hw⟩ := hq
  have hc (d : Data) : d.cntLoad x.d.cycNow a v en = d := by
    unfold Data.cntLoad
    split
    · rfl
    · rename_i row hr
      exact List.foldlRecOn row.flds _ (motive := (· = d)) rfl fun e h f hf => by simp only [hw row hr f hf]; exact h
  have hh (d : Data) : d.lateHold x.d.cycNow a v en = d := by unfold Data.lateHold; rw [hl]
  unfold DM.writeReg
  rw [if_neg he]
  have h0 : en &&& ~~~(0 : Word) = en := (congrArg (en &&& ·) BitVec.not_zero).trans BitVec.and_allOnes
  simp only [hs, hc, hh, h0]

theorem DM.trigger_up (x : DM) (a : Nat) (v en : Word) (m : BitVec 67 := 0) (h1 : x.d.domUp 1 = true) (h2 : x.m.up = true)
    (hb : x.d.blockReefed a = false) (hp : x.d.flushed a) (he : en ≠ 0) (hq : x.d.quiet 16 a) :
    x.trigger a v en m = x.writeAlone 16 a v en m := by
  have : (if regNear a then x else x.postedAll 16) = x := by
    split
    · rfl
    · rename_i hn
      rw [DM.postedAll, hp.resolve_left hn]; rfl
  rw [DM.trigger, DM.mgtUp, h1, h2, Bool.and_self, if_pos rfl, this, DM.writePart, hb, if_neg (by simp), writeReg_quiet _ _ _ _ _ _ he hq]

/-- A control whose register a write of the management cluster reaches. -/
theorem State.trigger_reaches {s : State} {a : Nat} (h : s.Reaches a) (v en : Word) (m : BitVec 67 := 0) (he : en ≠ 0) :
    s.begun.trigger a v en m = s.begun.writeAlone 16 a v en m := DM.trigger_up s.begun a v en m h.up.1 h.up.2 h.here h.first he h.quiet

/-- With the management cluster down nothing is written. -/
theorem DM.trigger_down (x : DM) (a : Nat) (v en : Word) (h : x.mgtUp = false) : x.trigger a v en = x := by
  simp [DM.trigger, h]

/-! ## Which block a register write reaches -/

namespace DM

variable (x : DM) (r : Requester) (a : Nat) (v en : Word) (m : BitVec 67)

theorem writeAlone_top (h : a < 0x10000) : x.writeAlone r a v en m = { x with d := writeTop (x.d.regWrite a v en) r a v en } := by
  have hs : ¬ a = Reg.pmcSmpCfg := by simp only [Reg.pmcSmpCfg] at *; omega
  unfold writeAlone
  dsimp only
  rw [if_neg (by omega), if_neg hs]
  rw [if_pos (by omega)]
theorem writeAlone_pwr (h : 0x10000 ≤ a ∧ a < 0x30000) : x.writeAlone r a v en m = ({ x with d := x.d.regWrite a v en } : DM).writePwr a v en := by
  have hs : ¬ a = Reg.pmcSmpCfg := by simp only [Reg.pmcSmpCfg] at *; omega
  unfold writeAlone
  dsimp only
  rw [if_neg (by omega), if_neg hs]
  repeat rw [if_neg (by omega)]
  rw [if_pos (by omega)]
theorem writeAlone_evt (h : 0x30000 ≤ a ∧ a < 0x60000 ∧ a ≠ Reg.pmcSmpCfg) : x.writeAlone r a v en m = { x with d := writeEvt (x.d.regWrite a v en) a v en } := by
  have hs : ¬ a = Reg.pmcSmpCfg := by simp only [Reg.pmcSmpCfg] at *; omega
  unfold writeAlone
  dsimp only
  rw [if_neg (by omega), if_neg hs]
  repeat rw [if_neg (by omega)]
  rw [if_pos (by omega)]
theorem writeAlone_mbx (h : 0x60000 ≤ a ∧ a < 0x70000) : x.writeAlone r a v en m = { x with d := writeMbx (x.d.regWrite a v en) r a v en } := by
  have hs : ¬ a = Reg.pmcSmpCfg := by simp only [Reg.pmcSmpCfg] at *; omega
  unfold writeAlone
  dsimp only
  rw [if_neg (by omega), if_neg hs]
  repeat rw [if_neg (by omega)]
  rw [if_pos (by omega)]
theorem writeAlone_mgt (h : 0x70000 ≤ a ∧ a < 0x90000) : x.writeAlone r a v en m = ({ x with d := x.d.regWrite a v en } : DM).writeMgt a v en := by
  have hs : ¬ a = Reg.pmcSmpCfg := by simp only [Reg.pmcSmpCfg] at *; omega
  unfold writeAlone
  dsimp only
  rw [if_neg (by omega), if_neg hs]
  repeat rw [if_neg (by omega)]
  rw [if_pos (by omega)]
theorem writeAlone_shd (h : 0x90000 ≤ a ∧ a < 0xA0000) : x.writeAlone r a v en m = { x with d := writeShd (x.d.regWrite a v en) a v en } := by
  have hs : ¬ a = Reg.pmcSmpCfg := by simp only [Reg.pmcSmpCfg] at *; omega
  unfold writeAlone
  dsimp only
  rw [if_neg (by omega), if_neg hs]
  repeat rw [if_neg (by omega)]
  rw [if_pos (by omega)]
theorem writeAlone_dur (h : 0xB0000 ≤ a ∧ a < 0xD0000) : x.writeAlone r a v en m = { x with d := writeDur (x.d.regWrite a v en) a x.d.budget } := by
  have hs : ¬ a = Reg.pmcSmpCfg := by simp only [Reg.pmcSmpCfg] at *; omega
  unfold writeAlone
  dsimp only
  rw [if_neg (by omega), if_neg hs]
  repeat rw [if_neg (by omega)]
  rw [if_pos (by omega)]
theorem writeAlone_rig (h : 0xD0000 ≤ a ∧ a < 0x100000) : x.writeAlone r a v en m = { x with d := writeRig ({ x with d := x.d.regWrite a v en } : DM) a v en } := by
  have hs : ¬ a = Reg.pmcSmpCfg := by simp only [Reg.pmcSmpCfg] at *; omega
  unfold writeAlone
  dsimp only
  rw [if_neg (by omega), if_neg hs]
  repeat rw [if_neg (by omega)]
  rw [if_pos (by omega)]
theorem writeAlone_slc (h : 0x100000 ≤ a ∧ a < 0x200000) : x.writeAlone r a v en m = { x with d := writeSlc (x.d.regWrite a v en) a v en } := by
  have hs : ¬ a = Reg.pmcSmpCfg := by simp only [Reg.pmcSmpCfg] at *; omega
  unfold writeAlone
  dsimp only
  rw [if_neg (by omega), if_neg hs]
  repeat rw [if_neg (by omega)]
  rw [if_pos (by omega)]
theorem writeAlone_apt (h : 0x200000 ≤ a ∧ a < 0x300000) : x.writeAlone r a v en m = { x with d := writeApt (x.d.regWrite a v en) a v en } := by
  have hs : ¬ a = Reg.pmcSmpCfg := by simp only [Reg.pmcSmpCfg] at *; omega
  unfold writeAlone
  dsimp only
  rw [if_neg (by omega), if_neg hs]
  repeat rw [if_neg (by omega)]
  rw [if_pos (by omega)]
theorem writeAlone_bkp (h : 0x300000 ≤ a ∧ a < 0x400000) : x.writeAlone r a v en m = { x with d := writeBkp (x.d.regWrite a v en) a v en } := by
  have hs : ¬ a = Reg.pmcSmpCfg := by simp only [Reg.pmcSmpCfg] at *; omega
  unfold writeAlone
  dsimp only
  rw [if_neg (by omega), if_neg hs]
  repeat rw [if_neg (by omega)]
  rw [if_pos (by omega)]
theorem writeAlone_sto (h : 0x400000 ≤ a ∧ a < 0x1000000) : x.writeAlone r a v en m = { x with d := writeSto (x.d.regWrite a v en) a v en } := by
  have hs : ¬ a = Reg.pmcSmpCfg := by simp only [Reg.pmcSmpCfg] at *; omega
  unfold writeAlone
  dsimp only
  rw [if_neg (by omega), if_neg hs]
  repeat rw [if_neg (by omega)]
theorem writeAlone_que (h : 0x1000000 ≤ a) : x.writeAlone r a v en m = { x with d := writeQue x.d a v en m } := by
  simp only [writeAlone, if_pos h]

end DM

/-! ## The number of the unit that an address names -/

theorem slc_index {n : SliceId} {a : Nat} (k : Nat) (h : a = 0x100000 + 0x10000 * n.val + k) (hk : k < 0x10000) :
    (Fin.ofNat 8 ((a - 0x100000) / 0x10000) : SliceId) = n := by
  apply Fin.ext; simp only [Fin.ofNat]; omega

theorem apt_index {p : Agent} {a : Nat} (k : Nat) (h : a = 0x200000 + 0x10000 * p.val + k) (hk : k < 0x10000) :
    (Fin.ofNat 16 ((a - 0x200000) / 0x10000) : Agent) = p := by
  apply Fin.ext; simp only [Fin.ofNat]; omega

theorem bkp_index {b : BkpId} {a : Nat} (k : Nat) (h : a = 0x300000 + 0x10000 * b.val + k) (hk : k < 0x10000) :
    (Fin.ofNat 4 ((a - 0x300000) / 0x10000) : BkpId) = b := by
  apply Fin.ext; simp only [Fin.ofNat]; omega

theorem mbx_index {m : Fin 8} {a : Nat} (k : Nat) (h : a = 0x60000 + 0x40 * m.val + k) (hk : k < 0x40) :
    (Fin.ofNat 8 ((a - 0x60000) / 0x40) : Fin 8) = m := by
  apply Fin.ext; simp only [Fin.ofNat]; omega

theorem que_index {q a : Nat} (k : Nat) (h : a = 0x1000000 + 0x40 * q + k) (hk : k < 0x40) : (a - 0x1000000) / 0x40 = q := by omega

/-! ## Blocks that are up -/

theorem Data.slc_open {d : Data} {n : SliceId} {a : Nat} (k : Nat) (h : a = 0x100000 + 0x10000 * n.val + k) (hk : k < 0x10000)
    (hd : d.domUp (Data.slcDom n) = true) : d.blockReefed a = false := by
  have : regDom a = some (Data.slcDom n) := by
    have hn := n.isLt
    unfold regDom
    repeat rw [if_neg (by omega)]
    rw [if_pos (by omega)]
    rw [show (a - 0x100000) / 0x10000 = n.val by omega]
    rfl
  unfold Data.blockReefed
  rw [this]
  simp [hd]
  omega

theorem Data.apt_open {d : Data} {p : Agent} {a : Nat} (k : Nat) (h : a = 0x200000 + 0x10000 * p.val + k) (hk : k < 0x10000)
    (hd : d.domUp (Data.aptDom p) = true) : d.blockReefed a = false := by
  have : regDom a = some (Data.aptDom p) := by
    have hn := p.isLt
    unfold regDom
    repeat rw [if_neg (by omega)]
    rw [if_pos (by omega)]
    rw [show (a - 0x200000) / 0x10000 = p.val by omega]
    rfl
  unfold Data.blockReefed
  rw [this]
  simp [hd]
  omega

theorem Data.bkp_open {d : Data} {b : BkpId} {a : Nat} (k : Nat) (h : a = 0x300000 + 0x10000 * b.val + k) (hk : k < 0x10000)
    (hd : d.domUp (Data.bkpDom b) = true) (hu : d.bkpUsed b = true) : d.blockReefed a = false := by
  have : regDom a = some (Data.bkpDom b) := by
    have hn := b.isLt
    unfold regDom
    repeat rw [if_neg (by omega)]
    rw [if_pos (by omega)]
    rw [show (a - 0x300000) / 0x20000 = b.val / 2 by omega]
    rfl
  unfold Data.blockReefed
  rw [this, bkp_index k h hk]
  simp [hd, hu]

theorem Data.que_open {d : Data} {q : Nat} {a : Nat} (k : Nat) (h : a = 0x1000000 + 0x40 * q + k) (hk : k < 0x40) (hq : q < 16384)
    (hd : d.domUp 2 = true) : d.blockReefed a = false := by
  have : regDom a = some 2 := by
    unfold regDom
    repeat rw [if_neg (by omega)]
    rw [if_pos (by omega)]
  unfold Data.blockReefed
  rw [this]
  simp [hd]
  omega

/-- A block that is no unit's own: its domain is up. -/
theorem Data.one_open {d : Data} {a : Nat} {i : Fin 30} (h : regDom a = some i) (ha : a < 0x300000 ∨ 0x340000 ≤ a)
    (hd : d.domUp i = true) : d.blockReefed a = false := by
  unfold Data.blockReefed
  rw [h]
  simp [hd]
  omega

end Sys2Proof.Machine
end

