-- ==== Sys2Proof/Laws/Ops.lean ====
section
/-!
SUPPORT. Laws of the shared operations: what each of them can change, said once, and what it does to that.
-/

namespace Sys2Proof.Machine

variable (d : Data)

/-! ## Events (R315): a raised event changes the latches alone -/

@[simp] theorem Data.ev_fuses (s : Nat) : (d.ev s).fuses = d.fuses := rfl
@[simp] theorem Data.ev_now (s : Nat) : (d.ev s).now = d.now := rfl
@[simp] theorem Data.ev_cyc (s : Nat) : (d.ev s).cyc = d.cyc := rfl
@[simp] theorem Data.ev_seq (s : Nat) : (d.ev s).seq = d.seq := rfl
@[simp] theorem Data.ev_free (s : Nat) : (d.ev s).free = d.free := rfl
@[simp] theorem Data.ev_regs (s : Nat) : (d.ev s).regs = d.regs := rfl
@[simp] theorem Data.ev_banks (s : Nat) : (d.ev s).banks = d.banks := rfl
@[simp] theorem Data.ev_mbx (s : Nat) : (d.ev s).mbx = d.mbx := rfl
@[simp] theorem Data.ev_links (s : Nat) : (d.ev s).links = d.links := rfl
@[simp] theorem Data.ev_ports (s : Nat) : (d.ev s).ports = d.ports := rfl
@[simp] theorem Data.ev_ilv (s : Nat) : (d.ev s).ilv = d.ilv := rfl
@[simp] theorem Data.ev_slices (s : Nat) : (d.ev s).slices = d.slices := rfl
@[simp] theorem Data.ev_store (s : Nat) : (d.ev s).store = d.store := rfl
@[simp] theorem Data.ev_bkps (s : Nat) : (d.ev s).bkps = d.bkps := rfl
@[simp] theorem Data.ev_dur (s : Nat) : (d.ev s).dur = d.dur := rfl
@[simp] theorem Data.ev_hlm (s : Nat) : (d.ev s).hlm = d.hlm := rfl
@[simp] theorem Data.ev_mnts (s : Nat) : (d.ev s).mnts = d.mnts := rfl
@[simp] theorem Data.ev_mntTurn (s : Nat) : (d.ev s).mntTurn = d.mntTurn := rfl
@[simp] theorem Data.ev_que (s : Nat) : (d.ev s).que = d.que := rfl
@[simp] theorem Data.ev_queOnce (s : Nat) : (d.ev s).queOnce = d.queOnce := rfl
@[simp] theorem Data.ev_pmc (s : Nat) : (d.ev s).pmc = d.pmc := rfl
@[simp] theorem Data.ev_rig (s : Nat) : (d.ev s).rig = d.rig := rfl
@[simp] theorem Data.ev_reload (s : Nat) : (d.ev s).reload = d.reload := rfl
@[simp] theorem Data.ev_prev (s : Nat) : (d.ev s).prev = d.prev := rfl
@[simp] theorem Data.ev_rigFallback (s : Nat) : (d.ev s).rigFallback = d.rigFallback := rfl
@[simp] theorem Data.ev_rigErr (s : Nat) : (d.ev s).rigErr = d.rigErr := rfl
@[simp] theorem Data.ev_rigErrSec (s : Nat) : (d.ev s).rigErrSec = d.rigErrSec := rfl
@[simp] theorem Data.ev_rigBusyGo (s : Nat) : (d.ev s).rigBusyGo = d.rigBusyGo := rfl
@[simp] theorem Data.ev_byp (s : Nat) : (d.ev s).byp = d.byp := rfl
@[simp] theorem Data.ev_bypAt (s : Nat) : (d.ev s).bypAt = d.bypAt := rfl
@[simp] theorem Data.ev_bypStale (s : Nat) : (d.ev s).bypStale = d.bypStale := rfl
@[simp] theorem Data.ev_touchDem (s : Nat) : (d.ev s).touchDem = d.touchDem := rfl
@[simp] theorem Data.ev_pwr (s : Nat) : (d.ev s).pwr = d.pwr := rfl
@[simp] theorem Data.ev_ptp (s : Nat) : (d.ev s).ptp = d.ptp := rfl
@[simp] theorem Data.ev_pair (s : Nat) : (d.ev s).pair = d.pair := rfl
@[simp] theorem Data.ev_svc (s : Nat) : (d.ev s).svc = d.svc := rfl

/-- The latch of the source is set, and no other changes. -/
theorem Data.ev_latch (s i : Nat) (hs : s < 1024) : (d.ev s).evt.latch.getLsbD i = (decide (i = s) || d.evt.latch.getLsbD i) := by
  simp only [Data.ev, Data.modEvt_evt, setBit, if_true, BitVec.getLsbD_or, BitVec.getLsbD_twoPow, hs, decide_true, Bool.true_and]
  rw [Bool.or_comm]; congr 1; exact decide_eq_decide.2 eq_comm

@[simp] theorem Data.evDur_eq (i : Nat) : d.evDur i = d.ev (32 + i) := rfl
@[simp] theorem Data.evSto_eq (i : Nat) : d.evSto i = d.ev (48 + i) := rfl
@[simp] theorem Data.evMgt_eq (i : Nat) : d.evMgt i = d.ev (64 + i) := rfl
@[simp] theorem Data.evQue_eq (i : Nat) : d.evQue i = d.ev (128 + i) := rfl
@[simp] theorem Data.evSlc_eq (n : SliceId) (i : Nat) : d.evSlc n i = d.ev (192 + 48 * n.val + i) := rfl
@[simp] theorem Data.evApt_eq (p : Agent) (i : Nat) : d.evApt p i = d.ev (576 + 24 * p.val + i) := rfl
@[simp] theorem Data.evBkp_eq (b : BkpId) (i : Nat) : d.evBkp b i = d.ev (960 + 8 * b.val + i) := rfl
@[simp] theorem Data.evShd_eq (i : Nat) : d.evShd i = d.ev (992 + i) := rfl
@[simp] theorem Data.evHlm_eq (i : Nat) : d.evHlm i = d.ev (1008 + i) := rfl

/-! ## What the hardware does in a cycle (R351): its record changes that record alone -/

theorem Data.modCyc_eq (f : Cyc → Cyc) : d.modCyc f = { d with cyc := f d.cycNow } := rfl
theorem Data.stamp_eq (a : Nat) (m : Word) : ∃ c, d.stamp a m = { d with cyc := c } := ⟨_, rfl⟩
theorem Data.keepWas_eq (a lo v : Nat) : ∃ c, d.keepWas a lo v = { d with cyc := c } := ⟨_, rfl⟩

/-! ## Counters (R322 to R326): a happening changes the counters, the record of the cycle, and the latch of EV0100 where one
overflows -/

theorem Data.ovfSet_frame (c : Nat) (b : Bool) : ∃ y e, d.ovfSet c b = { d with cyc := y, evt := e } := by
  unfold Data.ovfSet; split
  · exact ⟨_, _, rfl⟩
  · exact ⟨d.cyc, d.evt, rfl⟩

theorem Data.cntAdd_frame (c n : Nat) : ∃ p y e, d.cntAdd c n = { d with pmc := p, cyc := y, evt := e } := by
  unfold Data.cntAdd
  rcases tallyRaw d.pmc c n (d.cycNow.loads.contains c) with ⟨p, k, o⟩
  obtain ⟨y, e, h⟩ := ({ d with pmc := p } : Data).ovfSet_frame c o
  dsimp only
  rw [h]
  cases k
  · exact ⟨_, _, _, rfl⟩
  · rw [if_pos rfl]
    generalize ({ d with pmc := p, cyc := y, evt := e } : Data).cycNow.loads.contains (c + 1) = b
    rcases tallyRaw p (c + 1) 1 b with ⟨p', k', o'⟩
    obtain ⟨y', e', h'⟩ := ({ d with pmc := p', cyc := y, evt := e } : Data).ovfSet_frame (c + 1) o'
    exact ⟨_, _, _, h'⟩

/-- What `tally` can change. -/
theorem Data.tally_frame (c n : Nat) : ∃ p y e, d.tally c n = { d with pmc := p, cyc := y, evt := e } := by
  unfold Data.tally Data.tallySum
  split_ifs
  · exact ⟨d.pmc, d.cyc, d.evt, rfl⟩
  · exact ⟨_, _, _, rfl⟩
  · obtain ⟨p, y, e, h⟩ := (d.cntKeep c (min n 64)).cntAdd_frame c (min n 64)
    exact ⟨p, y, e, h⟩

@[simp] theorem Data.tally_fuses (c n : Nat) : (d.tally c n).fuses = d.fuses := by
  obtain ⟨p, y, e, h⟩ := d.tally_frame c n; rw [h]
@[simp] theorem Data.tally_now (c n : Nat) : (d.tally c n).now = d.now := by
  obtain ⟨p, y, e, h⟩ := d.tally_frame c n; rw [h]
@[simp] theorem Data.tally_seq (c n : Nat) : (d.tally c n).seq = d.seq := by
  obtain ⟨p, y, e, h⟩ := d.tally_frame c n; rw [h]
@[simp] theorem Data.tally_free (c n : Nat) : (d.tally c n).free = d.free := by
  obtain ⟨p, y, e, h⟩ := d.tally_frame c n; rw [h]
@[simp] theorem Data.tally_regs (c n : Nat) : (d.tally c n).regs = d.regs := by
  obtain ⟨p, y, e, h⟩ := d.tally_frame c n; rw [h]
@[simp] theorem Data.tally_banks (c n : Nat) : (d.tally c n).banks = d.banks := by
  obtain ⟨p, y, e, h⟩ := d.tally_frame c n; rw [h]
@[simp] theorem Data.tally_mbx (c n : Nat) : (d.tally c n).mbx = d.mbx := by
  obtain ⟨p, y, e, h⟩ := d.tally_frame c n; rw [h]
@[simp] theorem Data.tally_links (c n : Nat) : (d.tally c n).links = d.links := by
  obtain ⟨p, y, e, h⟩ := d.tally_frame c n; rw [h]
@[simp] theorem Data.tally_ports (c n : Nat) : (d.tally c n).ports = d.ports := by
  obtain ⟨p, y, e, h⟩ := d.tally_frame c n; rw [h]
@[simp] theorem Data.tally_ilv (c n : Nat) : (d.tally c n).ilv = d.ilv := by
  obtain ⟨p, y, e, h⟩ := d.tally_frame c n; rw [h]
@[simp] theorem Data.tally_slices (c n : Nat) : (d.tally c n).slices = d.slices := by
  obtain ⟨p, y, e, h⟩ := d.tally_frame c n; rw [h]
@[simp] theorem Data.tally_store (c n : Nat) : (d.tally c n).store = d.store := by
  obtain ⟨p, y, e, h⟩ := d.tally_frame c n; rw [h]
@[simp] theorem Data.tally_bkps (c n : Nat) : (d.tally c n).bkps = d.bkps := by
  obtain ⟨p, y, e, h⟩ := d.tally_frame c n; rw [h]
@[simp] theorem Data.tally_dur (c n : Nat) : (d.tally c n).dur = d.dur := by
  obtain ⟨p, y, e, h⟩ := d.tally_frame c n; rw [h]
@[simp] theorem Data.tally_hlm (c n : Nat) : (d.tally c n).hlm = d.hlm := by
  obtain ⟨p, y, e, h⟩ := d.tally_frame c n; rw [h]
@[simp] theorem Data.tally_mnts (c n : Nat) : (d.tally c n).mnts = d.mnts := by
  obtain ⟨p, y, e, h⟩ := d.tally_frame c n; rw [h]
@[simp] theorem Data.tally_mntTurn (c n : Nat) : (d.tally c n).mntTurn = d.mntTurn := by
  obtain ⟨p, y, e, h⟩ := d.tally_frame c n; rw [h]
@[simp] theorem Data.tally_que (c n : Nat) : (d.tally c n).que = d.que := by
  obtain ⟨p, y, e, h⟩ := d.tally_frame c n; rw [h]
@[simp] theorem Data.tally_queOnce (c n : Nat) : (d.tally c n).queOnce = d.queOnce := by
  obtain ⟨p, y, e, h⟩ := d.tally_frame c n; rw [h]
@[simp] theorem Data.tally_rig (c n : Nat) : (d.tally c n).rig = d.rig := by
  obtain ⟨p, y, e, h⟩ := d.tally_frame c n; rw [h]
@[simp] theorem Data.tally_reload (c n : Nat) : (d.tally c n).reload = d.reload := by
  obtain ⟨p, y, e, h⟩ := d.tally_frame c n; rw [h]
@[simp] theorem Data.tally_prev (c n : Nat) : (d.tally c n).prev = d.prev := by
  obtain ⟨p, y, e, h⟩ := d.tally_frame c n; rw [h]
@[simp] theorem Data.tally_rigFallback (c n : Nat) : (d.tally c n).rigFallback = d.rigFallback := by
  obtain ⟨p, y, e, h⟩ := d.tally_frame c n; rw [h]
@[simp] theorem Data.tally_rigErr (c n : Nat) : (d.tally c n).rigErr = d.rigErr := by
  obtain ⟨p, y, e, h⟩ := d.tally_frame c n; rw [h]
@[simp] theorem Data.tally_rigErrSec (c n : Nat) : (d.tally c n).rigErrSec = d.rigErrSec := by
  obtain ⟨p, y, e, h⟩ := d.tally_frame c n; rw [h]
@[simp] theorem Data.tally_rigBusyGo (c n : Nat) : (d.tally c n).rigBusyGo = d.rigBusyGo := by
  obtain ⟨p, y, e, h⟩ := d.tally_frame c n; rw [h]
@[simp] theorem Data.tally_byp (c n : Nat) : (d.tally c n).byp = d.byp := by
  obtain ⟨p, y, e, h⟩ := d.tally_frame c n; rw [h]
@[simp] theorem Data.tally_bypAt (c n : Nat) : (d.tally c n).bypAt = d.bypAt := by
  obtain ⟨p, y, e, h⟩ := d.tally_frame c n; rw [h]
@[simp] theorem Data.tally_bypStale (c n : Nat) : (d.tally c n).bypStale = d.bypStale := by
  obtain ⟨p, y, e, h⟩ := d.tally_frame c n; rw [h]
@[simp] theorem Data.tally_touchDem (c n : Nat) : (d.tally c n).touchDem = d.touchDem := by
  obtain ⟨p, y, e, h⟩ := d.tally_frame c n; rw [h]
@[simp] theorem Data.tally_pwr (c n : Nat) : (d.tally c n).pwr = d.pwr := by
  obtain ⟨p, y, e, h⟩ := d.tally_frame c n; rw [h]
@[simp] theorem Data.tally_ptp (c n : Nat) : (d.tally c n).ptp = d.ptp := by
  obtain ⟨p, y, e, h⟩ := d.tally_frame c n; rw [h]
@[simp] theorem Data.tally_pair (c n : Nat) : (d.tally c n).pair = d.pair := by
  obtain ⟨p, y, e, h⟩ := d.tally_frame c n; rw [h]
@[simp] theorem Data.tally_svc (c n : Nat) : (d.tally c n).svc = d.svc := by
  obtain ⟨p, y, e, h⟩ := d.tally_frame c n; rw [h]

@[simp] theorem Data.pmcSlc_eq (n : SliceId) (j k : Nat) : d.pmcSlc n j k = d.tally (64 + 40 * n.val + j) k := rfl
@[simp] theorem Data.pmcApt_eq (p : Agent) (j k : Nat) : d.pmcApt p j k = d.tally (384 + 6 * p.val + j) k := rfl
@[simp] theorem Data.pmcBkp_eq (b : BkpId) (j k : Nat) : d.pmcBkp b j k = d.tally (480 + 6 * b.val + j) k := rfl

/-! ## What a happening leaves in its counter (R325, R326) -/

/-- A bit that is set. -/
theorem setBit_true_get {w : Nat} (x : BitVec w) (i j : Nat) (h : i < w) :
    (setBit x i true).getLsbD j = (decide (j = i) || x.getLsbD j) := by
  simp only [setBit, if_true, BitVec.getLsbD_or, BitVec.getLsbD_twoPow]
  by_cases hj : j = i
  · subst hj; simp [h]
  · have : ¬ i = j := fun e => hj e.symm
    simp [hj, this]

/-- A happening that is counted: it is recorded for a load of the cycle, and the counter adds it, up to 64. -/
theorem Data.tally_counts (d : Data) (c n : Nat) (hu : d.domUp 2 = true) (hn : 0 < n)
    (ho : c % 2 = 1 → d.pmc.chain.getLsbD (c / 2) = false) :
    d.tally c n = (d.cntKeep c (min n 64)).cntAdd c (min n 64) := by
  unfold Data.tally Data.tallySum
  rw [if_neg, hu, if_neg (by simp)]
  rintro (h | ⟨h, h'⟩)
  · omega
  · rw [ho h] at h'; cases h'

/-- An addition that stays below 2^48. -/
theorem Data.cntAdd_fits (d : Data) (c n : Nat) (hv : SMap.get 0 d.pmc.cnt c + n < 2 ^ 48) :
    d.cntAdd c n = { d with pmc := { d.pmc with cnt := SMap.set 0 d.pmc.cnt c (SMap.get 0 d.pmc.cnt c + n) } } := by
  simp only [Data.cntAdd, tallyRaw, hv, true_or, if_true, Nat.mod_eq_of_lt hv]
  rfl

/-- An addition that wraps a counter of no chained pair, which no load of the cycle has set. -/
theorem Data.cntAdd_wraps (d : Data) (c n : Nat) (hl : d.cycNow.loads.contains c = false)
    (ho : d.pmc.chain.getLsbD (c / 2) = false) (hv : 2 ^ 48 ≤ SMap.get 0 d.pmc.cnt c + n) :
    d.cntAdd c n = ({ d with pmc := { d.pmc with
      cnt := SMap.set 0 d.pmc.cnt c ((SMap.get 0 d.pmc.cnt c + n) % 2 ^ 48), ovf := setBit d.pmc.ovf c true } } : Data).ovfSet c
        (!d.pmc.ovf.getLsbD c) := by
  simp only [Data.cntAdd, tallyRaw, Nat.not_lt.mpr hv, ho, hl, Bool.false_eq_true, or_self, if_false, Bool.and_false]

/-- An addition that wraps the even counter of a chained pair, neither loaded in the cycle: the odd one adds 1. -/
theorem Data.cntAdd_carries (d : Data) (c n : Nat) (hl : d.cycNow.loads.contains c = false) (he : c % 2 = 0)
    (ho : d.pmc.chain.getLsbD (c / 2) = true) (hv : 2 ^ 48 ≤ SMap.get 0 d.pmc.cnt c + n)
    (hk : SMap.get 0 d.pmc.cnt (c + 1) + 1 < 2 ^ 48) :
    d.cntAdd c n =
      let m := SMap.set 0 d.pmc.cnt c ((SMap.get 0 d.pmc.cnt c + n) % 2 ^ 48)
      { d with pmc := { d.pmc with cnt := SMap.set 0 m (c + 1) (SMap.get 0 d.pmc.cnt (c + 1) + 1) } } := by
  have h3 : c + 1 ≠ c := by omega
  simp only [Data.cntAdd, tallyRaw, Nat.not_lt.mpr hv, ho, he, hl, Bool.false_eq_true, or_false, if_false, decide_true, Bool.and_true,
    if_true, Data.ovfSet, SMap.get_set_other _ _ _ h3, hk, true_or, Nat.mod_eq_of_lt hk]

end Sys2Proof.Machine
end

