-- ==== Sys2Proof/Laws/Ports.lean ====
section
/-!
SUPPORT. Laws of the agent ports: what counting and sampling a request changes, and where an accepted request goes (R21, R25, R330).
-/

namespace Sys2Proof.Machine

namespace Data

variable (d : Data)

/-- A wake source changes domains alone. -/
theorem domWake1_frame (i : Fin 30) : ∃ p, d.domWake1 i = { d with pwr := p } := by
  unfold Data.domWake1
  split
  · exact ⟨d.pwr, rfl⟩
  · split
    · exact ⟨_, rfl⟩
    · exact ⟨_, rfl⟩
    · exact ⟨_, rfl⟩
    · exact ⟨d.pwr, rfl⟩

theorem domWake_frame (i : Fin 30) : ∃ p, d.domWake i = { d with pwr := p } := by
  unfold Data.domWake
  split
  · exact ⟨d.pwr, rfl⟩
  · split
    · rename_i j _
      obtain ⟨p, h⟩ := d.domWake1_frame j
      obtain ⟨q, h'⟩ := (d.domWake1 j).domWake1_frame i
      exact ⟨q, by rw [h', h]⟩
    · exact d.domWake1_frame i

/-! ## Counting and sampling a request: the counters, the latches and the port's LFSR may change -/

@[simp] theorem reqTag_fuses (p : Agent) (r : Req) : (d.reqTag p r).1.fuses = d.fuses := by
  unfold Data.reqTag; dsimp only; split_ifs <;> simp [apply_ite Data.fuses]
@[simp] theorem reqTag_now (p : Agent) (r : Req) : (d.reqTag p r).1.now = d.now := by
  unfold Data.reqTag; dsimp only; split_ifs <;> simp [apply_ite Data.now]
@[simp] theorem reqTag_seq (p : Agent) (r : Req) : (d.reqTag p r).1.seq = d.seq := by
  unfold Data.reqTag; dsimp only; split_ifs <;> simp [apply_ite Data.seq]
@[simp] theorem reqTag_free (p : Agent) (r : Req) : (d.reqTag p r).1.free = d.free := by
  unfold Data.reqTag; dsimp only; split_ifs <;> simp [apply_ite Data.free]
@[simp] theorem reqTag_regs (p : Agent) (r : Req) : (d.reqTag p r).1.regs = d.regs := by
  unfold Data.reqTag; dsimp only; split_ifs <;> simp [apply_ite Data.regs]
@[simp] theorem reqTag_banks (p : Agent) (r : Req) : (d.reqTag p r).1.banks = d.banks := by
  unfold Data.reqTag; dsimp only; split_ifs <;> simp [apply_ite Data.banks]
@[simp] theorem reqTag_mbx (p : Agent) (r : Req) : (d.reqTag p r).1.mbx = d.mbx := by
  unfold Data.reqTag; dsimp only; split_ifs <;> simp [apply_ite Data.mbx]
@[simp] theorem reqTag_links (p : Agent) (r : Req) : (d.reqTag p r).1.links = d.links := by
  unfold Data.reqTag; dsimp only; split_ifs <;> simp [apply_ite Data.links]
@[simp] theorem reqTag_ilv (p : Agent) (r : Req) : (d.reqTag p r).1.ilv = d.ilv := by
  unfold Data.reqTag; dsimp only; split_ifs <;> simp [apply_ite Data.ilv]
@[simp] theorem reqTag_slices (p : Agent) (r : Req) : (d.reqTag p r).1.slices = d.slices := by
  unfold Data.reqTag; dsimp only; split_ifs <;> simp [apply_ite Data.slices]
@[simp] theorem reqTag_store (p : Agent) (r : Req) : (d.reqTag p r).1.store = d.store := by
  unfold Data.reqTag; dsimp only; split_ifs <;> simp [apply_ite Data.store]
@[simp] theorem reqTag_bkps (p : Agent) (r : Req) : (d.reqTag p r).1.bkps = d.bkps := by
  unfold Data.reqTag; dsimp only; split_ifs <;> simp [apply_ite Data.bkps]
@[simp] theorem reqTag_dur (p : Agent) (r : Req) : (d.reqTag p r).1.dur = d.dur := by
  unfold Data.reqTag; dsimp only; split_ifs <;> simp [apply_ite Data.dur]
@[simp] theorem reqTag_hlm (p : Agent) (r : Req) : (d.reqTag p r).1.hlm = d.hlm := by
  unfold Data.reqTag; dsimp only; split_ifs <;> simp [apply_ite Data.hlm]
@[simp] theorem reqTag_mnts (p : Agent) (r : Req) : (d.reqTag p r).1.mnts = d.mnts := by
  unfold Data.reqTag; dsimp only; split_ifs <;> simp [apply_ite Data.mnts]
@[simp] theorem reqTag_mntTurn (p : Agent) (r : Req) : (d.reqTag p r).1.mntTurn = d.mntTurn := by
  unfold Data.reqTag; dsimp only; split_ifs <;> simp [apply_ite Data.mntTurn]
@[simp] theorem reqTag_que (p : Agent) (r : Req) : (d.reqTag p r).1.que = d.que := by
  unfold Data.reqTag; dsimp only; split_ifs <;> simp [apply_ite Data.que]
@[simp] theorem reqTag_queOnce (p : Agent) (r : Req) : (d.reqTag p r).1.queOnce = d.queOnce := by
  unfold Data.reqTag; dsimp only; split_ifs <;> simp [apply_ite Data.queOnce]
@[simp] theorem reqTag_rig (p : Agent) (r : Req) : (d.reqTag p r).1.rig = d.rig := by
  unfold Data.reqTag; dsimp only; split_ifs <;> simp [apply_ite Data.rig]
@[simp] theorem reqTag_reload (p : Agent) (r : Req) : (d.reqTag p r).1.reload = d.reload := by
  unfold Data.reqTag; dsimp only; split_ifs <;> simp [apply_ite Data.reload]
@[simp] theorem reqTag_prev (p : Agent) (r : Req) : (d.reqTag p r).1.prev = d.prev := by
  unfold Data.reqTag; dsimp only; split_ifs <;> simp [apply_ite Data.prev]
@[simp] theorem reqTag_rigFallback (p : Agent) (r : Req) : (d.reqTag p r).1.rigFallback = d.rigFallback := by
  unfold Data.reqTag; dsimp only; split_ifs <;> simp [apply_ite Data.rigFallback]
@[simp] theorem reqTag_rigErr (p : Agent) (r : Req) : (d.reqTag p r).1.rigErr = d.rigErr := by
  unfold Data.reqTag; dsimp only; split_ifs <;> simp [apply_ite Data.rigErr]
@[simp] theorem reqTag_rigErrSec (p : Agent) (r : Req) : (d.reqTag p r).1.rigErrSec = d.rigErrSec := by
  unfold Data.reqTag; dsimp only; split_ifs <;> simp [apply_ite Data.rigErrSec]
@[simp] theorem reqTag_rigBusyGo (p : Agent) (r : Req) : (d.reqTag p r).1.rigBusyGo = d.rigBusyGo := by
  unfold Data.reqTag; dsimp only; split_ifs <;> simp [apply_ite Data.rigBusyGo]
@[simp] theorem reqTag_byp (p : Agent) (r : Req) : (d.reqTag p r).1.byp = d.byp := by
  unfold Data.reqTag; dsimp only; split_ifs <;> simp [apply_ite Data.byp]
@[simp] theorem reqTag_bypAt (p : Agent) (r : Req) : (d.reqTag p r).1.bypAt = d.bypAt := by
  unfold Data.reqTag; dsimp only; split_ifs <;> simp [apply_ite Data.bypAt]
@[simp] theorem reqTag_bypStale (p : Agent) (r : Req) : (d.reqTag p r).1.bypStale = d.bypStale := by
  unfold Data.reqTag; dsimp only; split_ifs <;> simp [apply_ite Data.bypStale]
@[simp] theorem reqTag_touchDem (p : Agent) (r : Req) : (d.reqTag p r).1.touchDem = d.touchDem := by
  unfold Data.reqTag; dsimp only; split_ifs <;> simp [apply_ite Data.touchDem]
@[simp] theorem reqTag_pwr (p : Agent) (r : Req) : (d.reqTag p r).1.pwr = d.pwr := by
  unfold Data.reqTag; dsimp only; split_ifs <;> simp [apply_ite Data.pwr]
@[simp] theorem reqTag_ptp (p : Agent) (r : Req) : (d.reqTag p r).1.ptp = d.ptp := by
  unfold Data.reqTag; dsimp only; split_ifs <;> simp [apply_ite Data.ptp]
@[simp] theorem reqTag_pair (p : Agent) (r : Req) : (d.reqTag p r).1.pair = d.pair := by
  unfold Data.reqTag; dsimp only; split_ifs <;> simp [apply_ite Data.pair]
@[simp] theorem reqTag_svc (p : Agent) (r : Req) : (d.reqTag p r).1.svc = d.svc := by
  unfold Data.reqTag; dsimp only; split_ifs <;> simp [apply_ite Data.svc]

/-- The request gets its instant and its tag, and is otherwise as it came. -/
theorem reqTag_req (p : Agent) (r : Req) : ∃ t0 tag, (d.reqTag p r).2 = { r with t0 := t0, tagged := tag } := ⟨_, _, rfl⟩

/-- Of the ports, the LFSR of `p` alone may change. -/
theorem reqTag_ports (p : Agent) (r : Req) : ∃ x, (d.reqTag p r).1.ports = vmod d.ports p fun y => { y with lfsr := x } := by
  unfold Data.reqTag
  dsimp only
  split_ifs
  · exact ⟨lfsrNext d.ports[p].lfsr, by simp [apply_ite Data.ports]; rfl⟩
  · refine ⟨d.ports[p].lfsr, ?_⟩
    simp only [apply_ite Data.ports, Data.tally_ports, Data.pmcApt_eq, ite_self]
    unfold vmod
    exact (Vector.set_getElem_self p.isLt).symm

end Data

end Sys2Proof.Machine
end

