-- ==== Sys2Proof/Laws/Store.lean ====
section
/-!
SUPPORT. Every operation on the cache store keeps its list of codewords in the canonical form (R86, R258 to R274).
-/

namespace Sys2Proof.Machine

/-- The list of codewords is in its canonical form. -/
def Data.storeOk (d : Data) : Prop := SMap.wf 0 d.store.cw

/-- A fold of steps that keep the form keeps it. -/
theorem storeOk_foldl {α : Type} (f : Data → α → Data) (hf : ∀ d x, d.storeOk → (f d x).storeOk) (l : List α) :
    ∀ d : Data, d.storeOk → (l.foldl f d).storeOk := by
  induction l with
  | nil => exact fun _ h => h
  | cons x l ih => exact fun d h => ih _ (hf d x h)

theorem storeOk_congr {d e : Data} (he : e.store.cw = d.store.cw) (h : d.storeOk) : e.storeOk := by
  unfold Data.storeOk; rw [he]; exact h

variable {d : Data}

theorem storeOk_put (h : d.storeOk) (k : Nat) (c : BitVec 544) :
    (d.modStore fun s => { s with cw := SMap.set 0 s.cw k c }).storeOk := SMap.wf_set h _ _

@[simp] theorem stCount_store (who : Option SliceId) (c : Nat) : (d.stCount who c).store = d.store := by
  unfold Data.stCount; cases who <;> simp

@[simp] theorem stCount_regs (who : Option SliceId) (c : Nat) : (d.stCount who c).regs = d.regs := by
  unfold Data.stCount; cases who <;> simp

theorem stCapture_cw (k sym kind : Nat) : (d.stCapture k sym kind).store.cw = d.store.cw := by
  unfold Data.stCapture; dsimp only; split <;> rfl

theorem cwPut_storeOk (h : d.storeOk) (who : Option SliceId) (k : Nat) (c : BitVec 544) : (d.cwPut who k c).storeOk := by
  have h1 : (d.stCount who 25).storeOk := storeOk_congr (by simp) h
  unfold Data.cwPut; dsimp only
  split
  · exact storeOk_put h1 _ _
  · exact storeOk_put h1 _ _

theorem granPut_storeOk (h : d.storeOk) (who : Option SliceId) (k : Nat) (g : Gran) (p : Bool) : (d.granPut who k g p).storeOk :=
  cwPut_storeOk h who k _

theorem rowCall_storeOk (h : d.storeOk) (pc row : Nat) : (d.rowCall pc row).storeOk := h

theorem rowError_storeOk (h : d.storeOk) (pc row : Nat) : (d.rowError pc row).storeOk := by
  unfold Data.rowError
  dsimp only
  split <;> split <;> exact h

theorem fldCnt_store (a lo n k : Nat) : (d.fldCnt a lo n k).store = d.store := rfl

theorem cwRead_storeOk (h : d.storeOk) (who : Option SliceId) (k : Nat) : (d.cwRead who k).1.storeOk := by
  have h1 : (d.stCount who 24).storeOk := storeOk_congr (by simp) h
  unfold Data.cwRead; dsimp only
  split
  · exact h1
  · split
    · exact h1
    · exact h1
    · refine rowError_storeOk ?_ _ _
      refine storeOk_congr (stCapture_cw ..) ?_
      rename_i g j _
      refine storeOk_congr ?_ (cwPut_storeOk h1 who k (cwMake g false))
      rw [Data.evSto_eq, Data.ev_store, Data.tally_store, fldCnt_store]
    · exact storeOk_foldl _ (fun d r hd => rowCall_storeOk hd _ r) _ _ h1

theorem rowCopy_storeOk (h : d.storeOk) (pc row : Nat) : (d.rowCopy pc row).storeOk := by
  refine storeOk_foldl _ (fun d k hd => ?_) _ d h
  dsimp only
  split
  · exact cwRead_storeOk hd _ _
  · exact cwPut_storeOk (cwRead_storeOk hd _ _) _ _ _

theorem spareTake_storeOk (h : d.storeOk) (pc row : Nat) : (d.spareTake pc row).storeOk := by
  unfold Data.spareTake
  dsimp only
  split_ifs <;> exact h

theorem rowRetire_storeOk (h : d.storeOk) (pc row : Nat) : (d.rowRetire pc row).storeOk := by
  refine storeOk_foldl _ (fun d i hd => ?_) _ d h
  dsimp only
  split <;> exact hd

theorem rowSwitch_storeOk (h : d.storeOk) (pc row : Nat) : (d.rowSwitch pc row).storeOk := by
  unfold Data.rowSwitch
  dsimp only
  split
  · have h1 := spareTake_storeOk h pc row
    generalize d.spareTake pc row = e at h1 ⊢
    have h2 : (if e.spares pc = 2048 then (e.modStore fun s => { s with exhausted := true }).evSto 4 else e).storeOk := by
      split <;> exact h1
    generalize (if e.spares pc = 2048 then (e.modStore fun s => { s with exhausted := true }).evSto 4 else e) = f at h2 ⊢
    split
    · exact rowRetire_storeOk h2 pc row
    · have h3 : (((f.rowCopy pc row).evSto 3).tally 30).storeOk :=
        storeOk_congr (by rw [Data.tally_store, Data.evSto_eq, Data.ev_store]) (rowCopy_storeOk h2 pc row)
      exact h3
  · exact rowRetire_storeOk h pc row

theorem stOutside_storeOk (h : d.storeOk) (who : Option SliceId) (k : Nat) (c : BitVec 544) : (d.stOutside who k c).storeOk :=
  storeOk_congr (stCapture_cw ..) (storeOk_congr rfl (cwPut_storeOk h who k c))

theorem stPoisoned_storeOk (h : d.storeOk) (who : Option SliceId) (k : Nat) (g : Gran) : (d.stPoisoned who k g).storeOk :=
  storeOk_congr (stCapture_cw ..) (storeOk_congr (by rw [Data.evSto_eq, Data.ev_store, Data.tally_store]; rfl) (granPut_storeOk h who k g true))

theorem stageWrite_storeOk (h : d.storeOk) (l : List Byte) : (d.stageWrite l).storeOk :=
  storeOk_foldl _ (fun _ _ hd => granPut_storeOk hd _ _ _ _) _ d h

theorem flipDone_store : d.flipDone.store = d.store := rfl

theorem zeroFirst_storeOk (h : d.storeOk) (k : Nat) : (d.zeroFirst k).storeOk := by
  unfold Data.zeroFirst
  by_cases hb : d.flipArmed (k / pcCw) = true
  · rw [if_pos hb]; exact storeOk_congr (congrArg Store.cw flipDone_store) (storeOk_put h _ _)
  · rw [if_neg hb]; exact h

theorem cwFilter_storeOk (h : d.storeOk) (p : Nat × BitVec 544 → Bool) :
    (d.modStore fun s => { s with cw := s.cw.filter p }).storeOk := SMap.wf_filter h _

theorem touchClear_storeOk (h : d.storeOk) (r : Nat) : (d.touchClear r).storeOk := by
  unfold Data.touchClear
  exact zeroFirst_storeOk (cwFilter_storeOk h _) _

theorem touchRead_storeOk (h : d.storeOk) (n : SliceId) (bit : Nat) : (d.touchRead n bit).1.storeOk := by
  have h1 := cwRead_storeOk h (some n) (areaKey .touch (bit / 512))
  unfold Data.touchRead
  dsimp only
  split
  · exact storeOk_congr (stCapture_cw ..) (storeOk_congr rfl (cwPut_storeOk h1 _ _ _))
  · exact h1

theorem touchSet_storeOk (h : d.storeOk) (n : SliceId) (ga : Nat) : (d.touchSet n ga).storeOk := by
  unfold Data.touchSet
  dsimp only
  split
  · split
    · exact touchRead_storeOk h _ _
    · exact granPut_storeOk (touchRead_storeOk h _ _) _ _ _ _
  · exact h

/-- Exchanging the tables of a switch keeps the form, and so does a step that runs under the table before it. -/
theorem swapOld_storeOk (h : d.storeOk) : d.swapOld.storeOk := by
  unfold Data.swapOld
  split
  · exact h
  · exact List.foldlRecOn _ _ (motive := fun m : SMap (BitVec 544) => SMap.wf 0 m) (SMap.wf_filter h _)
      fun m hm x _ => SMap.wf_set hm _ _

theorem asOld_storeOk (h : d.storeOk) (b : Bool) (f : Data → Data) (hf : ∀ e : Data, e.storeOk → (f e).storeOk) :
    (d.asOld b f).storeOk := by
  unfold Data.asOld
  split
  · exact swapOld_storeOk (hf _ (swapOld_storeOk h))
  · exact hf _ h

theorem sliceStoreClear_storeOk (h : d.storeOk) (n : SliceId) : (d.sliceStoreClear n).storeOk := SMap.wf_filter h _

theorem mirrorDiscard_storeOk (h : d.storeOk) : d.mirrorDiscard.storeOk :=
  SMap.wf_filter (d := (0 : BitVec 544)) h _

/-- A cold reset, and so a warm one, leaves the store empty. -/
theorem coldReset_storeOk (d : Data) : d.coldReset.storeOk := SMap.wf_nil _

end Sys2Proof.Machine
end

