-- ==== Sys2Proof/Machine/Package.lean ====
section
/-!
DEFINITION. The package (R424 to R428): names of balls, the ball of each signal, the rail of a ball, and the levels of the output
pins (R320, R427, R445).
-/

namespace Sys2Proof.Machine

/-- A ball: the index of its row and its column, from 1 to 58 (R424). -/
structure Ball where
  row : Nat
  col : Nat
deriving DecidableEq, Repr

/-- The single letters that row names use, in order. -/
def rowLetters : List String :=
  ["A", "B", "C", "D", "E", "F", "G", "H", "J", "K", "L", "M", "N", "P", "T", "U", "V", "W", "Y"]

/-- The name of a row. -/
def rowName (i : Nat) : String :=
  let letter := fun (k : Nat) => rowLetters.getD (k - 1) ""
  if i ≤ 19 then letter i else if i ≤ 38 then "A" ++ letter (i - 19) else if i ≤ 57 then "B" ++ letter (i - 38) else "CA"

def Ball.name (b : Ball) : String := rowName b.row ++ toString b.col

/-! ## SerDes lanes (R426): `tx` and `neg` choose among the four balls of a lane -/

def aptBall (port lane : Nat) (tx neg : Bool) : Ball :=
  let row := if port < 4 then (if tx then 6 else 2) else if port < 8 then (if tx then 8 else 4)
    else if port < 12 then (if tx then 53 else 57) else (if tx then 51 else 55)
  ⟨row, 6 + 3 * (4 * (port % 4) + lane) + b2n neg⟩

def bkpBall (port lane : Nat) (tx neg : Bool) : Ball := ⟨10 + 10 * port + lane, (if tx then 5 else 2) + b2n neg⟩
def shdBall (lane : Nat) (tx neg : Bool) : Ball := ⟨(if lane ≤ 7 then 10 else 12) + lane, (if tx then 54 else 57) - b2n neg⟩
def mgtBall (tx neg : Bool) : Ball := ⟨30, (if tx then 54 else 57) - b2n neg⟩

/-! ## Low-speed signals (R427) -/

/-- The I/O classes (R431). -/
inductive IoClass where
  | hcsl | lvds | xtal | cmos18 | openDrain | supply
deriving DecidableEq, Repr

/-- A pull of 50 kΩ, or the termination of an LVDS receiver. -/
inductive Pull where
  | none | up | down | ohm100
deriving DecidableEq, Repr

/-- A row of R427: name, balls, whether the device can drive it, class, pull. -/
structure Signal where
  name : String
  balls : List Ball
  drives : Bool
  cls : IoClass
  pull : Pull := .none
deriving DecidableEq, Repr

/-- Balls of a row, columns `hi` down to `lo`. -/
def ballRun (row hi lo : Nat) : List Ball := (List.range (hi + 1 - lo)).map fun i => ⟨row, hi - i⟩

def signalsClock : List Signal :=
  [⟨"REFCLK_A0", ballRun 32 57 56, false, .hcsl, .none⟩, ⟨"REFCLK_A1", ballRun 32 54 53, false, .hcsl, .none⟩,
   ⟨"REFCLK_B", ballRun 34 57 56, false, .hcsl, .none⟩, ⟨"REFCLK_S", ballRun 34 54 53, false, .hcsl, .none⟩,
   ⟨"CHU_RX", ballRun 36 57 56, false, .lvds, .ohm100⟩, ⟨"CHU_TX", ballRun 36 54 53, true, .lvds, .none⟩,
   ⟨"CHD_RX", ballRun 38 57 56, false, .lvds, .ohm100⟩, ⟨"CHD_TX", ballRun 38 54 53, true, .lvds, .none⟩,
   ⟨"XTAL25", ballRun 40 57 56, true, .xtal, .none⟩, ⟨"XTAL32", ballRun 40 54 53, true, .xtal, .none⟩]

def signalsControl : List Signal :=
  [⟨"PWRGD", [⟨42, 58⟩], false, .cmos18, .down⟩, ⟨"RESET_N", [⟨42, 57⟩], false, .cmos18, .up⟩, ⟨"PFW_N", [⟨42, 56⟩], false, .cmos18, .none⟩,
   ⟨"PFD", [⟨42, 55⟩], true, .cmos18, .none⟩, ⟨"ALERT_N", [⟨42, 54⟩], true, .openDrain, .none⟩,
   ⟨"THERMTRIP_N", [⟨42, 53⟩], true, .openDrain, .none⟩, ⟨"MGT_MODE", [⟨44, 58⟩], false, .cmos18, .none⟩,
   ⟨"CHAIN_HEAD", [⟨44, 57⟩], false, .cmos18, .none⟩, ⟨"SCAN_EN", [⟨44, 56⟩], false, .cmos18, .none⟩,
   ⟨"TMODE", [⟨44, 55⟩], false, .cmos18, .down⟩, ⟨"TCK", [⟨44, 54⟩], false, .cmos18, .down⟩, ⟨"TMS", [⟨44, 53⟩], false, .cmos18, .up⟩,
   ⟨"TDI", [⟨44, 52⟩], false, .cmos18, .up⟩, ⟨"TDO", [⟨44, 51⟩], true, .cmos18, .none⟩, ⟨"TRST_N", [⟨46, 58⟩], false, .cmos18, .down⟩]

def signalsFlash : List Signal :=
  [⟨"XSPI_CK", [⟨46, 57⟩], true, .cmos18, .none⟩, ⟨"XSPI_CS_N", [⟨46, 56⟩], true, .cmos18, .up⟩,
   ⟨"XSPI_RESET_N", [⟨46, 55⟩], true, .cmos18, .none⟩, ⟨"XSPI_DQS", [⟨46, 54⟩], false, .cmos18, .down⟩,
   ⟨"XSPI_DQ", ballRun 46 53 51 ++ ballRun 48 58 54, true, .cmos18, .up⟩]

def signalsSupply : List Signal :=
  [⟨"VDDIO", ballRun 48 53 51 ++ ballRun 49 58 54, false, .supply, .none⟩, ⟨"VDD_AON", ballRun 50 58 55, false, .supply, .none⟩,
   ⟨"VDDIO_AON", ballRun 50 54 51, false, .supply, .none⟩]

def signals : List Signal := signalsClock ++ signalsControl ++ signalsFlash ++ signalsSupply

/-! ## Supplies of the centre (R425, R428) -/

/-- The rail of a ball of the centre region. -/
def centreRail (b : Ball) : String :=
  let r := b.row
  let c := b.col
  let edge := fun (lo hi : Nat) => r == lo || r == lo + 1 || r == hi - 1 || r == hi || c == lo || c == lo + 1 || c == hi - 1 || c == hi
  if (r + c) % 2 = 1 then "VSS"
  else if edge 9 50 then "VDDA"
  else if edge 11 48 then "VDDH"
  else if 13 ≤ r ∧ r ≤ 14 ∧ 30 ≤ c ∧ c ≤ 37 then "VPP_M"
  else if 13 ≤ r ∧ r ≤ 14 ∧ 38 ≤ c then "VDDQL_M"
  else if 15 ≤ r ∧ r ≤ 22 ∧ 30 ≤ c then "VDDQ_M"
  else if 23 ≤ r ∧ r ≤ 29 ∧ 30 ≤ c then "VDD_M"
  else if 30 ≤ r ∧ r ≤ 35 then "VDDS"
  else "VDD"

/-! ## Output pins -/

/-- What a pin shows: driven high or low, or not driven. -/
inductive Level where
  | high | low | open_
deriving DecidableEq, Repr

/-- Pins that the device drives of itself. -/
inductive OutPin where
  | pfd | alertN | thermtripN | tdo
deriving DecidableEq, Repr

/-- The level of an output pin: PFD is push-pull, ALERT_N and THERMTRIP_N are open-drain, TDO is tri-state. -/
def pinLevel (s : State) : OutPin → Level
  | .pfd => if s.d.pwr.pfd then .high else .low
  | .alertN => if s.d.alert then .low else .open_
  | .thermtripN => if s.d.pwr.thermtrip then .low else .open_
  | .tdo => match s.tap.tdo with | some true => .high | some false => .low | none => .open_

end Sys2Proof.Machine
end

