-- ==== Sys2Proof/WellFormed.lean ====
section
/-!
DEFINITION. Which commands are well formed: an index that its table has, a lane that its link has, a message or a frame of the
type of its row.
-/

namespace Sys2Proof

/-- A power domain that the device has (R406). -/
def domOk (i : BitVec 5) : Bool := decide (i.toNat < 30)

/-- A lane that the link has: four of an agent port, sixteen of the shroud link (R177, R379). -/
def laneIn (l : LinkId) (lane : Fin 16) : Bool := decide (l.val = 16 ∨ lane.val < 4)

/-- A width that the requester has: an agent's accesses are of 32 or 64 bits (R335). -/
def widthOk (r : Requester) : AccWidth → Bool
  | .w8 | .w16 => decide (r.val = 16)
  | .w32 | .w64 => true

/-- A TMP message of a TYPE (R357): its fourth byte. -/
def msgIs (ty : Byte) (msg : List Byte) : Bool := msg.getD 3 0 == ty

/-- SCOPE of a RESTART message names the management cluster (R359): the first byte of the payload. -/
def scopeMgt (msg : List Byte) : Bool := decide (0 < (msg.getD 24 0).toNat + 256 * (msg.getD 25 0).toNat) && msg.getD 32 0 == 1

/-- A frame of a TYPE (R363): its third byte. -/
def frameIs (ty : Byte) (f : List Byte) : Bool := f.getD 2 0 == ty

/-- The command is well formed. -/
def Instr.wf : Instr → Bool
  | .rdSh _ _ => true
  | .rdOwn _ _ => true
  | .upgrade _ _ => true
  | .wr _ _ _ _ _ _ => true
  | .evict _ _ => true
  | .wb _ _ _ _ => true
  | .passAdmission _ _ => true
  | .waitListReadmission _ => true
  | .retryReentry _ _ => true
  | .rspI _ _ => true
  | .rspIFwd _ _ => true
  | .rspSFwd _ _ => true
  | .rspOFwd _ _ => true
  | .rspIWb _ _ => true
  | .rspRecall _ _ => true
  | .rspCnS _ _ => true
  | .rspCnX _ _ => true
  | .rspCnO _ _ => true
  | .datS _ _ _ _ _ => true
  | .datE _ _ _ _ _ => true
  | .datM _ _ _ _ _ => true
  | .datSnpC _ _ _ _ => true
  | .datSnpD _ _ _ _ => true
  | .fill _ _ _ _ _ _ => true
  | .storeReadReturn _ => true
  | .binv _ => true
  | .directoryFetchReturn _ => true
  | .spillBackstopWrite _ => true
  | .holdExpiry _ => true
  | .snoopAnswerTimeout _ _ => true
  | .owedAnswerTimeout _ _ _ => true
  | .backingReadTimeout _ side i => !side || decide (i.toNat < 32)
  | .backingWriteTimeout _ i => decide (i.toNat < 48)
  | .storeDirectoryTimeout _ => true
  | .retryWaitTimeout _ => true
  | .budgetWaitTimeout _ => true
  | .backingWriteAck _ i => decide (i.toNat ≤ 51)
  | .wbEntrySend _ => true
  | .combineExpiry _ i => decide (i.toNat < 48)
  | .prefetch _ => true
  | .prefetchData _ _ _ _ _ _ => true
  | .sideBufferAgeOut _ _ => true
  | .viralIndication _ => true
  | .backingLinkLost _ => true
  | .dirtyMapEpoch => true
  | .earlyCleaningStep _ => true
  | .durBudget _ => true
  | .powerFailWarning => true
  | .recallDeadline => true
  | .drainStep _ => true
  | .drainDeadline => true
  | .gpfPhase1Response _ _ => true
  | .gpfPhase2Response _ _ => true
  | .persistDeadline => true
  | .setShutdownStateComplete _ => true
  | .journalDeadline => true
  | .doneRestart _ => true
  | .journalFlushTimeout _ => true
  | .sealItem => true
  | .sealDurabilityStep _ => true
  | .sealHashComplete _ => true
  | .clean => true
  | .inv => true
  | .clinv => true
  | .retire => true
  | .unretire => true
  | .maintenanceStep _ => true
  | .planishStep _ => true
  | .scrubRead _ _ => true
  | .scrubPeriodEnd => true
  | .arm _ => true
  | .qPush _ _ _ _ _ _ => true
  | .qPop _ _ _ _ => true
  | .quePushHi _ _ => true
  | .quePopLo _ _ => true
  | .flush _ => true
  | .queueStaleTimeout _ => true
  | .gapMarker _ => true
  | .regRd _ _ _ _ => true
  | .regWr _ _ _ _ _ _ => true
  | .registerWrite r _ width _ _ => widthOk r width
  | .rcFieldRead _ _ _ => true
  | .postedWriteEffect _ => true
  | .farAccessTimeout _ => true
  | .mbxSel _ _ _ => true
  | .mbxFillComplete _ => true
  | .mbxAck _ _ => true
  | .mbxDataRead _ _ _ => true
  | .go => true
  | .reloadSwitch => true
  | .reloadTimeout => true
  | .rld _ => true
  | .reloadPartnerTimeout => true
  | .slcDisGo _ => true
  | .slcEnGo _ => true
  | .cbypDisGo _ => true
  | .cbypEnGo _ => true
  | .eventTick => true
  | .eventQueuePush => true
  | .evtForce _ => true
  | .snap => true
  | .snapshotPeriodExpiry => true
  | .snapshot => true
  | .clrAll => true
  | .pmcWvalHi _ => true
  | .pmcSmpSeed _ => true
  | .aptSwev _ _ => true
  | .dis _ => true
  | .retrain _ => true
  | .drain _ => true
  | .returnSlc _ => true
  | .artsGo _ => true
  | .assay _ => true
  | .assayComplete _ => true
  | .bkpReturn _ => true
  | .bkpReturnComplete _ _ => true
  | .bkpFail _ => true
  | .handover => true
  | .handback => true
  | .halCtlEnum => true
  | .unreef _ => true
  | .reef _ => true
  | .reset _ => true
  | .kick => true
  | .powerGood _ => true
  | .strapSample _ _ _ _ => true
  | .rdy => true
  | .pwrgdLow => true
  | .resetN => true
  | .warmResetEffect _ => true
  | .domainIdleReef dom => domOk dom
  | .domainWake dom => domOk dom
  | .domainWakeComplete dom => domOk dom
  | .domainWakeTimeout dom => domOk dom
  | .pllLockFailure dom => domOk dom
  | .refclkFailure _ => true
  | .crystalFailure => true
  | .watchdogExpiry => true
  | .d1WakeTimer => true
  | .stackTemperature _ => true
  | .thermtrip => true
  | .receiverDetected _ => true
  | .detectTimeout _ => true
  | .sts1 l lane _ => laneIn l lane
  | .sts2 l lane _ => laneIn l lane
  | .sdm l lane _ => laneIn l lane
  | .trainTimeout _ => true
  | .cfgTimeout _ => true
  | .equalisationComplete _ => true
  | .equalisationFailure _ => true
  | .initTimeout _ => true
  | .payload _ _ => true
  | .nop _ _ => true
  | .badFlit _ _ => true
  | .nakResendTimeout _ => true
  | .replayTimeout _ => true
  | .laneLockLost _ => true
  | .recoverComplete _ _ => true
  | .recoverTimeout _ => true
  | .l1Req _ => true
  | .l1Ack _ => true
  | .l1Nak _ => true
  | .l1AnswerTimeout _ => true
  | .l1idleExpiry _ => true
  | .electricalIdleExit _ => true
  | .wakeComplete _ => true
  | .wakeTimeout _ => true
  | .creditWait _ _ => true
  | .creditWaitIsolation _ _ => true
  | .shroudHello _ _ _ _ => true
  | .hb _ _ _ _ _ => true
  | .heartbeatMissed => true
  | .censusLimitExpiry => true
  | .censusCloseWalkStep _ => true
  | .failoverResume => true
  | .salvageStep _ => true
  | .sliceFaultResume _ => true
  | .witnessWrite => true
  | .witnessWriteTimeout => true
  | .witnessReadComplete _ _ _ _ => true
  | .joinwExpiry => true
  | .shroudRetry => true
  | .mwr _ _ _ => true
  | .mclr _ => true
  | .swr _ _ _ _ _ _ _ => true
  | .sclr _ _ => true
  | .mrd _ _ => true
  | .mdat _ _ _ _ _ => true
  | .mfull _ => true
  | .mirrorReadTimeout _ => true
  | .mirrorDrainStep _ => true
  | .mirrorResyncStep _ => true
  | .dxf _ => true
  | .dxfEnd _ => true
  | .hello _ msg => msgIs 0x01 msg
  | .tmpRegRd _ msg => msgIs 0x02 msg
  | .tmpRegWr _ msg => msgIs 0x03 msg
  | .mbxRd _ msg => msgIs 0x04 msg
  | .qSub _ msg => msgIs 0x05 msg
  | .tmpQPush _ msg => msgIs 0x06 msg
  | .evtSub _ msg => msgIs 0x07 msg
  | .evtSubLapse _ => true
  | .logRd _ msg => msgIs 0x08 msg
  | .time _ msg => msgIs 0x09 msg
  | .tmpSnap _ msg => msgIs 0x0A msg
  | .updStart _ msg => msgIs 0x10 msg
  | .updData _ msg => msgIs 0x11 msg
  | .updEnd _ msg => msgIs 0x12 msg
  | .updActivate _ msg => msgIs 0x13 msg
  | .updConfirm _ msg => msgIs 0x14 msg
  | .updAbort _ msg => msgIs 0x15 msg
  | .updStat _ msg => msgIs 0x16 msg
  | .rigWrite _ msg => msgIs 0x18 msg
  | .rigErase _ msg => msgIs 0x19 msg
  | .setRd _ msg => msgIs 0x1A msg
  | .setWr _ msg => msgIs 0x1B msg
  | .restartDevice _ msg => msgIs 0x1F msg && !scopeMgt msg
  | .restartManagementCluster _ msg => msgIs 0x1F msg && scopeMgt msg
  | .relayExpiry _ => true
  | .chainPortUp _ => true
  | .chainPortDown _ => true
  | .enum _ f => frameIs 1 f
  | .enumDone _ f => frameIs 2 f
  | .tmpFrame _ f => frameIs 3 f
  | .imgOffer _ f => frameIs 4 f
  | .imgReq _ f => frameIs 5 f
  | .imgData _ f => frameIs 6 f
  | .imgRsp _ f => frameIs 7 f
  | .imgReqResendTimeout _ => true
  | .crucibleLockTimeout => true
  | .sync _ _ => true
  | .syncTimeout => true
  | .trialRecordTimer => true
  | .autoConfirmExpiry => true
  | .ethernetLinkUp => true
  | .ethernetLinkDown => true
  | .heartbeatSend => true
  | .waitWitnessRead => true
  | .domainReefComplete dom => domOk dom
  | .flashBlockErased => true
  | .tck _ _ _ => true
  | .trstN => true
  | .frameBufferCredit _ => true

end Sys2Proof
end

