-- ==== Sys2Proof/Tests/Slice0.lean ====
section
/-!
SUPPORT. Tests: ill-formed commands that the check refuses, the spec's worked examples, single steps, and for each statement with
hypotheses a state and operands that meet them.
-/

namespace Sys2Proof.Machine

set_option Elab.async false

/-! ## The well-formedness check refuses -/

theorem test_wf_width : (Instr.registerWrite 3 0 .w16 0 0).wf = false := by decide
theorem test_wf_side : (Instr.backingReadTimeout 0 true 32).wf = false := by decide
theorem test_wf_wbuf : (Instr.backingWriteTimeout 0 48).wf = false := by decide
theorem test_wf_combine : (Instr.combineExpiry 0 48).wf = false := by decide
theorem test_wf_ack : (Instr.backingWriteAck 0 52).wf = false := by decide
theorem test_wf_domain : (Instr.domainWake 30).wf = false := by decide
theorem test_wf_lane : (Instr.sts1 0 4 0).wf = false := by decide
theorem test_wf_message : (Instr.hello (.host 0 0) [0, 0, 0, 2]).wf = false := by decide
theorem test_wf_restart : (Instr.restartManagementCluster (.host 0 0) [0, 0, 0, 0x1F]).wf = false := by decide
theorem test_wf_frame : (Instr.enum false [0xFF, 0, 2]).wf = false := by decide
theorem test_wf_good : (Instr.sts1 16 15 0).wf = true := by decide

/-! ## The spec's worked examples -/

/-- R38: the check value of the CRC-32. -/
theorem test_crc32 : crc32 [0x31, 0x32, 0x33, 0x34, 0x35, 0x36, 0x37, 0x38, 0x39] = 0xCBF43926 := by decide +kernel

/-- R22, R70: the address 0x29_0880_19C0. -/
theorem test_address : lineOf (0x29088019C0 / 64) = 0x05211003 ∧ setOf 0x05211003 = 0x2200 ∧ tagOf 0x05211003 = 0x0A43 ∧
    lineAt 0x0A43 0x2200 = 0x05211003 := by decide

/-- R259: the check bytes of a granule that is zero but for byte 63, plain and poisoned; a flip of byte 60 is corrected. -/
theorem test_codeword :
    (cwMake (BitVec.ofNat 512 (2 ^ 504)) false).extractLsb' 512 32 = 0x4078360F ∧
    (cwMake (BitVec.ofNat 512 (2 ^ 504)) true).extractLsb' 512 32 = 0xBF87C9F0 ∧
    (match cwDecode (cwMake (BitVec.ofNat 512 (2 ^ 504)) false ^^^ (1#544 <<< 480)) with | .fixed g _ => g == BitVec.ofNat 512 (2 ^ 504) | _ => false) = true := by
  decide +kernel

/-- R260: the frame parity of a line that is zero but for byte 0 of granule 31. -/
theorem test_parity : parity ((List.range 32).map fun i => if i = 31 then (1 : Gran) else 0) = (3, 2) := by decide +kernel

/-- R109: the pseudo-LRU example, steps 1, 3 and 4. -/
theorem test_plru :
    Data.plruTouch 0 0 = 0x008B ∧ Data.plruPick 0x008B (fun _ => true) = 8 ∧ Data.plruTouch 0x008B 3 = 0x0083 ∧ Data.plruTouch 0x0083 8 = 0x08A6 ∧
    Data.plruPick 0x08A6 (fun _ => true) = 4 ∧ Data.plruPick 0x0083 (fun w => w != 8) = 9 := by decide +kernel

/-- R385: the mirror set of a granule. R320: an event item. R190: the message slot of a read. R149: entry 21 of the default table. -/
theorem test_examples :
    Data.mirSet 0xA4220067 = 0x2202F7 ∧ evItem 245 1 0x123456 = 0x0000123456_04F5E7 ∧ msgSlot (1 * 8 + 0xA4220067 * 256) = 0x1C00000A4220067081 ∧
    defaultTable.getD 20 0 = 0x021801F1C0000082 ∧ defaultTable.length = 117 ∧ frameKey 7 0x2200 5 7 = 29 * pcCw + 34817 * 34 + 7 := by decide +kernel

/-- R426: the balls of the worked example. R178: lane 0 of a width of four carries bytes 0, 4, 8, …. -/
theorem test_package :
    [aptBall 13 2 false false, aptBall 13 2 false true, aptBall 13 2 true false, aptBall 13 2 true true, bkpBall 2 3 false false, bkpBall 2 3 true true].map
      Ball.name = ["BV24", "BV25", "BN24", "BN25", "AP2", "AP6"] ∧
    ((stripe 4 ((List.range 256).map (BitVec.ofNat 8))).map fun l => l.take 2) = [[0, 4], [1, 5], [2, 6], [3, 7]] := by decide +kernel

/-! ## A device in service -/

/-- A full rig of one unpaired device: four ways, every port enabled, a durable write-back region, a queue of agent 3 and two of
the management cluster. -/
def tRig : Rig :=
  { active := 0xFF, ilv := (List.range 256).map fun i => BitVec.ofNat 8 (i % 8), ports := List.replicate 16 1, back := List.replicate 4 0x00100010
    perms := List.replicate 16 0x3F, power := List.replicate 30 0x00010000
    regions := [{ base := 0, size := 2, attr := 0x2F }]
    queues := [{ first := 0, num := 4, owner := 3, policy := false, depth := 16 }, { first := 4, num := 2, owner := 0x10, policy := false, depth := 8 }]
    budgetAct := false, ways := 4 }

/-- That device long after RDY, every domain up and every link ACTIVE. -/
def tDev : Data :=
  { now := 100000000000, rig := some tRig, ilv := Vector.ofFn fun i => BitVec.ofNat 8 (i.val % 8)
    bkps := Vector.replicate 4 { st := .ready, mapGib := 16, capMib := 32768 }
    links := Vector.replicate 17 { st := .active }
    hlm := { run := true }
    pwr := { dom := Vector.replicate 30 .up, boot := .rdy, pwrgd := true, pg := some 0 } }

/-- A state with a device and a running management cluster. -/
def tSt (d : Data) (m : Mgmt := {}) : State := { d := d, m := { m with up := true } }

theorem tSt_up (d : Data) (m : Mgmt) (h : d.domUp 1 = true) : (tSt d m).clusterUp := ⟨h, rfl⟩

/-- A write reaches a register whose block is up where nothing is posted and the hardware has done nothing in the cycle. -/
theorem tReach (d : Data) (m : Mgmt) (a : Nat) (h : d.domUp 1 = true) (hb : d.blockReefed a = false) (hp : d.banks[(16 : Fin 17)].posted = [])
    (hc : d.cycNow.set = [] ∧ d.cycNow.late = [] ∧ d.cycNow.was = []) : (tSt d m).Reaches a :=
  ⟨tSt_up d m h, hb, .inr hp, by show SMap.get 0 d.cycNow.set _ = 0; rw [hc.1]; rfl, by show SMap.get none d.cycNow.late _ = none; rw [hc.2.1]; rfl,
    fun _ _ _ _ => by show SMap.get none d.cycNow.was _ = none; rw [hc.2.2]; rfl⟩

theorem tQuiet (d : Data) (r : Requester) (a : Nat) (hc : d.cycNow.set = [] ∧ d.cycNow.late = [] ∧ d.cycNow.was = []) : d.quiet r a :=
  ⟨by rw [Data.hwSet, hc.1]; rfl, by rw [hc.2.1]; rfl, fun _ _ _ _ => by rw [hc.2.2]; rfl⟩

/-- A waiting pass of agent 2. -/
def tWait (seq since : Nat) (loc : Loc) : Waiter := { seq := seq, since := since, kind := .req { agent := 2, op := 1, ga := 64 }, loc := loc }

/-! ## Steps -/

/-- What a step answers meets a test. -/
def tGot (o : Host.Outcome State Fault Refusal) (p : State → Bool) : Bool := match o with | .next t => p t | _ => false

/-- The step of a command on a state. -/
def tRun (c : Instr) (s : State) : Host.Outcome State Fault Refusal := step { s with pending := [c] }

/-- R26: RD_SH waits at the slice that its bucket names. -/
theorem test_rdSh : tGot (tRun (.rdSh 2 0x20) (tSt tDev)) (fun t => t.d.slices[1].waiters.length == 1 && t.pending.isEmpty) = true := by
  decide +kernel

/-- R447: the addresses of the example decode so: SLC5_TMO_CFG, nothing at an unlisted offset, no block, an unaligned address, APT13_ILV10. -/
theorem test_registers :
    ([(0x00150080, AccWidth.w32), (0x00100004, .w32), (0x00180010, .w32), (0x14, .w64), (0x104, .w64), (0x002D0428, .w32)].map fun x =>
      ((tSt tDev).begun.mgtRead x.1 x.2).2) = [0x14646414, 0, 0xFFFFFFFF, 0xFFFFFFFFFFFFFFFF, 0, 0x03020100] := by decide +kernel

/-- R327: a chained pair carries and raises no overflow. -/
theorem test_chained :
    let d := (tDev.modPmc fun p => { p with chain := 1 <<< 64, cnt := SMap.set 0 (SMap.set 0 p.cnt 128 0xFFFFFFFFFFFE) 129 5 }).tally 128 2
    SMap.get 0 d.pmc.cnt 128 = 0 ∧ SMap.get 0 d.pmc.cnt 129 = 6 ∧ d.pmc.ovf = 0 := by decide +kernel

/-- R298: a pop takes the oldest word; a pop of an empty queue is an underrun. -/
theorem test_pop :
    let q := (((tDev.qItem 0 [0xA0, 0xA1]).1).qPop { first := 0, num := 4, owner := 3, policy := false, depth := 16 } 0)
    q.2.data = 0xA0 ∧ q.2.eop = false ∧ q.1.qPkt 0 = 1 ∧ (tDev.qPop { first := 0, num := 4, owner := 3, policy := false, depth := 16 } 0).2.under = true := by
  decide +kernel

/-- R236: the power-fail warning begins Recall and asserts what it should. -/
theorem test_power_fail : tGot (tRun .powerFailWarning (tSt tDev)) (fun t => t.d.dur.phase == .recalling && t.d.dur.tr == some tDev.now) = true := by
  decide +kernel

/-! ## Witnesses: a state and operands that meet each statement's hypotheses -/

theorem witness_StepTakesTheFrontCommand : ({ tSt tDev with pending := [.eventTick] } : State).pending = .eventTick :: [] := rfl

theorem witness_EmptyQueuePassesACycle : (tSt tDev).pending = [] := rfl

theorem witness_EveryStepKeepsTheTap : (tSt tDev).tap.kept ∧ tGot (step (tSt tDev)) (fun _ => true) = true :=
  ⟨by simp [Tap.kept, tSt], by decide +kernel⟩

theorem witness_TestPortCommandsTouchTheTapAlone : ({ tck := false } : Tap).tck = false ∧ ({ tck := true } : Tap).tck = true := by decide

/-- Granule 0x20 and the last one of the map; DUR phase RUN and Recall; byte enables not zero. -/
theorem witness_RequestsAreAccepted :
    tDev.portOpen 3 = true ∧ (0x3FFFFFF : BitVec 40).toNat < 2 ^ 36 ∧ tDev.inMap 0x20 = true ∧ tDev.inMap 0x3FFFFFF = true ∧
    tDev.pairMute = false ∧ tDev.homed 0x20 = true ∧ (1 : ByteEn) ≠ 0 ∧ tDev.dur.phase = .run ∧
    (tDev.modDur fun u => { u with phase := .recalling }).dur.phase = .recalling ∧
    (tDev.ilvMod (fun _ _ => true) fun _ e => e ||| 0x10).fencedAt 0x20 = true := by decide +kernel

/-- The REQ that a port holds next for the slice of granule 0x20; another port; a slice that has granted in this cycle and one that has not. -/
def tHeld : Data := tDev.modPort 2 fun x => { x with held := [{ agent := 2, op := 1, ga := 0x20, dst := some 0 }] }

theorem witness_AcceptedRequestWaitsAtItsHome :
    tHeld.reqNext 0 2 = some { agent := 2, op := 1, ga := 0x20, dst := some 0 } ∧
    ({ agent := 2, op := 1, ga := 0x20, dst := some 0 } : Req).cred = false ∧ (3 : Agent) ≠ 2 ∧ (7 : SliceId) ≠ 0 ∧
    (tDev.modSlice 7 fun x => { x with arbAt := some tDev.now }).slices[7].arbAt = some tDev.now ∧ tHeld.slices[0].arbAt ≠ some tHeld.now := by
  decide +kernel

/-- The first granule past each end of the map. -/
theorem witness_UnmappedRequestIsAnsweredAndChangesNoSlice :
    tDev.portOpen 15 = true ∧ tDev.inMap 0x40000000 = false ∧ 2 ^ 36 ≤ (0x1000000000 : BitVec 40).toNat := by decide +kernel

/-- A device of a pair, member 0, and a bucket of member 1. -/
def tPair : Data :=
  { tDev with
    rig := some { tRig with paired := true, pairId := 7, shroudSpd := 1, regions := [{ base := 0, size := 2, attr := 0x6F }] }
    ilv := Vector.ofFn fun i => BitVec.ofNat 8 (i.val % 16)
    pair := { st := .paired } }

theorem witness_MisdirectedRequestIsRedirected :
    tPair.portOpen 3 = true ∧ tPair.inMap 0x100 = true ∧ tPair.pairMute = false ∧ tPair.homed 0x100 = false ∧
    tPair.fencedAt 0x100 = false := by decide +kernel

theorem witness_AnswersAreTaken :
    tDev.portOpen 3 = true ∧ tDev.pairMute = false ∧ tDev.ansInMap 0x20 = true ∧ tDev.portEn 4 = true ∧
    (tDev.modPort 3 fun x => { x with recalling := true }).portOpen 3 = true ∧
    (tDev.modPort 3 fun x => { x with recalling := true }).ports[3].recalling = true := by decide +kernel

theorem witness_OwnerDataIsSteeredToItsReceiver :
    tDev.ports[5].iso = false ∧ ({ cls := .dat, op := 1, gaddr := 0x20 } : TxItem).cls = .dat := by decide +kernel

/-- Slice 0 and 7, regions 0 and 63; a cache and a region disabled and not stale. -/
theorem witness_CacheControlsComplete :
    (tSt tDev).Reaches (Reg.slcCdis 7) ∧ (tSt tDev).Reaches Reg.topCbypCtl ∧ tDev.slices[7].cdis = false ∧ tDev.rangeDirty 7 none = false ∧
    (tDev.modSlice 0 fun x => { x with cdis := true }).slices[0].cdis = true ∧
    (tDev.modSlice 0 fun x => { x with cdis := true }).flag (Reg.slcCdis 0) 3 = false ∧
    tDev.byp.getLsbD 63 = false ∧ tDev.reload = none ∧
    (∀ n ∈ tDev.activeSlices, tDev.rangeDirty n (some 63) = false) ∧
    ({ tDev with byp := 1 } : Data).byp.getLsbD 0 = true ∧ ({ tDev with byp := 1 } : Data).bypStale.getLsbD 0 = false :=
  ⟨tReach _ _ _ rfl (by decide +kernel) rfl (by decide), tReach _ _ _ rfl (by decide +kernel) rfl (by decide), by decide +kernel⟩

/-- A reload that waits for the switch. -/
def tReload : Reload := { rig := tRig, start := 0, hold := [], clean := [], ready := true }

theorem witness_ReloadCommandsComplete :
    (tSt tDev).Reaches Reg.rigReload ∧ tDev.reload = none ∧ tDev.byp = 0 ∧ tDev.rig = some tRig ∧
    tDev.rangeOwned (regionDiff cleansed tRig.regions tRig.regions) = false ∧ tReload.ready = true ∧
    ({ tDev with reload := some tReload } : Data).reloadQuiet tReload = true ∧ tDev.pair.st ≠ .paired ∧
    tReload.start + ms 50 ≤ tDev.now ∧ tPair.pair.st = .paired ∧ tPair.pair.rld ≠ some (BitVec.ofNat 32 tReload.rig.seq) ∧
    (tPair.modPair fun p => { p with rld := some 0, rldAt := tDev.now }).pair.rld = some (BitVec.ofNat 32 tReload.rig.seq) ∧
    ({ tReload with readyAt := tDev.now }).readyAt < (tPair.modPair fun p => { p with rldAt := tDev.now }).pair.rldAt + ms 10 ∧
    tReload.readyAt + ms 10 ≤ tDev.now :=
  ⟨tReach _ _ _ rfl (by decide +kernel) rfl (by decide), by decide +kernel⟩

/-- Before and after D2's own conditions: a snapshot pending, a period that has passed. -/
theorem witness_EventAndCounterCommandsComplete :
    ([Reg.evtForce, Reg.pmcCtl, Reg.pmcWvalHi, Reg.pmcSmpSeed, Reg.aptSwev 15].all fun a => !tDev.blockReefed a) = true ∧
    (∀ a, tDev.blockReefed a = false → (tSt tDev).Reaches a) ∧ tDev.pwr.boot ≠ .off ∧ tDev.domUp 2 = true ∧
    (tDev.modPmc fun p => { p with snap := true, edgeAt := some tDev.now }).pmc.snap = true ∧
    (tDev.modPmc fun p => { p with snap := true, edgeAt := some tDev.now }).pmc.edgeAt = some tDev.now ∧
    (tDev.fldSet Reg.pmcCtl 16 16 1).fld Reg.pmcCtl 16 16 ≠ 0 ∧
    0 + 1 * 1024 ≤ (tDev.modEvt fun e => { e with tick := 1024 }).evt.tick.toNat :=
  ⟨by decide +kernel, fun a h => tReach _ _ a rfl h rfl (by decide), by decide +kernel⟩

/-- A near register, a far one of a compact rig, a mailbox that fills, a posted write that is due. -/
theorem witness_RegisterAccessesComplete :
    (tSt tDev).clusterUp ∧ (∀ r a, tDev.quiet r a) ∧ tDev.portOpen 0 = true ∧ tDev.domUp 1 = true ∧ tDev.ports[0].mgqIn = [] ∧
    accCause Reg.pwrWdt 4 true false = none ∧ regNear Reg.pwrWdt = true ∧
    ({ tDev with rig := some { tRig with active := 0x0F, ports := List.replicate 8 1 } } : Data).compact = true ∧
    accCause Reg.durPeak 4 false false = none ∧ accCause Reg.durPeak 8 false false = none ∧
    (tDev.modMbx 7 fun x => { x with pend := true }).mbx[7].pend = true ∧
    (tDev.modBank 16 fun b => { b with posted := [{ a := 0, width := .w32, be := 15, d := 0, start := 0 }] }).banks[16].posted =
      [{ a := 0, width := .w32, be := 15, d := 0, start := 0 }] ∧ 0 + us 2 ≤ tDev.now ∧
    ([true, false].all fun w =>
      ({ tSt { tDev with rig := some { tRig with active := 0x0F, ports := List.replicate 8 1 } } with pending := [] } : State).begun.farStalls 16
        { a := BitVec.ofNat 32 Reg.durBudget, width := .w32, write := w, tag := none }) = true ∧ tDev.banks[(16 : Fin 17)].posted = [] :=
  ⟨tSt_up _ _ rfl, fun r a => tQuiet _ r a (by decide), by decide +kernel⟩

/-- A queue with a waiting GAP marker, one with a stale timer that has run out. -/
theorem witness_QueueCommandsComplete :
    (∀ a, tDev.blockReefed a = false → (tSt tDev).Reaches a) ∧ tDev.blockReefed (Reg.quedPushHi 4) = false ∧ tDev.blockReefed (Reg.quedCtl 4) = false ∧
    (tDev.que1 4).pushAt ≠ some tDev.qCycle ∧ tDev.portOpen 3 = true ∧ tDev.domUp 2 = true ∧
    tDev.qRec 4 = some { first := 4, num := 2, owner := 0x10, policy := false, depth := 8 } ∧ tDev.banks[(16 : Fin 17)].posted = [] ∧
    tDev.qRec 0 = some { first := 0, num := 4, owner := 3, policy := false, depth := 16 } ∧
    ((tDev.modQue 0 fun x => { x with timer := some 0 }).que1 0).timer = some 0 ∧
    (tDev.fldSet (Reg.quedStale 0) 0 16 1).fld (Reg.quedStale 0) 0 16 = 1 ∧ 0 + us (10 * 1) ≤ tDev.now ∧
    ((tDev.modQue 0 fun x => { x with gapPend := 1 }).que1 0).gapPend ≠ 0 ∧
    ((tDev.modQue 0 fun x => { x with gapPend := 1 }).que1 0).opn = .none ∧
    ((tDev.modQue 0 fun x => { x with gapPend := 1 }).que1 0).resync = false ∧
    ((tDev.modQue 0 fun x => { x with gapPend := 1 }).que1 0).words.length < 16 :=
  ⟨fun a h => tReach _ _ a rfl h rfl (by decide), by decide +kernel⟩

/-- A slice with one waiting request, a filled miss-tracker entry, a prefetch to issue, a side-buffer entry, a store read. -/
def tBusy : Data :=
  tDev.modSlice 0 fun s =>
    { s with
      waiters := [tWait 1 (tDev.now - 64) .input, tWait 2 tDev.now (.mtFull)]
      plLast := tDev.now
      mt := [{ idx := 5, uid := 0, sec := 0, first := 0, issued := some 0 }]
      pf := [(9, tDev.now, 0)]
      side := s.side.set 31 { st := .pend, sec := 3, issued := some 0 }
      stRd := [{ port := 0, item := { cls := .dat, op := 1, gaddr := 0 } }] }

theorem witness_SlicePassesComplete :
    tBusy.running 0 = true ∧ ((tBusy.admitNext 0).map fun c => c.prio) = some 3 ∧
    ((tBusy.modSlice 0 fun s => { s with latent := .tag 1 true }).admitNext 0).isSome = true ∧ Upset.tag 1 true ≠ .none ∧
    ((tBusy.modSlice 0 fun s => { s with waiters := [], mfull := [1] }).admitNext 0).map (·.prio) = some 5 ∧
    tBusy.slices[0].latent = .none ∧ (tBusy.modSlice 7 fun s => { s with latent := .tag 0 false }).slices[7].latent = .tag 0 false ∧
    minBy (·.seq) ((tBusy.listHeads 0).filter (tBusy.listFree 0)) = some (tWait 2 tDev.now .mtFull) ∧
    minBy (·.seq) (((tDev.modSlice 0 fun s => { s with waiters := [tWait 3 0 (.retry .fetch)] }).slices[0].waiters).filter fun w =>
      dsetOf w.kind.ga = 64 && (tDev.modSlice 0 fun s => { s with waiters := [tWait 3 0 (.retry .fetch)] }).cleared 0 w) =
        some (tWait 3 0 (.retry .fetch)) ∧
    tBusy.slices[0].mt.find? (fun e => e.idx == 5 && e.issued.isSome && !e.zero && !e.failed && e.got.isNone) =
      some { idx := 5, uid := 0, sec := 0, first := 0, issued := some 0 } ∧
    tBusy.slices[0].pf = [(9, tDev.now, 0)] ∧ tBusy.slices[0].side[31].st = .pend ∧ tBusy.slices[0].side[31].issued.isSome = true ∧
    minBy (·.seq) ((tDev.modSlice 0 fun s => { s with waiters := [{ seq := 1, since := 0, kind := .binv 64, loc := .ready }] }).slices[0].waiters.filter
      (tDev.binvReady 0)) = some { seq := 1, since := 0, kind := .binv 64, loc := .ready } ∧
    tBusy.slices[0].stRd = [{ port := 0, item := { cls := .dat, op := 1, gaddr := 0 } }] := by
  and_intros <;> decide +kernel

/-- An entry in the backstop, one that is not there, a spilled entry. -/
def tDir : Data :=
  (tDev.bstWrite 0 (bsetOf 64) (List.replicate 8 {}) ({ ga := 64, base := .s, shr := 1 } :: List.replicate 7 {})).modSlice 0 fun s =>
    { s with fetches := [{ ga := 64, key := 0, start := 0 }], spill := [{ e := { ga := 128, base := .x, own := some 1, pin := false }, start := some 0 }] }

theorem witness_DirectoryTransfersComplete :
    tDir.slices[0].fetches = [{ ga := 64, key := 0, start := 0 }] ∧
    ((tDir.modSlice 0 fun x => { x with fetches := [] }).bstRead 0 (bsetOf 64)).2 =
      some ({ ga := 64, base := .s, shr := 1 } :: List.replicate 7 {}) ∧
    ((tDir.modSlice 0 fun x => { x with fetches := [] }).bstRead 0 (bsetOf 65)).2 = some (List.replicate 8 {}) ∧
    tDir.spillNext 0 = some { e := { ga := 128, base := .x, own := some 1 }, start := some 0 } ∧
    (tDir.bstRead 0 (bsetOf 128)).2 = some (List.replicate 8 {}) := by decide +kernel

/-- Every timer of a slice long due. -/
def tLate : Data :=
  tDev.modSlice 0 fun s =>
    { s with
      htes := [{ ga := 64, st := 1, pend := 2 }, { ga := 65, st := 1, wbsrc := some 4 }]
      owed := [{ ga := 64, agent := 3, timer := some 0 }]
      mt := [{ idx := 0, uid := 0, sec := 0, first := 0, issued := some 0 }]
      wb := [{ idx := 0, uid := 0, ga := 64, be := beAll, data := 0, kind := .wt, issued := true, dur := false, sent := some 0 },
        { idx := 47, uid := 1, ga := 65, be := beAll, data := 0, kind := .wt, issued := true, dur := false, sent := some 0, tries := 1 }]
      fetches := [{ ga := 64, key := 0, start := 0 }]
      side := s.side.set 0 { st := .ready, sec := 3 }
      waiters := [{ tWait 1 0 (.retry .fetch) with enter := some 0 }, tWait 2 0 (.retry (.budget 0))] }

theorem witness_SliceTimersComplete :
    (tLate.fldSet (Reg.slcPfCfg 0) 4 4 1).fld (Reg.slcPfCfg 0) 4 4 ≠ 0 ∧ tLate.slices[0].side[0].st = .ready ∧ 0 + 1 * 1024 ≤ tLate.now ∧
    (tLate.hteFind 0 64).map (fun h => agents h.pend ++ (h.wbsrc.toList.filter fun a => !h.pend.getLsbD a.val)) = some [1] ∧
    (tLate.hteFind 0 65).map (fun h => agents h.pend ++ (h.wbsrc.toList.filter fun a => !h.pend.getLsbD a.val)) = some [4] ∧ 0 + 16 + tLate.snpTime 0 ≤ tLate.now ∧
    tLate.slices[0].owed.find? (fun o => o.ga == 64 && o.agent == 3 && o.timer.isSome) = some { ga := 64, agent := 3, timer := some 0 } ∧
    tLate.slices[0].mt.find? (fun e => e.idx == 0 && e.got.isNone && !e.zero && !e.failed) =
      some { idx := 0, uid := 0, sec := 0, first := 0, issued := some 0 } ∧ 0 + tLate.fillTime 0 ≤ tLate.now ∧
    tLate.mayWrite = true ∧ (tLate.slices[0].wb.find? (fun e => e.idx == 0)).isSome = true ∧
    (tLate.slices[0].wb.find? (fun e => e.idx == 47)).map (·.tries) = some 1 ∧ 0 + tLate.wackTime 0 ≤ tLate.now ∧
    tLate.slices[0].fetches = [{ ga := 64, key := 0, start := 0 }] ∧ 0 + us 20 ≤ tLate.now ∧
    minBy (·.seq) (tLate.slices[0].waiters.filter (tLate.retryDue 0)) = some { tWait 1 0 (.retry .fetch) with enter := some 0 } ∧
    minBy (·.seq) (tLate.slices[0].waiters.filter tLate.budgetDue) = some (tWait 2 0 (.retry (.budget 0))) ∧
    (tLate.slices[0].waiters.any fun x => dsetOf x.kind.ga == dsetOf 64 && tLate.wbTurn 0 x) = false ∧ tLate.olderRetry 0 1 64 = false ∧
    (tWait 1 0 (.retry (.hold 5))).loc = .retry (.hold 5) := by
  and_intros <;> decide +kernel

/-- A whole-granule write entry to send, and one that is sent. -/
def tWrite (sent : Option Nat) : Data :=
  tDev.modSlice 0 fun s =>
    { s with wb := [{ idx := 47, uid := 7, ga := 64, be := BitVec.allOnes 64, data := 0, kind := .wt, issued := true, dur := false, sent := sent }] }

theorem witness_WriteBufferCommandsComplete :
    (tWrite none).bkps[1].st = .ready ∧ (tWrite none).mayWrite = true ∧ (tWrite none).domUp (Data.bkpDom 1) = true ∧
    (minBy (fun x => x.2.uid) (allSlices.flatMap fun n => ((tWrite none).wbSendable n 1).map fun e => (n, e))).map (·.2.uid) = some 7 ∧
    (tWrite none).dur.tr = none ∧
    ((tWrite (some 0)).slices[0].wb.find? (fun e => e.idx == 47 && e.sent.isSome)).map (fun e => (e.kind, e.dur)) = some (.wt, false) := by
  decide +kernel

/-- A link of each kind in a state. -/
def tLink (st : LinkSt) (f : Link → Link := id) : Data := { tDev with links := Vector.replicate 17 (f { st := st }) }

/-- The bytes of a training set of a TYPE and lane: SYNC, TYPE, lane, RATES, WIDTHS, flags, CHK. -/
def tSet (ty lane fl : Nat) : BitVec 256 :=
  let b := [ty, lane, 1, 1, fl]
  BitVec.ofNat 256 (0xA5A55A5A + (b.zipIdx.map fun x => x.1 * 2 ^ (32 + 8 * x.2)).sum + b.sum * 2 ^ 240)

theorem witness_LinkTrainingCompletes :
    (∀ l : LinkId, (tLink .detect).links[l].st = .detect ∧ (tLink .detect).links[l].entered + ms 12 ≤ (tLink .detect).now) ∧
    Data.laneOk 0 3 = true ∧ Data.laneOk 16 15 = true ∧ (tLink .train).links[16].st = .train ∧ (tLink .train).links[16].pol.getLsbD 15 = false ∧
    stsOk (tSet 1 3 0) 1 = true ∧ stsOk (tSet 2 3 0) 2 = true ∧ stsOk (tSet 3 0 0) 3 = true ∧
    stsOk (~~~(tSet 1 3 0)) 1 = false ∧ stsOk (~~~(~~~(tSet 1 3 0))) 1 = true ∧
    (tLink .cfg).links[0].st = .cfg ∧ nbit (stsByte (tSet 2 3 (if (tLink .cfg).linkRole 0 then 0 else 2)) 8) 1 ≠ (tLink .cfg).linkRole 0 ∧
    stsOk (tSet 2 3 (if (tLink .cfg).linkRole 0 then 0 else 2)) 2 = true ∧ stsByte (tSet 2 3 0) 5 = 3 ∧
    (tLink .init).links[0].st = .init ∧ (tLink .train).linkOver 0 .train (ms 24) = true ∧ (tLink .cfg).linkOver 0 .cfg (ms 2) = true ∧
    (tLink .init).linkOver 0 .init (ms 1) = true ∧ (tLink .eq64).links[0].st = .eq64 ∧ (tLink .eq32).links[0].st = .eq32 ∧
    (tLink .train).stsSent 0 16 2 = true ∧ (((tLink .train fun x => { x with sts := Vector.replicate 16 8 }).widths 0).any fun n =>
      (tLink .train fun x => { x with sts := Vector.replicate 16 8 }).trained 0 n) = true ∧
    (((tLink .train).widths 0).any fun n => (tLink .train).trained 0 n) = false ∧
    (tLink .init fun x => { x with initOk := true, sdm := 4 }).links[0].initOk = true ∧
    4 ≤ (tLink .init fun x => { x with initOk := true, sdm := 4 }).links[0].sdm ∧ (tLink .init).stsSent 0 4 (tLink .init).links[0].rate.toNat = true ∧
    tDev.blockReefed (Reg.aptLinkCtl 15) = false ∧ (tLink .active).links[Data.aptLink 15].st = .active ∧
    (tLink .down).links[Data.aptLink 15].st = .down ∧ (tLink .down).flag (Reg.aptLinkCtl 15) 0 = false := by
  and_intros <;> decide +kernel

/-- A flit that carries a TYPE and a first slot, and its 2048 bits. -/
def tFlit (ty : Byte) (slot : List Byte) : List Byte := flitEncode (ty :: 0 :: slot ++ List.replicate (240 - slot.length) 0)

def tWord (b : List Byte) : BitVec 2048 := BitVec.ofNat 2048 (leAt b 0 256)

/-- Slot 0 of a first flit: LNK, 48 ... credits of each kind. -/
def tLnk : List Byte := [2, 0, 0xFF, 0xFF, 0xFF, 0xFF, 0xFF, 0xFF, 0xFF, 0xFF, 0, 0, 0, 0, 0, 0]

set_option maxRecDepth 1000000 in
theorem witness_FlitCommandsComplete :
    (tLink .active).links[0].st = .active ∧ (tLink .active).links[16].st = .active ∧
    ((Data.flitIn (tWord (tFlit 0 []))).map fun x => (bits (leAt x 0 2) 0 2, (Data.flitSlots x).all fun s => bits s.toNat 0 4 != 2)) = some (0, true) ∧
    Data.flitIn 1 = none ∧
    Data.linkPort 3 = some 3 ∧ Data.linkPort 16 = none ∧
    (tLink .init).links[0].st = .init ∧
    (((Data.flitIn (tWord (tFlit 0 tLnk))).bind fun x => (Data.flitSlots x).find? (fun s => bits s.toNat 0 4 == 2)).map fun x =>
      (List.finRange 5).all fun c => decide ((minGrant 0)[c] ≤ (lnkCredits x)[c].toNat)) = some true ∧
    (tLink .active fun x => { x with nak := some 0 }).links[0].nak = some 0 ∧ 0 + us 2 ≤ tDev.now ∧
    (tLink .active fun x => { x with replay := [{ fseq := 0, slots := [] }] }).links[0].replay ≠ [] ∧
    0 + us (act1 (tDev.fld (Reg.aptTmoCfg 0) 0 8)) ≤ tDev.now ∧
    (tLink .recover fun x => { x with lanes := 0xFFFF }).links[16].st = .recover ∧
    (tLink .recover fun x => { x with lanes := 0xFFFF }).links[16].lanes = BitVec.allOnes 16 ∧
    (tLink .recover).linkOver 0 .recover (ms 2) = true ∧ (tLink .recover fun x => { x with rate := 1 }).links[0].rate.toNat < 2 ∧
    2 ≤ (tLink .recover fun x => { x with rate := 3 }).links[0].rate.toNat ∧
    (tLink .recover fun x => { x with lanes := 0xF }).links[3].width = 0 ∧
    (∀ k : Fin 16, k.val < 4 → (0xF : BitVec 16).getLsbD k.val = true ∧
      (tLink .recover fun x => { x with lanes := 0xF }).links[3].lanes.getLsbD k.val = true) := by
  decide +kernel

/-- A link whose peer has sent L1_REQ, one that has sent it; a message that no credit lets go. -/
def tL1 (st : LinkSt) : Data :=
  (tLink st fun x => { x with lpok := true, l1Req := some 0 }).modPort 3 fun x => { x with tx := [{ cls := .rsp, op := 1, gaddr := 0 }] }

theorem witness_LowPowerAndCreditCommandsComplete :
    (tL1 .active).links[Data.aptLink 3].st = .active ∧ (tL1 .active).l1Ready 4 = true ∧ (tL1 .active).l1Ready 3 = false ∧
    (tL1 .active).links[Data.aptLink 3].l1Req ≠ none ∧ (tL1 .active).links[Data.aptLink 4].lpok = true ∧
    tDev.fld (Reg.aptTmoCfg 4) 24 8 ≠ 0 ∧ (tL1 .active).txWaits 4 = false ∧ (tLink .active).links[Data.aptLink 4].l1Req = none ∧
    (tL1 .active).links[Data.aptLink 4].traffic + us (tDev.fld (Reg.aptTmoCfg 4) 24 8) ≤ tDev.now ∧ 0 + us 2 ≤ tDev.now ∧
    (tL1 .l1).links[Data.aptLink 0].st = .l1 ∧ tDev.domUp (Data.aptDom 0) = true ∧
    (tDev.modPwr fun p => { p with dom := p.dom.set (Data.aptDom 0) .reefed }).domUp (Data.aptDom 0) = false ∧
    (tL1 .wake).links[Data.aptLink 15].st = .wake ∧ (tL1 .wake).linkOver (Data.aptLink 15) .wake (us 10) = true ∧
    (tL1 .active).creditDry 3 .rsp = true ∧ (tL1 .active).ports[3].tx = [{ cls := .rsp, op := 1, gaddr := 0 }] ∧
    0 + us (10 * act1 (tDev.fld (Reg.aptTmoCfg 3) 8 8)) ≤ tDev.now ∧
    max 0 ((tL1 .active).links[Data.aptLink 3].credAt[txCredit .rsp]) + us (100 * act1 (tDev.fld (Reg.aptTmoCfg 3) 16 8)) ≤ tDev.now := by
  decide +kernel

/-- The device of the pair in a state, its link, its journal and its witness as the commands of the pair's states need them. -/
def tMate (st : PairSt) (f : Pair → Pair := id) : Data :=
  ({ tPair with links := Vector.replicate 17 { st := .active } }.modPair fun p => f { p with st := st }).modDur fun u => { u with jA := some 0 }

theorem witness_PairStateCommandsComplete :
    tPair.paired = true ∧ (tMate .wait).pair.st = .wait ∧ (7 : Word) = (tMate .wait).pairId ∧ true ≠ tPair.member ∧
    (tMate .wait).pair.reads = [] ∧ (tMate .wait).pair.witOpen = 0 ∧ (tMate .wait).dur.jA ≠ none ∧
    (tMate .wait).pair.waitAt + ms (act1 ((tMate .wait).fld Reg.shdCfg 0 8)) ≤ (tMate .wait).now ∧ (tMate .wait).pair.deciding = false ∧
    (tMate .paired).pair.hand = none ∧ (tMate .paired).pair.st = .paired ∧ (tMate .paired).pair.deciding = false ∧
    ((tMate .paired fun p => { p with witSent := some 0, miss := 1 }).pair.witSent = some 0) ∧
    0 < (tMate .paired fun p => { p with miss := 1 }).pair.miss ∧ (tMate .paired fun p => { p with miss := 1 }).pair.miss = 1 ∧
    (tMate .paired).pair.hbAt + us 100 ≤ tDev.now ∧ (tMate .paired).links[Data.shdLink].st = .active ∧
    (tMate .paired).pair.hbSent + us 50 ≤ tDev.now ∧ (tMate .paired).pair.witAt + us 50 ≤ tDev.now ∧ (tMate .paired).dur.tr = none ∧
    (tMate .paired fun p => { p with witOpen := 1 }).pair.witOpen ≠ 0 ∧
    (tMate .paired fun p => { p with hand := some { giver := false, back := false, count := 0 } }).pair.hand =
      some { giver := false, back := false, count := 0 } ∧ (0 : Nat) = (0 : Word).toNat ∧
    (tSt (tMate .paired)).Reaches Reg.shdCtl ∧ (tSt (tMate .taken)).Reaches Reg.shdCtl ∧ (tMate .taken).pair.st = .taken ∧ (tMate .taken).pair.hand = none ∧
    (tMate .taken fun p => { p with pst := 6 }).pair.pst = 6 ∧ (tMate .taken).pair.failover = none ∧
    (tMate .taken fun p => { p with failover := some 0, foDone := true }).pair.failover = some 0 ∧
    (tMate .taken).pair.shadowOut = [] ∧
    (tLink .down).linkOver Data.shdLink .down (ms 1) = true := by
  and_intros <;> first | decide +kernel | exact tReach _ _ _ (by decide) (by decide +kernel) rfl (by decide)

/-- A dirty sector of bucket 0, an open mirror read, a census, the engines of the pair with work. -/
def tMir : Data :=
  (((tMate .paired fun p =>
    { p with
      reads3 := [(9, 0, 0, 64)], census := some { num := 1, kind := false, desc := 0, start := 0, left := 6, buckets := [0] }
      mirrorUse := true, shadow := SMap.set {} p.shadow (Data.shadowKey 0 3) { valid := true } }).modSlice (tPair.homeOf 64) fun s =>
    { s with
      tags := SMap.set {} s.tags (Data.tagKey (setOf (lineOf 64)) 0) { tag := tagOf (lineOf 64), st := .valid, sv := 0xFFFF, sd := 0xFFFF } }).modSlice 0 fun s =>
    { s with
      cnsWalk := some 0, resync := some 0 })

theorem witness_MirrorAndCensusCommandsComplete :
    tMir.mirrorOn = true ∧ ((tMir.tally 507).mirWrite 64 0 false).2 = true ∧
    ((tMir.mirPut (Data.mirSet 64) (List.replicate 15 0x4001)).mirWrite 64 0 false).2 = false ∧
    (SMap.get {} tMir.pair.shadow (Data.shadowKey 7 63)).valid = false ∧
    (tMir.mirRead 64).2 = none ∧ (((tMir.tally 507).mirWrite 64 5 false).1.mirRead 64).2 = some (5, false) ∧
    (tMir.pair.reads3.any fun r => r.1 == 9 && r.2.2.2 == 64) = true ∧ (tMir.pair.reads3.any fun r => r.1 == 9 && decide (r.2.1 + us 20 ≤ tMir.now)) = true ∧
    tMir.presentWay (tMir.homeOf 64) 64 = some 0 ∧
    (tMir.tagEnt (tMir.homeOf 64) (setOf (lineOf 64)) 0).sd.getLsbD (secIn 64) = true ∧
    tMir.slices[tMir.homeOf 64].mfull.contains (secOf 64) = false ∧
    tMir.running 0 = true ∧ tMir.p5Work 0 5 = true ∧ ((tMir.tally 507).mirWrite 64 5 false).1.p5Work 0 6 = true ∧ tMir.p5Work 0 7 = true ∧
    0 + us (10 * act1 (tMir.fld Reg.shdCfg 8 8)) ≤ tMir.now ∧ tMir.pair.census.isSome = true := by
  and_intros <;> decide +kernel

/-- The device in a phase of a power failure long past every deadline, with the GPF exchange of each port in a state. -/
def tFail (ph : DurPhase) (g : Gpf := .idle) : Data :=
  (tDev.modDur fun u => { u with phase := ph, tr := some 0, doneAt := some 5, flush := [(2, 0)] }).modPwr (fun p => { p with boot := .rdy })
    |> fun d => { d with bkps := d.bkps.map fun x => { x with gpf := g, cleanWait := true } }

/-- A dirty durable sector in set 0 of the slice of granule 0. -/
def tDirty : Data :=
  (tDev.modDur fun u => { u with cleaning := true }).modSlice 0 fun s =>
    { s with tags := SMap.set {} s.tags (Data.tagKey 0 0) { tag := 0, st := .valid, sv := 1, sd := 1 }, maps := s.maps.set 3 [0] }

theorem witness_DurabilityCommandsComplete :
    tDev.bkpUsed 3 = true ∧ tDev.bkps[3].st ≠ .failed ∧ tDev.bkps[3].st ≠ .down ∧ (tSt tDev).Reaches Reg.durBudget ∧ tDev.pwr.boot = .rdy ∧ tDev.pwr.xfail = false ∧
    tDev.dur.tr = none ∧ (tFail .recalling).dur.phase = .recalling ∧ (tFail .recalling).phaseDue 0 = true ∧ (tFail .drain).phaseDue 1 = true ∧
    (tFail .persist).phaseDue 2 = true ∧ (tFail .journal).phaseDue 3 = true ∧ (tFail .journal .done).cleanSent = true ∧
    (tFail .journal).cleanSent = false ∧ (tFail .done).dur.doneAt = some 5 ∧ (tFail .done).pwr.pwrgd = true ∧ (tFail .done).pwr.warm = none ∧
    (tFail .persist .phase1).bkps[0].gpf = .phase1 ∧ (tFail .persist .phase2).bkps[3].gpf = .phase2 ∧
    (tFail .journal).bkps[1].cleanWait = true ∧ ((tFail .journal).modPwr fun p => { p with boot := .flushing }).pwr.boot = .flushing ∧
    (((tFail .journal).dur.flush.any fun x => x.1 == 2 && decide (x.2 + ms 5 ≤ tDev.now)) = true) ∧
    tDirty.running 0 = true ∧ tDirty.p5Work 0 1 = true ∧ tDirty.oldestDirty 0 = some 0 ∧
    ((tDirty.modSlice 0 fun x => { x with p5 := 2, p5Due := none }).setOpen 0 0).head? = some (0, 0) ∧
    (tDirty.modSlice 0 fun x => { x with p5 := 2, p5Due := none }).lineWait 0 tDirty.seq
      (lineOf ((tDirty.modSlice 0 fun x => { x with p5 := 2, p5Due := none }).wayLine 0 0 0 * 32)) = none ∧
    (match (tDirty.modSlice 0 fun x => { x with p5 := 2, p5Due := none }).cleanSet 0 0 with
      | .ok f => ((tDirty.modSlice 0 fun x => { x with p5 := 2, p5Due := none }).inTurn (f.tally 12) 0 tDirty.seq).toOption.isSome | .error _ => false) = true ∧
    (tDirty.modDur fun u => { u with tr := some 0, phase := .drain }).p5Work 0 1 = true := by
  and_intros <;> first | decide +kernel | exact tReach _ _ _ (by decide) (by decide +kernel) rfl (by decide)

/-- A slice in salvage with a dirty sector in set 0, one with nothing left to do, and one whose census is done. -/
def tSalv : Data := tDirty.modSlice 0 fun s => { s with salv := some {} }

theorem witness_SalvageCommandsComplete :
    (tDev.modSlice 0 fun s => { s with salv := some {} }).slices[0].salv = some {} ∧ (tDev.modSlice 0 fun s => { s with salv := some {} }).salvSet 0 {} = none ∧
    tSalv.slices[0].salv = some {} ∧ (tSalv.slices[0].wb.any fun e => e.sent.isNone && !tSalv.bkpFailed e.ga) = false ∧ tSalv.salvSet 0 {} = some 0 ∧
    tSalv.salvBad 0 = none ∧ ((tSalv.salvDirty 0 0).any fun y => tSalv.bkpFailed (tSalv.wayLine 0 0 y.1 * 32)) = false ∧
    ((tSalv.salvDirty 0 0).foldlM (fun (d : Data) y => d.salvSector 0 0 y.1 y.2) tSalv).toOption.isSome = true ∧
    (match tSalv.frameRead 0 0 0 0 with | .ok (d, _, _) => (d.frameRead 0 0 0 1).toOption.isSome | .error _ => false) = true ∧
    (tDev.modSvc fun x => { x with fault := 1, cnsDone := 1 }).svc.fault.getLsbD 0 = true ∧
    (tDev.modSvc fun x => { x with fault := 1, cnsDone := 1 }).svc.cnsDone.getLsbD 0 = true ∧ tDev.svc.resumed.getLsbD 0 = false ∧
    (tDev.slices[0].wb.all fun e => tDev.bkpFailed e.ga) = true := by
  and_intros <;> decide +kernel

/-- The hallmark engine and the dispatcher serving agent 3, its command queue 0 and its completion queue 1, an item in the first. -/
def tItem (ws : List Dword) : Data :=
  let c : Word := 0x00014000
  ((((tDev.fldSet (Reg.hlmAgq 3) 0 32 c.toNat).fldSet (Reg.topMagq 3) 0 32 c.toNat)).qItem 0 ws).1

/-- A seal item of stream 9 over the first granule of the map. -/
def tSeal : Data := tItem [0x51 + 9 * 2 ^ 8 + 2 ^ 16, 2 ^ 36]

/-- A maintenance item of an operation on line 0. -/
def tMnt (op scope : Nat) : List Dword := [BitVec.ofNat 64 (0x4D + op * 2 ^ 8 + scope * 2 ^ 11), if scope = 0 then 2 ^ 31 else 0]

def tMntItem (op scope : Nat) : MntItem := mntItem (tMnt op scope) false (permAll ((tMnt op scope).map fun _ => BitVec.allOnes 32))

/-- A scrub period that ends with every pseudo-channel walked, and one that ends for one pseudo-channel alone, before its walk is done. -/
def tScrub : Data := { tDev with now := 10 ^ 16, store := { tDev.store with scrub := Vector.replicate 32 pcCw } }

def tScrubLate : Data :=
  { tDev with now := 10 ^ 16, store := { tDev.store with periodAt := (Vector.replicate 32 (10 ^ 16)).set 5 0 } }

/-- A seal item whose granules are all read. -/
def tLast : SealItem := { agent := 3, hdr := 0, ranges := [2 ^ 36], total := 1, rn := 1, sampled := true, got := [0] }

def tHash : Data := tDev.modHlm fun h => { h with lanes := h.lanes.set 7 (some tLast) }

theorem witness_MaintenanceAndSealCommandsComplete :
    tSeal.hlm.run = true ∧ tSeal.ready = true ∧ tSeal.sealNext = some 3 ∧
    (match (tSeal.modHlm fun h => { h with turn := 4 }).qTake (bits (tSeal.agq 3) 0 14) with
      | (d, some l) => sealFormed (l.map (·.data)) && !l.any (·.poison) && d.sealAllowed ((l.map (·.data)).drop 1) && d.sealLane == some 0
      | _ => false) = true ∧
    ([(0, 0), (2, 1), (1, 2), (3, 2), (4, 2)].all fun x =>
      (tItem (tMnt x.1 x.2)).ready && (tItem (tMnt x.1 x.2)).dur.tr.isNone &&
      (tItem (tMnt x.1 x.2)).mntNext == some (3, tMntItem x.1 x.2) &&
      (match ({ tItem (tMnt x.1 x.2) with mntTurn := 4 } : Data).qTake (bits ((tItem (tMnt x.1 x.2)).magq 3) 0 14) with
        | (d, some l) => mntItem (l.map (·.data)) (l.any (·.poison)) (permAll (l.map (·.perm))) == tMntItem x.1 x.2 && (tMntItem x.1 x.2).formed &&
            Data.mntPerm 3 (tMntItem x.1 x.2) && d.mntTarget (tMntItem x.1 x.2)
        | _ => false)) = true ∧
    tHash.hlm.lanes[7] = some tLast ∧ tLast.rn = tLast.total ∧ tLast.sampled = true ∧ tLast.bad = false ∧ (SMap.get {} tHash.hlm.heads 0).restart = false ∧
    (tDev.mntAccept (.queue 3 0) [0] 0 1 0 1 0 0 none).running 0 = true ∧ (tDev.mntAccept (.queue 3 0) [0] 0 1 0 1 0 0 none).p5Work 0 0 = true ∧
    (tDev.flagSet (Reg.slcPlnCfg 0) 0 true).p5Work 0 3 = true ∧
    (tDev.modHlm fun h => { h with lanes := h.lanes.set 0 (some { agent := 3, hdr := 0, ranges := [2 ^ 36], total := 1 }) }).p5Work 0 4 = true ∧
    (tDev.flagSet Reg.stoEccCfg 0 true).flag Reg.stoEccCfg 0 = true ∧ tDev.storeAwake = true ∧ tDev.store.scrub[31] < pcCw ∧
    tDev.active (Fin.ofNat 8 (31 / 4)) = true ∧ tDev.domUp (Data.slcDom (Fin.ofNat 8 (31 / 4))) = true ∧ tDev.domUp 2 = true ∧
    (Data.cwRead (tDev.tally 29) none (cwKey 31 tDev.store.scrub[31])).2.bad = false ∧
    tDev.cwBad (cwKey 31 tDev.store.scrub[31]) = false ∧
    (List.finRange 32).all (fun pc => decide (tScrub.store.periodAt[pc] + tScrub.scrubPeriod ≤ tScrub.now ∧ pcCw ≤ tScrub.store.scrub[pc])) = true ∧
    (tScrubLate.store.periodAt[5] + tScrubLate.scrubPeriod ≤ tScrubLate.now ∧ tScrubLate.store.scrub[5] < pcCw ∧
      tScrubLate.store.walked ≠ BitVec.allOnes 32) ∧
    (List.finRange 32).all (fun pc => decide (pc = 5 ∨ tScrubLate.now < tScrubLate.store.periodAt[pc] + tScrubLate.scrubPeriod)) = true ∧
    (tSt tDev).Reaches Reg.stoFlipHi := by
  and_intros <;> first | decide +kernel | exact tReach _ _ _ (by decide) (by decide +kernel) rfl (by decide)

theorem witness_ServiceCommandsComplete :
    ([Reg.topSlcCtl, Reg.tstAssayCtl, Reg.topArts, Reg.bkpCtl 3, Reg.halCtl].all fun a => !tDev.blockReefed a) = true ∧
    (∀ a, tDev.blockReefed a = false → (tSt tDev).Reaches a) ∧ tDev.svc.proc = none ∧ tDev.dur.tr = none ∧ tDev.active 7 = true ∧ tDev.svc.out.getLsbD 7 = false ∧
    tDev.svc.fault.getLsbD 7 = false ∧ tDev.serving.filter (· != 7) ≠ [] ∧ tDev.ready = true ∧ tDev.rig = some tRig ∧
    (tDev.modSvc fun x => { x with out := 0x80, passed := 0x80 }).svc.out.getLsbD 7 = true ∧
    (tDev.modSvc fun x => { x with out := 0x80, passed := 0x80 }).svc.passed.getLsbD 7 = true ∧ tDev.svc.assay = none ∧
    (tDev.modPort 15 fun x => { x with iso := true }).ports[15].iso = true ∧ tDev.svc.arts = none ∧
    (tDev.modSvc fun x => { x with assay := some 7 }).svc.assay = some 7 ∧
    (tDev.modBkp 3 fun x => { x with st := .failed }).bkps[3].st = .failed ∧ tDev.bkps[3].returning = none ∧ tDev.bkps[3].st ≠ .failed ∧
    (tDev.modBkp 3 fun x => { x with st := .failed, returning := some 0 }).bkps[3].returning = some 0 ∧
    ((tDev.modBkp 3 fun x => { x with st := .training }).bkpLink 3 ⟨true, 0, 0, 0x4000 * 1024, false, []⟩ (tDev.bkpMhd 3)).bkps[3].st = .ready ∧
    ((tDev.modBkp 3 fun x => { x with st := .training }).bkpLink 3 ⟨false, 0, 0, 0, false, []⟩ (tDev.bkpMhd 3)).bkps[3].st ≠ .ready ∧
    (tDev.modPwr fun p => { p with chainHead := true }).pwr.chainHead = true := by
  and_intros <;> first | exact fun a h => tReach _ _ a rfl h rfl (by decide) | decide +kernel

/-- The device at one point of its start. -/
def tBoot (b : Boot) (f : Pwr → Pwr := id) : Data := tDev.modPwr fun p => f { p with boot := b }

theorem witness_PowerCommandsComplete :
    State.reset.d.pwr.boot = .off ∧ State.reset.d.pwr.pwrgd = false ∧ (tBoot .rdy fun p => { p with warm := some (0, 2) }).pwr.warm = some (0, 2) ∧
    tDev.dur.tr = none ∧ tDev.pwr.pg = some 0 ∧ tDev.pwr.strap.length = (0 : Fin 3).val ∧ 0 + us (100 * (0 + 1)) ≤ tDev.now ∧
    (tBoot .rdy fun p => { p with strap := [(true, false, true), (true, false, true)] }).pwr.strap = [(true, false, true), (true, false, true)] ∧
    (tBoot .flushing).pwr.boot = .flushing ∧ tDev.dur.flush = [] ∧ tDev.pwr.boot = .rdy ∧ tDev.pwr.xfail = false ∧ tDev.pwr.warm = none ∧
    (tSt tDev).Reaches Reg.pwrWdt ∧ (tSt tDev).clusterUp ∧ (tDev.fldSet Reg.pwrWdt 0 16 1).fld Reg.pwrWdt 0 16 = 1 ∧ 0 + ms 1 ≤ tDev.now ∧
    (tBoot .rdy fun p => { p with dom := p.dom.set 1 .reefed }).domAt 1 = .reefed ∧
    (tDev.fldSet Reg.pwrWdt 17 15 1).fld Reg.pwrWdt 17 15 = 1 ∧ 0 + ms (10 * 1) ≤ tDev.now ∧ tDev.pwr.pwrgd = true ∧ tDev.pwr.boot ≠ .off ∧
    tDev.links[Data.shdLink].st = .active ∧ (10 : BitVec 5).toNat = (10 : Fin 30).val ∧ Data.domSlice 10 = some 7 := by
  and_intros <;> first | decide +kernel | exact tSt_up _ _ (by decide) | exact tReach _ _ _ (by decide) (by decide +kernel) rfl (by decide)

/-- A link at rest whose port's domain may reef, in every respect of R407. -/
def tRest : Data :=
  { tDev with
    rig := some { tRig with power := List.replicate 30 0x00010001 }
    links := Vector.replicate 17 { st := .l1 }
    pwr := { tDev.pwr with idle := Vector.replicate 30 (some 0) } }

theorem witness_DomainCommandsComplete :
    (29 : BitVec 5).toNat = (29 : Fin 30).val ∧ (14 : BitVec 5).toNat = (14 : Fin 30).val ∧ (tSt tDev).Reaches Reg.pwrDomCtl ∧
    tDev.domUsed 14 = true ∧ tDev.pwr.boot = .rdy ∧
    (tRest.regWrite Reg.pwrDomCtl ((14 : BitVec 5).setWidth 32 ||| 0xA0) 0xFF).domMayReef (tSt tRest).begun.mgtIdle 14 = true ∧
    tRest.domMayReef (tSt tRest).begun.mgtIdle 14 = true ∧
    bits (tRest.powerWord 14) 16 16 ≠ 0 ∧ DM.resetRefused tDev 29 = false ∧ DM.resetRefused tDev 1 = false ∧
    (tBoot .rdy fun p => { p with dom := p.dom.set 14 (.waking 0) }).domAt 14 = .waking 0 ∧ Data.domNeeds 14 = none ∧ 0 + ms 1 ≤ tDev.now ∧
    (tBoot .rdy fun p => { p with dom := p.dom.set 2 (.waking 0) }).domAt 2 = .waking 0 ∧
    (allDoms.filter fun i => Data.domNeeds i == some 2) ≠ [] ∧ (tBoot .rdy fun p => { p with dom := p.dom.set 2 .reefed }).domUp 2 = false ∧
    (tBoot .rdy fun p => { p with dom := p.dom.set 14 (.reefing 0 true) }).domAt 14 = .reefing 0 true := by
  and_intros <;> first | decide +kernel | exact tReach _ _ _ (by decide) (by decide +kernel) rfl (by decide)

def tKey : List Byte := List.replicate 32 0x5A

def tMgmt : Mgmt := ({} : Mgmt).setStore false 1 (setBytes [(0x11, 0x0F :: tKey)])

/-- The first 32 bytes of a request under slot 1 with SEQ 1 and n bytes of payload. -/
def tHead (ty : Byte) (n : Nat) : List Byte :=
  [0x54, 0x4D, 1, ty, 0, 1, 0xFF, 0, 1, 0, 0, 0, 0, 0, 0, 0, 0, 0, 0, 0, 0, 0, 0, 0, BitVec.ofNat 8 n, BitVec.ofNat 8 (n / 256), 0, 0, 0, 0, 0, 0]

def tMsg (ty : Byte) (p : List Byte) : List Byte := (tHead ty p.length ++ p) ++ tmpMac tKey (tHead ty p.length ++ p)

theorem tMsg_len (ty : Byte) (p : List Byte) (h : p.length ≤ 1400) : leAt (tMsg ty p) 24 2 = p.length := by
  have h2 : p.length < 65536 := by omega
  simp [leAt, sub, tMsg, tHead, leNat, BitVec.toNat_ofNat]
  omega

/-- A request of any TYPE whose rights and form are good is accepted where slot 1 holds the key and every right. -/
theorem tMsg_accepts (x : DM) (ty : Byte) (p : List Byte) (o : DM.TmpOp) (hp : p.length ≤ 1400) (hu : x.mgtUp = true) (hk : x.m.key 1 = some tKey)
    (hr : x.m.rights 1 = 15) (hb : x.m.bootId = 0) (hs : x.slot 1 = {}) (ho : DM.tmpOp ty.toNat = some o) (hn : o.right p ≤ 15)
    (hf : o.form p = true) : x.Accepts (.host 0 0) (tMsg ty p) o := by
  have hl := tMsg_len ty p hp
  have key : tmpKey (tMsg ty p) = 1 := rfl
  have pay : tmpPayload (tMsg ty p) = p := by
    simp only [tmpPayload, hl]
    simp [sub, tMsg, tHead]
  refine ⟨hu, ?_, fun _ _ _ => ?_, ⟨tKey, by rw [key, hk], ?_⟩, .inr ?_, ?_, ho, ?_, ?_⟩
  · simp only [tmpFramed, hl]
    simp [tMsg, tHead, sub, leAt, leNat, hp]
    omega
  · simp [DM.unitHere, tMsg, tHead, tmpUnit]
  · have hh : (tHead ty p.length ++ p).length = 32 + p.length := by
      simp [tHead]
      omega
    rw [hl, tMsg, ← hh, List.take_left, List.drop_left]
  · rw [hb]
    simp [leAt, sub, tMsg, tHead, leNat]
  · have sq : tmpSeq (tMsg ty p) = 1 := by simp [tmpSeq, tMsg, tHead, leAt, sub, leNat]
    rw [key, hs, sq]; decide
  · rw [pay, key, hr]
    by_cases h0 : o.right p = 0
    · exact .inl h0
    · right
      have : ∀ k ≤ 15, k ≠ 0 → k &&& 15 ≠ 0 := by decide
      exact this _ hn h0
  · rw [pay]; exact hf

set_option maxRecDepth 1000000 in
theorem tMgmt_key : tMgmt.key 1 = some tKey ∧ tMgmt.rights 1 = 15 := by decide +kernel

/-- Keys and rights stand whatever else the cluster is doing. -/
theorem tSt_accepts (d : Data) (m0 m : Mgmt) (k : m0.key 1 = some tKey ∧ m0.rights 1 = 15) (hd : d.domUp 1 = true) (ty : Byte) (p : List Byte)
    (o : DM.TmpOp) (h : m.flash = m0.flash ∧ m.setSlot = m0.setSlot ∧ m.bootId = 0 ∧ m.slots[1] = {}) (hp : p.length ≤ 1400)
    (ho : DM.tmpOp ty.toNat = some o) (hn : o.right p ≤ 15) (hf : o.form p = true) : (tSt d m).begun.Accepts (.host 0 0) (tMsg ty p) o := by
  have hs : (tSt d m).begun.m.settings = m0.settings := by
    show Mgmt.settings { { m with up := true } with out := [] } = _
    simp [Mgmt.settings, h.1, h.2.1]
  refine tMsg_accepts _ ty p o hp ?_ ?_ ?_ h.2.2.1 h.2.2.2 ho hn hf
  · show (d.domUp 1 && true) = true
    rw [hd]; rfl
  · rw [← k.1]; unfold Mgmt.key Mgmt.setting; rw [hs]
  · rw [← k.2]; unfold Mgmt.rights Mgmt.setting; rw [hs]

theorem tMgmt_slot : tMgmt.bootId = 0 ∧ tMgmt.slots[1] = {} := by decide +kernel

theorem tOne (ty : Byte) (p : List Byte) (o : DM.TmpOp) (ho : DM.tmpOp ty.toNat = some o) (hp : p.length ≤ 1400) (hn : o.right p ≤ 15)
    (hf : o.form p = true) : ∃ o, (tSt tDev tMgmt).begun.Accepts (.host 0 0) (tMsg ty p) o :=
  ⟨o, tSt_accepts tDev tMgmt tMgmt tMgmt_key (by decide +kernel) ty p o ⟨rfl, rfl, tMgmt_slot⟩ hp ho hn hf⟩

/-- A message of each TYPE is accepted. -/
theorem witness_ManagementReadsComplete :
    (∃ o, (tSt tDev tMgmt).begun.Accepts (.host 0 0) (tMsg 0x01 []) o) ∧ (∃ o, (tSt tDev tMgmt).begun.Accepts (.host 0 0) (tMsg 0x02 [0, 0, 0, 0, 1]) o) ∧
    (∃ o, (tSt tDev tMgmt).begun.Accepts (.host 0 0) (tMsg 0x03 (List.replicate 14 0)) o) ∧
    (∃ o, (tSt tDev tMgmt).begun.Accepts (.host 0 0) (tMsg 0x04 [7, 0, 0, 0, 0]) o) ∧
    (∃ o, (tSt tDev tMgmt).begun.Accepts (.host 0 0) (tMsg 0x06 (List.replicate 11 0)) o) ∧
    (∃ o, (tSt tDev tMgmt).begun.Accepts (.host 0 0) (tMsg 0x08 (List.replicate 6 0)) o) ∧
    (∃ o, (tSt tDev tMgmt).begun.Accepts (.host 0 0) (tMsg 0x09 []) o) ∧ (∃ o, (tSt tDev tMgmt).begun.Accepts (.host 0 0) (tMsg 0x16 []) o) ∧
    (∃ o, (tSt tDev tMgmt).begun.Accepts (.host 0 0) (tMsg 0x1A [0, 0]) o) := by
  refine ⟨?_, ?_, ?_, ?_, ?_, ?_, ?_, ?_, ?_⟩ <;>
    exact tOne _ _ _ rfl (by decide) (by decide) (by decide)

/-- A cluster in the middle of an update, with a subscription and a relay. -/
def tMid (m : Mgmt) (lock : LockBy) (act : ActRec) : Mgmt :=
  { m with
    lock := lock, total := 100, act := act, esubs := [some { src := .host 0 0, key := 1, since := 0 }]
    relays := [{ idx := 63, req := { src := .host 0 0, key := 1, unit := 2, ty := 1, seq := 1 }, start := 0 }] }

def tMidSt (lock : LockBy := .host (.host 0 0)) (act : ActRec := {}) : State := tSt tDev (tMid tMgmt lock act)

theorem tMid_kept (m : Mgmt) (lock : LockBy) (act : ActRec) : (tMid m lock act).flash = m.flash ∧ (tMid m lock act).setSlot = m.setSlot ∧
    (tMid m lock act).bootId = m.bootId ∧ (tMid m lock act).slots[1] = m.slots[1] := ⟨rfl, rfl, rfl, rfl⟩

theorem tAny (lock : LockBy) (act : ActRec) (ty : Byte) (p : List Byte) (o : DM.TmpOp) (ho : DM.tmpOp ty.toNat = some o) (hp : p.length ≤ 1400)
    (hn : o.right p ≤ 15) (hf : o.form p = true) : ∃ o, (tMidSt lock act).begun.Accepts (.host 0 0) (tMsg ty p) o :=
  ⟨o, tSt_accepts tDev tMgmt (tMid tMgmt lock act) tMgmt_key (by decide +kernel) ty p o
    ⟨(tMid_kept _ _ _).1, (tMid_kept _ _ _).2.1, (tMid_kept _ _ _).2.2.1.trans tMgmt_slot.1, (tMid_kept _ _ _).2.2.2.trans tMgmt_slot.2⟩ hp ho hn hf⟩

set_option maxRecDepth 1000000 in
/-- The states that the other TYPEs ask for, and a message of each; an image that verifies is left out (its signature is too long
for the kernel). -/
theorem witness_ManagementRequestsComplete :
    ((∃ o, tMidSt.begun.Accepts (.host 0 0) (tMsg 0x05 [4, 0, 1]) o) ∧ (tDev.qMgt (leAt [4, 0, 1] 0 2)).isSome = true) ∧
    ((∃ o, tMidSt.begun.Accepts (.host 0 0) (tMsg 0x07 [1]) o) ∧
      tMidSt.m.esubs.findIdx? (DM.subIs { src := .host 0 0, key := 1, unit := 0xFF, ty := 7, seq := 1 }) = some 0) ∧
    ((∃ o, tMidSt.begun.Accepts (.host 0 0) (tMsg 0x0A []) o) ∧ tDev.domUp 2 = true) ∧
    ((∃ o, (tMidSt .free).begun.Accepts (.host 0 0) (tMsg 0x10 [64, 0, 0, 0, 2, 0, 0, 0]) o) ∧ (tMidSt .free).m.lock = .free ∧
      (tMidSt .free).m.act.cru ≠ 4 ∧ 64 ≤ leAt [64, 0, 0, 0, 2, 0, 0, 0] 0 4 ∧ leAt [64, 0, 0, 0, 2, 0, 0, 0] 0 4 ≤ flImage) ∧
    ((∃ o, tMidSt.begun.Accepts (.host 0 0) (tMsg 0x11 [0, 0, 0, 0, 7]) o) ∧ tMidSt.m.lock = .host (.host 0 0) ∧
      leAt [0, 0, 0, 0, 7] 0 4 + ([0, 0, 0, 0, 7].drop 4).length ≤ tMidSt.m.total) ∧
    ((∃ o, tMidSt.begun.Accepts (.host 0 0) (tMsg 0x12 []) o) ∧ (∃ o, tMidSt.begun.Accepts (.host 0 0) (tMsg 0x15 []) o)) ∧
    ((∃ o, (tMidSt .free { cru := 3, trial := true }).begun.Accepts (.host 0 0) (tMsg 0x13 []) o) ∧
      (∃ o, (tMidSt .free { cru := 3, trial := true }).begun.Accepts (.host 0 0) (tMsg 0x14 []) o) ∧
      (tMidSt .free { cru := 3, trial := true }).m.act.cru = 3 ∧ (tMidSt .free { cru := 3, trial := true }).m.act.trial = true ∧
      (tMidSt .free { cru := 3, trial := true }).m.act.trialSec < 600) ∧
    ((∃ o, tMidSt.begun.Accepts (.host 0 0) (tMsg 0x18 [1, 0, 0, 0, 0, 7]) o) ∧ (∃ o, tMidSt.begun.Accepts (.host 0 0) (tMsg 0x19 [1]) o) ∧
      (({ d := tDev } : DM).rigInUse 1 = false)) ∧
    (∃ o, tMidSt.begun.Accepts (.host 0 0) (tMsg 0x1B [9, 0, 7]) o) ∧ (∃ o, tMidSt.begun.Accepts (.host 0 0) (tMsg 0x1F [0]) o) ∧
    (∃ o, tMidSt.begun.Accepts (.host 0 0) (tMsg 0x1F [1]) o) ∧
    (tMidSt.m.esubs[0]? = some (some { src := .host 0 0, key := 1, since := 0 }) ∧ 0 + ms 60000 ≤ tDev.now ∧
      (tMidSt.m.relays.find? fun y => y.idx == 63).isSome = true ∧ tMidSt.clusterUp) := by
  refine ⟨⟨?_, by decide +kernel⟩, ⟨?_, by decide +kernel⟩, ⟨?_, by decide +kernel⟩, ⟨?_, by decide +kernel⟩, ⟨?_, by decide +kernel⟩, ⟨?_, ?_⟩,
    ⟨?_, ?_, by decide +kernel⟩, ⟨?_, ?_, by decide +kernel⟩, ?_, ?_, ?_, by decide +kernel, by decide +kernel, by decide +kernel, tSt_up _ _ rfl⟩ <;>
    exact tAny _ _ _ _ _ rfl (by decide) (by decide) (by decide)

/-- A chain port in use and a frame for it. -/
def tHop (f : Mgmt → Mgmt := id) : State := tSt tDev (f { tMgmt with chUp := { up := true }, chDn := { up := true } })

set_option maxRecDepth 1000000 in
theorem witness_ChainCommandsComplete :
    (tHop.m.chain true).up = true ∧ (tHop.m.chain false).up = true ∧ (tHop fun m => { m with chDn := {} }).m.chDn.up = false ∧
    tDev.pwr.boot ≠ .off ∧ State.reset.m.up = false ∧ tHop.begun.mgtUp = true ∧ (5 : Nat) < 9 ∧ 0 + ms 10 ≤ tDev.now ∧
    (tHop.m.chain true).held.length < 4 ∧ hframeOk (hframe 0xFF 0 1 [0x3E]) = true ∧ (hframe 0xFF 0 1 [0x3E]).headD 0 = 0xFF ∧
    leAt (hframePayload (hframe 0xFF 0 1 [0x3E])) 0 1 < 0x3F ∧ hframeOk (hframe 0xFF 0 2 [1]) = true ∧
    (tDev.modPwr fun p => { p with chainHead := true }).pwr.chainHead = true ∧ tmpFramed (hframePayload (hframe 0xFF 0 3 (tMsg 1 []))) = true ∧
    nbit (leAt (tMsg 1 []) 4 1) 0 = false ∧
    tHop.m.lock = .free ∧ (tHop fun m => m.setStore false 1 (setBytes [(tagChainUpd, [1])])).m.setOn tagChainUpd = true ∧ tHop.m.act.cru ≠ 4 ∧
    (let f := hframe 0xFF 0 4 (leBytes 4 0x01020304 ++ [0] ++ leBytes 4 64 ++ List.replicate 48 0)
     hframeOk f = true ∧ BitVec.ofNat 32 (leAt (hframePayload f) 0 4) ≠ tHop.m.act.actVer ∧
       BitVec.ofNat 32 (leAt (hframePayload f) 0 4) ≠ tHop.m.act.cruVer ∧ 64 ≤ leAt (hframePayload f) 5 4 ∧ leAt (hframePayload f) 5 4 ≤ flImage) ∧
    (let f := hframe 0xFF 0 6 (leBytes 4 0 ++ [1, 2, 3])
     hframeOk f = true ∧ leAt (hframePayload f) 0 4 = 0 ∧ ((hframePayload f).drop 4).length = min 1024 (3 - 0)) ∧
    hframeOk (hframe 0xFF 0 5 (leBytes 4 0 ++ leBytes 2 0)) = true ∧ hframeOk (hframe 0xFF 0 7 [0]) = true ∧
    0 + 320 ≤ (DM.cruImage { tHop.m with flash := flashProg tHop.m.flash flCrucible (List.replicate 64 0) }).length := by
  decide +kernel

theorem witness_ClockAndTrialCommandsComplete :
    tDev.pwr.boot ≠ .off ∧ ({ tDev with ptp := { locked := true, ever := true } } : Data).ptp.locked = true ∧ (-1000 : BitVec 64).toInt.natAbs ≤ 1000 ∧
    tMgmt.ethUp = false ∧ ({ tMgmt with ethUp := true } : Mgmt).ethUp = true ∧ 0 + 3 * 0 ≤ tDev.now ∧ (tSt tDev).clusterUp ∧
    tMidSt.m.lock ≠ .free ∧ 0 + ms 60000 ≤ tDev.now ∧ tMidSt.m.erased < 128 ∧ tMidSt.m.startReq = none ∧ tMidSt.m.chunks = [] ∧ tMidSt.m.img = none ∧
    (tMidSt .free { trial := true }).m.act.trial = true ∧ tMidSt.m.act.trialSec + 60 < 600 ∧
    (tMgmt.setStore false 1 (setBytes [(tagAutoConfirm, [1])])).setOn tagAutoConfirm = true ∧ tDev.rig ≠ none ∧ tDev.evt.fatalSeen = false := by
  and_intros <;> decide +kernel

/-- Two chained pairs, one with a counter about to carry. -/
def tPmc : Data := tDev.modPmc fun p => { p with chain := 3, clr := true, cnt := SMap.set 0 p.cnt 0 (2 ^ 48 - 1) }

theorem witness_CounterOverflow :
    tPmc.domUp 2 = true ∧ 0 < 1 ∧ 64 ≤ 64 ∧ (0 : Fin 512).val ∉ tPmc.cycNow.loads ∧ ((0 : Fin 512).val % 2 = 1 → tPmc.pmc.chain.getLsbD 0 = false) ∧ tPmc.pmc.chain.getLsbD (511 / 2) = false := by
  decide +kernel

theorem witness_ChainedPairs :
    (1 : Word) ≠ 0 ∧ tPmc.cycNow.set = [] ∧ tPmc.cycNow.late = [] ∧ tPmc.cycNow.was = [] ∧ tPmc.cycNow.loads = [] ∧ tPmc.domUp 2 = true ∧ tDev.pmc.clr = false ∧ tPmc.pmc.chain.getLsbD (0 : Fin 256).val = true ∧
    SMap.get 0 tPmc.pmc.cnt 0 < 2 ^ 48 ∧ SMap.get 0 tPmc.pmc.cnt 1 < 2 ^ 48 := by decide +kernel

theorem witness_CounterLoad :
    (∀ r a, tPmc.quiet r a) ∧ (1 : Word) ≠ 0 ∧ tPmc.cycNow.base = none ∧ tPmc.cycNow.adds = [] ∧ tDev.pmc.chain.getLsbD (tDev.fld Reg.pmcWsel 0 9 / 2) = false ∧ 0 = tPmc.fld Reg.pmcWsel 0 9 ∧ (2 : Word).getLsbD 1 = true ∧ tPmc.domUp 2 = true ∧ tPmc.pmc.clr = true := by
  and_intros <;> first | exact fun r a => tQuiet _ r a (by decide +kernel) | decide +kernel

/-- Queue 0 with one item of two words, and a GAP marker in queue 1. -/
def tQue : Data := (((tDev.qItem 0 [0x10, 0x20]).1).qItem 1 [0xFE]).1

theorem witness_QueueItemsCounted :
    (tQue.qRec 3).isSome = true ∧ tQue.qPkt 0 = 1 ∧ tQue.qPkt 0 < 2 ^ 16 ∧ (tQue.que1 0).words.length = 2 ∧ (tQue.que1 0).gapPend = 0 ∧ tQue.qPkt 2 = 0 ∧
    (tQue.que1 0).words.map (·.eop) = [false, true] ∧ (tQue.que1 1).words.map (fun w => (w.data, w.eop)) = [(0xFE, true)] := by decide +kernel

theorem witness_QueueUnderrun :
    (tQue.que1 2).words = [] ∧ (tQue.que1 0).words ≠ [] ∧ tQue.qRec ((3 : BitVec 14).toNat) = some { first := 0, num := 4, owner := 3, policy := false, depth := 16 } ∧
    (tQue.qRec 5).isSome = true ∧ (tQue.que1 5).words.length < 2 ^ 16 ∧ (tQue.que1 0).popAt ≠ some tQue.qCycle ∧ (tQue.que1 0).flushAt ≠ some tQue.qCycle ∧
    (tQue.que1 1).landAt = some tQue.qCycle ∧ (tQue.que1 1).words.length = 1 ∧ (tQue.que1 1).popAt ≠ some tQue.qCycle ∧ (tQue.que1 1).flushAt ≠ some tQue.qCycle ∧
    ((tQue.qPop { first := 0, num := 4, owner := 3, policy := false, depth := 16 } 2).1.que1 2).popAt = some tQue.qCycle ∧
    (tDev.que1 0).landAt ≠ some tDev.qCycle := by
  and_intros <;> decide +kernel

theorem witness_PushesKeepOtherQueues :
    (tQue.qPush { first := 0, num := 4, owner := 3, policy := false, depth := 16 } 0 (qWord 1 true) none).1 =
      (tQue.qPush { first := 0, num := 4, owner := 3, policy := false, depth := 16 } 0 (qWord 1 true) none).1 := rfl

/-- Registers with fields of each type. -/
theorem witness_FieldTypesOnWrite :
    (∀ r n, tDev.quiet r (Reg.slcCdis n)) ∧ (0x10 : Word).getLsbD 0 = false ∧ (0x10 : Word).getLsbD 1 = false ∧ (0x10 : Word).getLsbD 4 = true ∧
    ([Reg.pwrWdt, Reg.durStat, Reg.durBudget, Reg.pmcCtl, 0x10, 0x00030100].all fun a => (regRow a).isSome) = true := by
  and_intros <;> first | exact fun r n => tQuiet _ r _ (by decide) | decide +kernel

/-- An unmapped address, an unaligned one, one of the management cluster alone; a mapped and aligned one. -/
theorem witness_RefusedAccesses :
    (tSt tDev).begun.mgtUp = true ∧ (accCause 0xFFFFC (accBytes .w32) true false).isSome = true ∧ (accCause 2 4 true true).isSome = true ∧
    (accCause 2 4 false true).isSome = true ∧ accCause Reg.durBudget 4 false false = none ∧ (3 : Fin 17).val = (3 : Fin 16).val := by decide +kernel

theorem witness_MailboxFill :
    tDev.quiet 16 (Reg.mbxSel 7) ∧ (1 : Word) ≠ 0 ∧ (tDev.modMbx 7 fun x => { x with pend := true }).mbx[7].pend = true ∧
    (bits (0x30FFFFFF : Word).toNat 24 8 = 0x30 ∧ bits (0x01000200 : Word).toNat 24 8 = 0x01 ∧ 512 ≤ bits (0x01000200 : Word).toNat 0 24) ∧
    (tDev.modPwr fun p => { p with dom := p.dom.set 2 .reefed }).domUp 2 = false ∧ SMap.get 0 tDev.pmc.edge 511 < 2 ^ 48 := by
  and_intros <;> first | exact tQuiet _ _ _ (by decide) | decide +kernel

theorem witness_EveryStepKeepsTheFlash : (tSt tDev).m.flashOk = true ∧ tGot (step (tSt tDev)) (fun _ => true) = true := by decide +kernel

theorem witness_FlashProgramming : SMap.ok (0xFF : Byte) (flashProg [] 4096 [1, 2, 3]) = true ∧ (0 : Nat) < flBlock := by decide +kernel

theorem witness_DownIsolatesTheAgent : tDev.ports[0].iso = false ∧ tDev.ports[15].iso = false := by decide +kernel

theorem witness_TickSamplesTheEvents :
    tDev.pwr.boot ≠ .off ∧ (tDev.ev 4).evt.latch.getLsbD 4 = true ∧ (tDev.ev 4).evt.latch.getLsbD 1023 = false ∧ severity 4 ≤ 4 := by decide +kernel

theorem witness_LedgerRoomAndBudget : tDev.quiet 16 Reg.durBudget ∧ tDev.now < tDev.now + 1 ∧ tDev.dur.past = false ∧
    (tDev.modDur fun u => { u with e := 2 ^ 40 }).budget < 2 ^ 40 := by
  and_intros <;> first | exact tQuiet _ _ _ (by decide) | decide +kernel

theorem witness_SamplingNeverSticks : tDev.quiet 16 Reg.pmcSmpSeed ∧ (1 : Word) ≠ 0 := ⟨tQuiet _ _ _ (by decide), by decide⟩

/-- A slice with no pass, one whose oldest pass has waited 64 cycles, one with fresh passes alone. -/
theorem witness_AdmissionOrder :
    (State.reset.d.cands 7).isEmpty = true ∧ (tBusy.cands 0).any (fun x => decide (x.since + 64 ≤ tBusy.now)) = false ∧ (tBusy.admitNext 0).isSome = true ∧
    ((tBusy.modSlice 0 fun s => { s with pf := [(9, 0, 0)] }).cands 0).any (fun x => decide (x.since + 64 ≤ tBusy.now)) = true := by
  and_intros <;> decide +kernel

theorem witness_CheckCodesDecodeWhatTheyEncode : (List.replicate 256 (0 : Byte)).length = 256 ∧ (16 = 1 ∨ 16 = 2 ∨ 16 = 4 ∨ 16 = 16) := ⟨List.length_replicate, .inr (.inr (.inr rfl))⟩

theorem witness_AddressFields :
    (0x20 : Nat) = ((0x20 * 64 : BitVec 42).extractLsb' 6 36).toNat ∧ tDev.ways = 4 ∧ ({ tDev with rig := some { tRig with ways := 2 } } : Data).ways = 2 ∧
    ({ tDev with rig := some { tRig with ways := 1 } } : Data).ways = 1 := by decide +kernel

theorem witness_PowerFailStopsTheSealEngine : (tDev.modHlm fun h => { h with run := false }).hlm.run = false := by decide +kernel

end Sys2Proof.Machine
end

section
/-!
PROOFS. Writes of registers by field type, and the state after reset.
-/

namespace Sys2Proof.Machine

/-! ## Field masks, bit by bit (R9) -/

/-- Bit `i` of a register belongs to the field. -/
def Fld.covers (f : Fld) (i : Nat) : Prop := f.lo ≤ i ∧ i < f.lo + f.n

/-- No two fields of a register overlap. -/
theorem regRows_flds_apart : ∀ row ∈ regRows, row.flds.Pairwise fun f g => f.lo + f.n ≤ g.lo ∨ g.lo + g.n ≤ f.lo := by
  decide +kernel

theorem regRow_mem {a : Nat} {row : RegRow} (h : regRow a = some row) : row ∈ regRows := List.mem_of_find?_eq_some h

/-- Two fields of a register that hold the same bit are one. -/
theorem Fld.eq_of_covers {row : RegRow} (hr : row ∈ regRows) {f g : Fld} (hf : f ∈ row.flds) (hg : g ∈ row.flds) {i : Nat}
    (hfi : f.covers i) (hgi : g.covers i) : f = g := by
  obtain ⟨hf1, hf2⟩ := hfi
  obtain ⟨hg1, hg2⟩ := hgi
  by_contra hne
  have symm : Std.Symm fun f g : Fld => f.lo + f.n ≤ g.lo ∨ g.lo + g.n ≤ f.lo := ⟨fun _ _ => Or.symm⟩
  have apart := (regRows_flds_apart row hr).forall hf hg hne
  omega

theorem testBit_foldl_or (l : List Nat) (z i : Nat) :
    (l.foldl (· ||| ·) z).testBit i = (z.testBit i || l.any (·.testBit i)) := by
  induction l generalizing z with
  | nil => simp
  | cons x l ih => rw [List.foldl_cons, ih, Nat.testBit_or, List.any_cons, Bool.or_assoc]

theorem testBit_at_ones (n lo i : Nat) : (at_ (2 ^ n - 1) lo).testBit i = true ↔ lo ≤ i ∧ i < lo + n := by
  simp only [at_, Nat.testBit_shiftLeft, Nat.testBit_two_pow_sub_one, Bool.and_eq_true, decide_eq_true_eq]
  omega

/-- A bit of the register is in the mask of some access types just where a field of one of them holds it. -/
theorem accMask_getLsbD (row : RegRow) (p : Acc → Bool) {i : Nat} (hi : i < 32) :
    (accMask row p).getLsbD i = true ↔ ∃ f ∈ row.flds, p f.acc = true ∧ f.covers i := by
  simp only [accMask, BitVec.getLsbD_ofNat, hi, decide_true, Bool.true_and, testBit_foldl_or, Nat.zero_testBit, Bool.false_or,
    List.any_map, List.any_eq_true, Function.comp_apply]
  refine exists_congr fun f => and_congr_right fun _ => ?_
  split
  · rename_i hp; simp only [hp, testBit_at_ones, true_and]; rfl
  · rename_i hp; simp [hp]

/-- In a field the mask is the field's own access type. -/
theorem accMask_of_covers {row : RegRow} (hr : row ∈ regRows) {f : Fld} (hf : f ∈ row.flds) (p : Acc → Bool) {i : Nat}
    (hi : i < 32) (hfi : f.covers i) : (accMask row p).getLsbD i = p f.acc := by
  rw [Bool.eq_iff_iff, accMask_getLsbD row p hi]
  constructor
  · rintro ⟨g, hg, hp, hgi⟩
    rwa [Fld.eq_of_covers hr hf hg hfi hgi]
  · exact fun hp => ⟨f, hf, hp, hfi⟩

/-- A bit of no field is in no mask. -/
theorem accMask_of_no_fld {row : RegRow} (p : Acc → Bool) {i : Nat} (h : ∀ f ∈ row.flds, i < f.lo ∨ f.lo + f.n ≤ i) :
    (accMask row p).getLsbD i = false := by
  rcases Nat.lt_or_ge i 32 with hi | hi
  · rw [← Bool.not_eq_true, accMask_getLsbD row p hi]
    rintro ⟨f, hf, -, h1, h2⟩
    have := h f hf
    omega
  · exact BitVec.getLsbD_of_ge _ _ hi

/-- What a write leaves in a bit of a field of one access type (R9, R338). -/
def Acc.written (acc : Acc) (old v en : Bool) : Bool :=
  match acc with
  | .rw | .rws | .wo => if en then v else old
  | .w1c => old && !(v && en)
  | .w1s => old || (v && en)
  | .ro | .rc | .trg => old

/-- A write acts on each bit of a field by the field's access type. -/
theorem accApply_fld {row : RegRow} (hr : row ∈ regRows) {f : Fld} (hf : f ∈ row.flds) (old v en : Word) {i : Nat}
    (hfi : f.covers i) :
    (accApply row old v en).getLsbD i = f.acc.written (old.getLsbD i) (v.getLsbD i) (en.getLsbD i) := by
  rcases Nat.lt_or_ge i 32 with hi | hi
  · have hm p := accMask_of_covers hr hf p hi hfi
    generalize f.acc = acc at hm
    cases acc with
    | rw | rws | wo => exact accApply_rw row old v en i (hm _) (hm _) (hm _)
    | w1c => exact (accApply_w1c row old v en i (hm _) (hm _) (hm _)).trans (by rw [Bool.and_comm (en.getLsbD i)]; rfl)
    | w1s => exact (accApply_w1s row old v en i (hm _) (hm _) (hm _)).trans (by rw [Bool.and_comm (en.getLsbD i)]; rfl)
    | ro | rc | trg => exact accApply_ro row old v en i (hm _) (hm _) (hm _)
  · simp only [BitVec.getLsbD_of_ge _ _ hi]
    cases f.acc <;> rfl

/-- A bit of no field stands. -/
theorem accApply_no_fld {row : RegRow} (old v en : Word) {i : Nat} (h : ∀ f ∈ row.flds, i < f.lo ∨ f.lo + f.n ≤ i) :
    (accApply row old v en).getLsbD i = old.getLsbD i :=
  accApply_ro row old v en i (accMask_of_no_fld _ h) (accMask_of_no_fld _ h) (accMask_of_no_fld _ h)

/-! ## A write in a cycle in which the hardware has set bits of the register (R351) -/

theorem Data.cntLoad_of_no_was (d : Data) (c : Cyc) (a : Nat) (v en : Word)
    (h : ∀ row, regRow a = some row → ∀ f ∈ row.flds, SMap.get none c.was (32 * a + f.lo) = none) : d.cntLoad c a v en = d := by
  unfold Data.cntLoad
  split
  · rfl
  · next row hr => exact List.foldlRecOn row.flds _ (motive := (· = d)) rfl fun e he f hf => by simp only [h row hr f hf]; exact he

theorem Data.lateHold_of_no_late (d : Data) (c : Cyc) (a : Nat) (v en : Word) (h : SMap.get none c.late a = none) :
    d.lateHold c a v en = d := by
  unfold Data.lateHold
  rw [h]

/-- A write in whose cycle the hardware has counted and captured nothing in the register: the bits that the hardware has set are
not written. -/
theorem DM.writeReg_masked (x : DM) (r : Requester) (a : Nat) (v en : Word) (m : BitVec 67) (he : en ≠ 0)
    (hl : SMap.get none x.d.cycNow.late a = none)
    (hw : ∀ row, regRow a = some row → ∀ f ∈ row.flds, SMap.get none x.d.cycNow.was (32 * a + f.lo) = none) :
    x.writeReg r a v en m = x.writeAlone r a v (en &&& ~~~Data.hwSet x.d.cycNow (Data.cycReg r a)) m := by
  unfold DM.writeReg
  rw [if_neg he]
  simp only [Data.cntLoad_of_no_was _ _ a v en hw, Data.lateHold_of_no_late _ _ a v en hl]

theorem Data.cycNow_at (d : Data) : d.cycNow.at_ = d.now := by
  unfold Data.cycNow
  split
  · assumption
  · rfl

theorem Data.cycNow_stamp (d : Data) (a : Nat) (m : Word) :
    (d.stamp a m).cycNow = { d.cycNow with set := SMap.upd 0 d.cycNow.set a (· ||| m) } := if_pos d.cycNow_at

theorem Data.cycNow_regSet (d : Data) (a : Nat) (v : Word) : (d.regSet a v).cycNow = d.cycNow := rfl

theorem Data.cycNow_raise (d : Data) (a i : Nat) :
    (d.raise a i).cycNow = { d.cycNow with set := SMap.upd 0 d.cycNow.set a (· ||| BitVec.twoPow 32 i) } := by
  rw [Data.raise, Data.cycNow_stamp, Data.flagSet, Data.cycNow_regSet]

/-- A raised bit is set, and it is one of those that the hardware has set in this cycle. -/
theorem Data.flag_raise (d : Data) (a : Nat) {i : Nat} (hi : i < 32) : (d.raise a i).flag a i = true := by
  have : (d.raise a i).reg a = setBit (d.reg a) i true := Data.reg_regSet_self ..
  rw [Data.flag, this, setBit_true_get _ _ _ hi]
  simp

theorem Data.hwSet_raise (d : Data) (a : Nat) {i : Nat} (hi : i < 32) : (Data.hwSet (d.raise a i).cycNow a).getLsbD i = true := by
  rw [Data.cycNow_raise, Data.hwSet, SMap.get_upd_self, BitVec.getLsbD_or]
  simp [hi]

/-! ## A W1C bit: REJ of SLCn_CDIS -/

/-- REJ of SLCn_CDIS is bit 4, of type W1C. -/
theorem regRow_slcCdis_rej : ∀ n : Fin 8, ∃ row, regRow (Reg.slcCdis n.val) = some row ∧ (⟨4, 1, .w1c⟩ : Fld) ∈ row.flds := by
  decide +kernel

theorem cycReg_slcCdis (r : Requester) (n : Fin 8) : Data.cycReg r (Reg.slcCdis n.val) = Reg.slcCdis n.val :=
  if_neg (by simp only [Reg.slcCdis, Reg.regStat]; omega)

/-- A write of SLCn_CDIS that triggers neither GO nor EN writes the fields and does nothing else. -/
theorem DM.writeAlone_slcCdis (x : DM) (r : Requester) (n : Fin 8) (v en : Word) (m : BitVec 67) (h0 : v.getLsbD 0 = false)
    (h1 : v.getLsbD 1 = false) :
    x.writeAlone r (Reg.slcCdis n.val) v en m = { x with d := x.d.regWrite (Reg.slcCdis n.val) v en } := by
  have ho : Reg.slcCdis n.val % 0x10000 = 0x08 := by simp only [Reg.slcCdis]; omega
  have hg (i : Nat) (h : v.getLsbD i = false) : hit v en i = false := by rw [hit, h, Bool.false_and]
  rw [writeAlone_slc _ _ _ _ _ _ (by simp only [Reg.slcCdis]; omega)]
  simp [writeSlc, ho, hg 0 h0, hg 1 h1]

/-- What a write of SLCn_CDIS leaves in REJ. -/
theorem Data.flag_regWrite_rej (d : Data) (n : Fin 8) (v en : Word) :
    (d.regWrite (Reg.slcCdis n.val) v en).flag (Reg.slcCdis n.val) 4 =
      (d.flag (Reg.slcCdis n.val) 4 && !(v.getLsbD 4 && en.getLsbD 4)) := by
  obtain ⟨row, hrow, hf⟩ := regRow_slcCdis_rej n
  rw [Data.flag, d.reg_regWrite_self v en hrow, accApply_fld (regRow_mem hrow) hf _ _ _ ⟨by decide, by decide⟩]
  rfl

/-- A write of 1 to REJ clears it where the hardware does nothing to the register in the cycle. -/
theorem DM.rej_after_write (x : DM) (r : Requester) (n : Fin 8) (u : Word) (hq : x.d.quiet r (Reg.slcCdis n.val))
    (h0 : u.getLsbD 0 = false) (h1 : u.getLsbD 1 = false) :
    (x.writeReg r (Reg.slcCdis n.val) u 0xFFFFFFFF).d.flag (Reg.slcCdis n.val) 4 =
      (x.d.flag (Reg.slcCdis n.val) 4 && !u.getLsbD 4) := by
  rw [x.writeReg_quiet r _ u _ 0 (by decide) hq, x.writeAlone_slcCdis r n u _ 0 h0 h1, Data.flag_regWrite_rej]
  simp

/-- REJ that the hardware sets in the cycle of the write stays 1 (R351). -/
theorem DM.rej_raised_after_write (x : DM) (r : Requester) (n : Fin 8) (u : Word) (hq : x.d.quiet r (Reg.slcCdis n.val))
    (h0 : u.getLsbD 0 = false) (h1 : u.getLsbD 1 = false) :
    (({ x with d := x.d.raise (Reg.slcCdis n.val) 4 } : DM).writeReg r (Reg.slcCdis n.val) u 0xFFFFFFFF).d.flag
      (Reg.slcCdis n.val) 4 = true := by
  obtain ⟨-, hl, hw⟩ := hq
  have hset := x.d.hwSet_raise (Reg.slcCdis n.val) (i := 4) (by decide)
  rw [DM.writeReg_masked _ r _ u _ 0 (by decide) (by rw [Data.cycNow_raise]; exact hl) (by rw [Data.cycNow_raise]; exact hw),
    DM.writeAlone_slcCdis _ r n u _ 0 h0 h1, Data.flag_regWrite_rej, cycReg_slcCdis, Data.flag_raise _ _ (by decide)]
  simp [hset]

/-- Settles O46: each bit of a field takes what its access type gives it, since no two fields of a register overlap. -/
theorem fieldTypesOnWrite : Obligations.FieldTypesOnWrite := by
  intro d a row v en h
  have hr := regRow_mem h
  refine ⟨fun f hf i hlo hhi => ?_, fun i hi => ?_, fun b hb => d.reg_regWrite_other v en hb, fun x r n u hq h0 h1 =>
    ⟨x.rej_after_write r n u hq h0 h1, x.rej_raised_after_write r n u hq h0 h1⟩⟩
  · rw [d.reg_regWrite_self v en h]
    refine (accApply_fld hr hf _ v en ⟨hlo, hhi⟩).trans ?_
    cases f.acc <;> rfl
  · rw [d.reg_regWrite_self v en h]
    rcases hi with hoff | hno
    · exact accApply_off row _ v en i hoff
    · exact accApply_no_fld _ v en hno

/-! ## The state after reset (R9, R406, R414) -/

theorem reg_reset (a : Nat) : State.reset.d.reg a = regReset a := SMap.get_nil _ a

theorem domUp_reset : ∀ i : Fin 30, State.reset.d.domUp i = decide (i.val = 0) := by decide

theorem slices_reset (n : Fin 8) : State.reset.d.slices[n] = {} := Vector.getElem_replicate ..

theorem cnt_reset (c : Nat) : SMap.get 0 State.reset.d.pmc.cnt c = 0 := SMap.get_nil _ c

theorem que1_reset (q : Nat) : State.reset.d.que1 q = {} := SMap.get_nil _ q

/-- Settles O49: every map of the reset state is empty, so that each key reads as its default. -/
theorem resetState : Obligations.ResetState := by
  refine ⟨reg_reset, rfl, rfl, domUp_reset, fun n => ?_, rfl, rfl, rfl, rfl, cnt_reset, fun q => ?_, rfl, rfl⟩
  · rw [slices_reset]
    exact ⟨rfl, rfl⟩
  · rw [que1_reset]

end Sys2Proof.Machine
end

section
/-!
PROOFS. The architecture: how addresses split into fields, what a port does with an item toward its agent, and what becomes of an
agent's request from its port to its home slice.
-/

namespace Sys2Proof.Machine

/-! ## Fields of an address (R16, R17, R22, R70, R134, R135) -/

theorem toNat_extractLsb'_bits {w : Nat} (a : BitVec w) (lo n : Nat) : (a.extractLsb' lo n).toNat = bits a.toNat lo n := by
  rw [bits, BitVec.extractLsb'_toNat]

theorem bits_eq_div_mod (x lo n : Nat) : bits x lo n = x / 2 ^ lo % 2 ^ n := by rw [bits, Nat.shiftRight_eq_div_pow]

/-- A field of a field is a field. -/
theorem bits_bits (x lo n i m : Nat) (h : i + m ≤ n) : bits (bits x lo n) i m = bits x (lo + i) m := by
  refine Nat.eq_of_testBit_eq fun k => ?_
  simp only [bits, Nat.testBit_mod_two_pow, Nat.testBit_shiftRight]
  rcases Nat.lt_or_ge k m with hk | hk
  · have : i + k < n := by omega
    simp [hk, this, Nat.add_assoc]
  · simp [Nat.not_lt.mpr hk]

theorem toNat_append_add {m n : Nat} (x : BitVec m) (y : BitVec n) : (x ++ y).toNat = x.toNat * 2 ^ n + y.toNat := by
  rw [BitVec.toNat_append, ← Nat.shiftLeft_add_eq_or_of_lt y.isLt, Nat.shiftLeft_eq]

theorem toNat_zero_append {m n : Nat} (x : BitVec n) : (0#m ++ x).toNat = x.toNat := by
  simp

/-- Settles O37: a field of the line address is the field of the address that lies 11 bits higher. -/
theorem bucketHash : Obligations.BucketHash := by
  intro a
  have field (i m : Nat) (h : i + m ≤ 31) : bits (a.extractLsb' 11 31).toNat i m = (a.extractLsb' (11 + i) m).toNat := by
    rw [toNat_extractLsb'_bits, toNat_extractLsb'_bits, bits_bits _ _ _ _ _ h]
  rw [bucketOf, field 0 8 (by decide), field 8 8 (by decide), field 16 8 (by decide), field 24 7 (by decide)]
  simp only [BitVec.toNat_xor, toNat_zero_append]

theorem lineAt_tagOf_setOf {l : Nat} (h : l < 2 ^ 31) : lineAt (tagOf l) (setOf l) = l := by
  simp only [lineAt, tagOf, setOf, BitVec.toNat_ofNat]
  omega

theorem lineOf_bits (a : BitVec 42) : lineOf (bits a.toNat 6 36) = bits a.toNat 11 31 := by
  simp only [lineOf, bits_eq_div_mod]
  omega

theorem setOf_bits (a : BitVec 42) : setOf (bits a.toNat 11 31) = bits a.toNat 14 15 := by
  simp only [setOf, bits_eq_div_mod]
  omega

theorem tagOf_bits (a : BitVec 42) : tagOf (bits a.toNat 11 31) = a.extractLsb' 29 13 ++ a.extractLsb' 11 3 := by
  apply BitVec.eq_of_toNat_eq
  simp only [tagOf, BitVec.toNat_ofNat, toNat_append_add, toNat_extractLsb'_bits, bits_eq_div_mod]
  omega

theorem dsetOf_bits (a : BitVec 42) : dsetOf (bits a.toNat 6 36) = bits a.toNat 6 14 := by
  simp only [dsetOf, bits_eq_div_mod]
  omega

theorem bsetOf_bits (a : BitVec 42) : bsetOf (bits a.toNat 6 36) = bits a.toNat 6 21 ^^^ bits a.toNat 27 15 := by
  rw [bsetOf, bits_bits _ _ _ _ _ (by decide), bits_bits _ _ _ _ _ (by decide)]

/-- Two bits name the port of a 4-way interleave, and the port-local address leaves them out. -/
theorem Data.bkp_four_ways (d : Data) (h : d.ways = 4) (a : BitVec 42) :
    (d.bkpOf (bits a.toNat 6 36)).val = bits a.toNat 12 2 ∧
    d.bkpLocal (bits a.toNat 6 36) + bits a.toNat 0 6 = bits a.toNat 14 28 * 2 ^ 12 + bits a.toNat 0 12 := by
  simp only [Data.bkpOf, Data.bkpLocal, h, if_true, Fin.val_ofNat, bits_eq_div_mod]
  omega

theorem Data.bkp_two_ways (d : Data) (h : d.ways = 2) (a : BitVec 42) :
    (d.bkpOf (bits a.toNat 6 36)).val = bits a.toNat 12 1 ∧
    d.bkpLocal (bits a.toNat 6 36) + bits a.toNat 0 6 = bits a.toNat 13 29 * 2 ^ 12 + bits a.toNat 0 12 := by
  have h4 : ¬ (2 : Nat) = 4 := by decide
  simp only [Data.bkpOf, Data.bkpLocal, h, h4, if_true, if_false, Fin.val_ofNat, bits_eq_div_mod]
  omega

theorem Data.bkp_one_way (d : Data) (h : d.ways = 1) (a : BitVec 42) :
    d.bkpOf (bits a.toNat 6 36) = 0 ∧ d.bkpLocal (bits a.toNat 6 36) + bits a.toNat 0 6 = a.toNat := by
  have h4 : ¬ (1 : Nat) = 4 := by decide
  have h2 : ¬ (1 : Nat) = 2 := by decide
  have := a.isLt
  simp only [Data.bkpOf, Data.bkpLocal, h, h4, h2, if_false, bits_eq_div_mod, true_and]
  omega

/-- Settles O38: each field of the tables is a range of bits of the address. -/
theorem addressFields : Obligations.AddressFields := by
  rintro a _ _ rfl rfl
  rw [BitVec.toNat_xor, toNat_zero_append]
  simp only [toNat_append_add, toNat_extractLsb'_bits]
  exact ⟨lineOf_bits a, setOf_bits a, tagOf_bits a, lineAt_tagOf_setOf (Nat.mod_lt _ (by decide)), dsetOf_bits a, bsetOf_bits a,
    fun d => ⟨fun h => d.bkp_four_ways h a, fun h => d.bkp_two_ways h a, fun h => d.bkp_one_way h a⟩⟩

namespace Data

variable (d : Data)

/-! ## Items toward agents (R190) -/

/-- An item that is no snoop joins the transmit buffer of its port, with its instant. -/
theorem toAgent_queues {p : Agent} {it : TxItem} (hiso : d.ports[p].iso = false) (hcls : it.cls ≠ .snp) :
    d.toAgent p it = d.modPort p fun x => { x with tx := x.tx.concat { it with since := d.now } } := by
  simp only [toAgent, hiso, hcls, false_and, decide_false, Bool.false_eq_true, if_false]

theorem rspTo_queues {p : Agent} (op : BitVec 5) (g : BitVec 40) (peer : BitVec 4) (hiso : d.ports[p].iso = false) :
    d.rspTo p op g peer = d.modPort p fun x =>
      { x with tx := x.tx.concat { cls := .rsp, op := op, gaddr := g, peer := peer, since := d.now } } :=
  d.toAgent_queues hiso nofun

/-! ## The checks of a request at its port (R191) -/

theorem iso_of_portOpen {p : Agent} (h : d.portOpen p = true) : d.ports[p].iso = false := by
  simp only [portOpen, Bool.and_eq_true, Bool.not_eq_true'] at h
  exact h.2

theorem gaddr_toNat (g : BitVec 40) : gaddr g.toNat = g := by rw [gaddr, BitVec.ofNat_toNat, BitVec.setWidth_eq]

theorem reqCredit_of_no_credit {p : Agent} {r : Req} (h : r.cred = false) : d.reqCredit p r = d := by
  simp [reqCredit, h]

theorem reqLate_of_other_op {r : Req} (o : BitVec 5) (hop : r.op = o) (ho : (o == 5 || o == 6) = false) : d.reqLate r = false := by
  rw [reqLate, hop, ho, Bool.false_and]

theorem reqLate_before_drain (r : Req) (h : d.dur.phase = .run ∨ d.dur.phase = .recalling) : d.reqLate r = false := by
  rcases h with h | h <;> simp [reqLate, h]

/-- At an open port a request without an empty byte-enable slot meets the checks. -/
theorem reqItem_of_open {p : Agent} {g : BitVec 40} {bef : Bool} {r : Req} (hopen : d.portOpen p = true)
    (hbe : bef = true → r.be ≠ 0) : d.reqItem p g bef r = d.reqChecked p g r := by
  rw [reqItem, hopen, if_neg (by decide), if_neg fun h => hbe h.1 h.2]

theorem not_unmapped {g : BitVec 40} (hg : g.toNat < 2 ^ 36) (hmap : d.inMap g.toNat = true) :
    ¬(2 ^ 36 ≤ g.toNat ∨ (!d.inMap g.toNat) = true) := by
  rw [hmap]
  rintro (h | h)
  · exact Nat.not_le.mpr hg h
  · cases h

section Checks

variable {p : Agent} {g : BitVec 40} {r : Req} (hlate : d.reqLate r = false) (hga : r.ga = g.toNat)
include hlate hga

/-- Outside the backing map: RSP_ERR and the address-error event. -/
theorem reqChecked_unmapped (hcred : r.cred = false) (h : 2 ^ 36 ≤ g.toNat ∨ d.inMap g.toNat = false) :
    d.reqChecked p g r = (d.rspTo p 0x1E g).evApt p 9 := by
  unfold reqChecked
  rw [if_neg (by simp [hlate]), hga, if_pos (by simpa using h), reqCredit_of_no_credit _ hcred]

variable (hg : g.toNat < 2 ^ 36) (hmap : d.inMap g.toNat = true) (hmute : d.pairMute = false)
include hg hmap hmute

/-- In the map, with a bucket of the other member: REDIRECT. -/
theorem reqChecked_misdirected (hcred : r.cred = false) (hh : d.homed g.toNat = false) (hf : d.fencedAt g.toNat = false) :
    d.reqChecked p g r = d.redirect p g.toNat (d.memberOf g.toNat) := by
  unfold reqChecked
  rw [if_neg (by simp [hlate]), hga, if_neg (d.not_unmapped hg hmap), if_neg (by simp [hmute]), if_pos (by simp [hh, hf]),
    reqCredit_of_no_credit _ hcred]

/-- In the map, homed here or fenced: accepted. -/
theorem reqChecked_accepted (h : d.homed g.toNat = true ∨ d.fencedAt g.toNat = true) : d.reqChecked p g r = d.reqAccept p r := by
  unfold reqChecked
  have hhere : ¬((!d.homed g.toNat) = true ∧ (!d.fencedAt g.toNat) = true) := by rcases h with h | h <;> simp [h]
  rw [if_neg (by simp [hlate]), hga, if_neg (d.not_unmapped hg hmap), if_neg (by simp [hmute]), if_neg hhere]

end Checks

end Data

/-- Settles O13: an item of class DAT is no snoop, so that it changes the transmit buffer of its port alone. -/
theorem ownerDataIsSteeredToItsReceiver : Obligations.OwnerDataIsSteeredToItsReceiver := by
  intro d q it hiso hdat
  have hcls : it.cls ≠ .snp := by rw [hdat]; decide
  rw [d.toAgent_queues hiso hcls]
  exact ⟨by rw [Data.modPort_ports, vmod_self], fun p hp => vmod_other _ _ hp, rfl, rfl⟩

/-- Settles O8: none of the checks of the port catches the request. -/
theorem requestsAreAccepted : Obligations.RequestsAreAccepted := by
  intro p g s hopen hg hmap hmute hhome
  have accepted {bef : Bool} {r : Req} (hga : r.ga = g.toNat) (hlate : s.d.reqLate r = false) (hbe : bef = true → r.be ≠ 0) :
      s.d.reqItem p g bef r = s.d.reqAccept p r :=
    (s.d.reqItem_of_open hopen hbe).trans (s.d.reqChecked_accepted hlate hga hg hmap hmute hhome)
  refine ⟨?_, ?_, ?_, fun wt bef be dat hbe => ?_, fun hphase => ⟨?_, fun ch dat => ?_⟩⟩
  · exact exec_after rfl (accepted rfl (s.d.reqLate_of_other_op 1 rfl rfl) nofun)
  · exact exec_after rfl (accepted rfl (s.d.reqLate_of_other_op 2 rfl rfl) nofun)
  · exact exec_after rfl (accepted rfl (s.d.reqLate_of_other_op 3 rfl rfl) nofun)
  · exact exec_after rfl (accepted rfl (s.d.reqLate_of_other_op 4 rfl rfl) fun h => by simpa [h] using hbe h)
  · exact exec_after rfl (accepted rfl (s.d.reqLate_before_drain _ hphase) nofun)
  · exact exec_after rfl (accepted rfl (s.d.reqLate_before_drain _ hphase) nofun)

/-- Settles O10: the map is checked before pair state and home, and an open port queues the answer. -/
theorem unmappedRequestIsAnsweredAndChangesNoSlice : Obligations.UnmappedRequestIsAnsweredAndChangesNoSlice := by
  intro p g s hopen hmap
  have answered {bef : Bool} {r : Req} (hga : r.ga = g.toNat) (hcred : r.cred = false) (hlate : s.d.reqLate r = false)
      (hbe : bef = true → r.be ≠ 0) : s.d.reqItem p g bef r = (s.d.rspTo p 0x1E g).evApt p 9 :=
    (s.d.reqItem_of_open hopen hbe).trans (s.d.reqChecked_unmapped hlate hga hcred hmap)
  have hp : 576 + 24 * p.val + 9 < 1024 := by omega
  refine ⟨?_, ?_, ?_, fun wt be dat hbe => ?_, ?_, ?_, ?_⟩
  · exact exec_after rfl (answered rfl rfl (s.d.reqLate_of_other_op 1 rfl rfl) nofun)
  · exact exec_after rfl (answered rfl rfl (s.d.reqLate_of_other_op 2 rfl rfl) nofun)
  · exact exec_after rfl (answered rfl rfl (s.d.reqLate_of_other_op 3 rfl rfl) nofun)
  · exact exec_after rfl (answered rfl rfl (s.d.reqLate_of_other_op 4 rfl rfl) fun _ => hbe)
  · rw [Data.evApt_eq, Data.ev_slices, s.d.rspTo_queues _ _ _ (s.d.iso_of_portOpen hopen), Data.modPort_slices]
  · rw [Data.evApt_eq, Data.ev_ports, s.d.rspTo_queues _ _ _ (s.d.iso_of_portOpen hopen), Data.modPort_ports, vmod_self]
  · rw [Data.evApt_eq, Data.ev_latch _ _ _ hp, decide_eq_true rfl, Bool.true_or]

/-- Settles O11: fence and home are the last checks of the port, and an open port queues the answer. -/
theorem misdirectedRequestIsRedirected : Obligations.MisdirectedRequestIsRedirected := by
  intro p g s hopen hg hmap hmute hhome hfence
  have redirected {r : Req} (hga : r.ga = g.toNat) (hcred : r.cred = false) (hlate : s.d.reqLate r = false) :
      s.d.reqItem p g false r = s.d.redirect p g.toNat (s.d.memberOf g.toNat) :=
    (s.d.reqItem_of_open (bef := false) hopen nofun).trans (s.d.reqChecked_misdirected hlate hga hg hmap hmute hcred hhome hfence)
  refine ⟨?_, ?_, ?_, ?_⟩
  · exact exec_after rfl (redirected rfl rfl (s.d.reqLate_of_other_op 1 rfl rfl))
  · exact exec_after rfl (redirected rfl rfl (s.d.reqLate_of_other_op 2 rfl rfl))
  · rw [Data.redirect, Data.evApt_eq, Data.ev_slices, s.d.rspTo_queues _ _ _ (s.d.iso_of_portOpen hopen), Data.modPort_slices]
  · rw [Data.redirect, Data.evApt_eq, Data.ev_ports, s.d.rspTo_queues _ _ _ (s.d.iso_of_portOpen hopen), Data.modPort_ports,
      vmod_self, Data.gaddr_toNat]

/-! ## From the port to the home slice (R15, R21, R25) -/

theorem vmod_vmod {α : Type} {n : Nat} (v : Vector α n) (i : Fin n) (f g : α → α) :
    vmod (vmod v i f) i g = vmod v i fun x => g (f x) := by
  rw [vmod, vmod_self]
  simp [vmod]

namespace Data

variable (d : Data)

theorem reqWake_frame (r : Req) : ∃ pw, d.reqWake r = { d with pwr := pw } := by
  unfold reqWake
  split
  · exact ⟨d.pwr, rfl⟩
  · split
    · exact ⟨d.pwr, rfl⟩
    · exact d.domWake_frame _

/-- The record of announced WBs may change at port `p`, and nothing else, when a WB arrives. -/
theorem wbArrived_frame (p : Agent) (r : Req) :
    ∃ w, (if r.op == 6 then d.modPort p fun x => { x with wbs := x.wbs.erase r.ga } else d) =
      d.modPort p fun x => { x with wbs := w } := by
  split
  · exact ⟨d.ports[p].wbs.erase r.ga, rfl⟩
  · exact ⟨d.ports[p].wbs, congrArg (fun v => { d with ports := v }) (Vector.set_getElem_self p.isLt).symm⟩

theorem sampled_congr {d e : Data} (h : e.ilv = d.ilv) (ga : Nat) : e.sampled ga = d.sampled ga := by
  unfold sampled fencedAt homeOf ilvOf ilvAt
  rw [h]

/-- The request as its port holds it: its instant, its tag and the slice sampled from the interleave copy. -/
def heldReq (p : Agent) (r : Req) : Req := { (d.reqTag p r).2 with dst := d.sampled r.ga }

/-- Acceptance changes no slice, and of the ports `p` alone: the request joins its held list; the LFSR and the record of announced
WBs may change. -/
theorem reqAccept_frame (p : Agent) (r : Req) : (d.reqAccept p r).slices = d.slices ∧
    ∃ x w, (d.reqAccept p r).ports = vmod d.ports p fun y => { y with held := y.held.concat (d.heldReq p r), lfsr := x, wbs := w } := by
  obtain ⟨x, hports⟩ := d.reqTag_ports p r
  obtain ⟨w, hwb⟩ := (d.reqTag p r).1.wbArrived_frame p (d.heldReq p r)
  obtain ⟨pw, hwake⟩ := ((d.reqTag p r).1.modPort p fun y => { y with wbs := w }).reqWake_frame (d.heldReq p r)
  have hacc : d.reqAccept p r = ({ ((d.reqTag p r).1.modPort p fun y => { y with wbs := w }) with pwr := pw } : Data).modPort p
      fun y => { y with held := y.held.concat (d.heldReq p r) } := by
    rw [← hwake, ← hwb, heldReq, ← sampled_congr (d.reqTag_ilv p r)]
    rfl
  rw [hacc]
  refine ⟨d.reqTag_slices p r, x, w, ?_⟩
  simp only [modPort_ports, hports, vmod_vmod]

/-- The next request of a port for a slice is held by nothing and goes to that slice. -/
theorem reqNext_ready {n : SliceId} {p : Agent} {r : Req} (h : d.reqNext n p = some r) :
    d.reqHeld r = false ∧ d.reqDst r = some n := by
  have := List.find?_some h
  simp only [Bool.and_eq_true, Bool.not_eq_true', beq_iff_eq] at this
  exact this.1

/-- A pass that is queued joins the waiting passes of its slice, at the end. -/
theorem await_slices (n : SliceId) (k : WKind) (loc : Loc) (dis : Option Bool) : (d.await n k loc dis).slices =
    vmod d.slices n fun s => { s with waiters := s.waiters.concat { seq := d.seq, since := d.now, kind := k, loc := loc, cdis := dis } } :=
  rfl

theorem await_ports (n : SliceId) (k : WKind) (loc : Loc) (dis : Option Bool) : (d.await n k loc dis).ports = d.ports := rfl

theorem reqGrant_slices (n : SliceId) {p : Agent} {r : Req} (hcred : r.cred = false) :
    (d.reqGrant n p r).slices = vmod d.slices n fun s => { s with
      arb := (p.val + 1) % 16, arbAt := some d.now
      waiters := s.waiters.concat { seq := d.seq, since := d.now, kind := .req r, loc := .input } } := by
  simp only [reqGrant, await_slices, reqCredit_of_no_credit _ hcred, modSlice_slices, vmod_vmod]
  rfl

theorem reqGrant_ports (n : SliceId) {p : Agent} {r : Req} (hcred : r.cred = false) :
    (d.reqGrant n p r).ports = vmod d.ports p fun x => { x with held := x.held.erase r } := by
  simp only [reqGrant, await_ports, reqCredit_of_no_credit _ hcred, modSlice_ports, modPort_ports]

/-- In a cycle a slice is granted nothing, or the next request of one port. -/
theorem arbitrate_cases (n : SliceId) : d.arbitrate n = d ∨ ∃ p r, d.reqNext n p = some r ∧ d.arbitrate n = d.reqGrant n p r := by
  unfold arbitrate
  split
  · exact .inl rfl
  · dsimp only
    split
    · next p r h =>
      obtain ⟨q, -, hq⟩ := List.exists_of_findSome?_eq_some h
      obtain ⟨r', hr', e⟩ := Option.map_eq_some_iff.mp hq
      obtain ⟨rfl, rfl⟩ := Prod.mk.inj e
      exact .inr ⟨q, r', hr', rfl⟩
    · exact .inl rfl

end Data

/-- Settles O9: acceptance, the grant of a slice, and one grant in a cycle. -/
theorem acceptedRequestWaitsAtItsHome : Obligations.AcceptedRequestWaitsAtItsHome := by
  refine ⟨fun d p r => ?_, fun d n p r hnext hcred => ?_, fun d n => ⟨fun h => if_pos h, fun _ => d.arbitrate_cases n⟩⟩
  · obtain ⟨hslices, x, w, hports⟩ := d.reqAccept_frame p r
    obtain ⟨t0, tag, htag⟩ := d.reqTag_req p r
    rw [hports]
    exact ⟨⟨t0, tag, by rw [vmod_self, Data.heldReq, htag]⟩, hslices, fun q hq => vmod_other _ _ hq⟩
  · rw [d.reqGrant_slices n hcred, d.reqGrant_ports n hcred, vmod_self, vmod_self]
    exact ⟨rfl, rfl, fun m hm => vmod_other _ _ hm, rfl, fun q hq => vmod_other _ _ hq, d.reqNext_ready hnext⟩

end Sys2Proof.Machine
end

section
/-!
PROOFS. The rig: the commands of a runtime reload, from GO to the switch or to the abandonment.
-/

namespace Sys2Proof.Machine

namespace Data

variable (d : Data)

/-! ## GO (R61, steps 1 to 6) -/

/-- The device once GO has accepted the staged rig `r` in place of `o`: the reload is open with its held and its cleaned ranges. -/
def reloadOpened (o r : Rig) : Data :=
  { d with
    rigErr := 0, rigErrSec := 0
    reload := some
      { rig := r, start := d.now, hold := regionDiff affected o.regions r.regions
        clean := regionDiff cleansed o.regions r.regions } }

/-- Who owns what stands in the slices and the store, and which slices serve in the rig and the service record. -/
theorem rangeOwned_reloadOpened (o r : Rig) (rs : List (Nat × Nat)) : (d.reloadOpened o r).rangeOwned rs = d.rangeOwned rs := rfl

/-- Past the checks of GO the reload is open, with a clean-and-invalidate in every slice in service for each cleaned range. -/
theorem reloadGo_opens {f : List Host.Cell} {o r : Rig} (hopen : d.reload = none) (hbyp : d.byp = 0) (hrig : d.rig = some o)
    (hcheck : rigCheck d.fuses (!o.slot) (fun a n => flashRead f (flRig (!o.slot) + a) n) (some o) = .ok r)
    (howned : d.rangeOwned (regionDiff cleansed o.regions r.regions) = false) :
    d.reloadGo f = (regionDiff cleansed o.regions r.regions).foldl
      (fun (d : Data) x => d.mntAccept .reload d.serving 2 0 (x.1 / 32) (x.2 / 32) 0 0 none) (d.reloadOpened o r) := by
  have hold : d.rig.getD {} = o := by rw [hrig, Option.getD_some]
  have hslot : (!(d.rig.isSome && o.slot)) = !o.slot := by rw [hrig, Option.isSome_some, Bool.true_and]
  rw [← d.rangeOwned_reloadOpened o r] at howned
  unfold reloadGo
  rw [if_neg (by simp [hopen]), if_neg (not_not_intro hbyp)]
  simp only [hold, hslot, hcheck]
  exact if_neg (Bool.eq_false_iff.mp howned)

/-! ## The partner's readiness (R65) -/

/-- A device in no pair waits for nobody; in a pair the partner has reported the same RIG_SEQ, and the reload has not run out since. -/
theorem reloadMate_iff (r : Reload) : d.reloadMate r = true ↔
    d.pair.st ≠ .paired ∨ (d.pair.rld = some (BitVec.ofNat 32 r.rig.seq) ∧ r.readyAt < d.pair.rldAt + ms 10) := by
  simp [reloadMate]

/-- The partner has not reported this RIG_SEQ. -/
theorem reloadMate_eq_false {r : Reload} (hpair : d.pair.st = .paired) (hrld : d.pair.rld ≠ some (BitVec.ofNat 32 r.rig.seq)) :
    d.reloadMate r = false := by
  rw [Bool.eq_false_iff, Ne, reloadMate_iff]
  rintro (hst | ⟨hsame, -⟩)
  · exact hst hpair
  · exact hrld hsame

theorem rldRecv_of_paired (seq : Word) (hpair : d.pair.st = .paired) :
    d.rldRecv seq = d.modPair fun p => { p with rld := some seq, rldAt := d.now } := if_pos hpair

/-! ## How an open reload ends (R61 step 7, R63, R65) -/

section Open

variable {d} {r : Reload} (hopen : d.reload = some r)
include hopen

theorem reloadSwitch_of_ready (hready : r.ready = true) (hquiet : d.reloadQuiet r = true) (hmate : d.reloadMate r = true) :
    d.reloadSwitch = d.reloadApply r.rig := by
  simp only [reloadSwitch, hopen, hready, hquiet, hmate, Bool.and_self, if_true]

theorem reloadTimeout_of_due (hdue : r.start + ms 50 ≤ d.now) : d.reloadTimeout = d.reloadAbandon 0x0F := by
  simp only [reloadTimeout, hopen, hdue, if_true]

theorem reloadPartnerTimeout_of_due (hready : r.ready = true) (hmate : d.reloadMate r = false)
    (hdue : r.readyAt + ms 10 ≤ d.now) : d.reloadPartnerTimeout = d.reloadAbandon 0x11 := by
  simp only [reloadPartnerTimeout, hopen, hready, hmate, hdue, Bool.not_false, Bool.and_self, decide_true, if_true]

end Open

end Data

/-- A write of 1 to RIG_RELOAD.GO starts a reload from the flash. -/
theorem DM.writeAlone_rigReload_go (x : DM) (r : Requester) (m : BitVec 67) :
    x.writeAlone r Reg.rigReload 1 1 m = { x with d := (x.d.regWrite Reg.rigReload 1 1).reloadGo x.m.flash } := by
  rw [writeAlone_rig _ _ _ _ _ _ (by decide), writeRig, if_neg (by decide), if_pos rfl, if_pos (by decide)]

/-- Settles O15: GO passes each of its checks, and the other four commands find the condition of their own branch. -/
theorem reloadCommandsComplete : Obligations.ReloadCommandsComplete := by
  refine ⟨fun s o r hreach hopen hbyp hrig hcheck howned => ?_,
    fun s r hopen => ⟨fun hready hquiet hmate => ?_, fun hdue => ?_, fun hready hpair hrld hdue => ?_⟩, fun seq s hpair => ?_⟩
  · refine exec_afterDM_data rfl ?_
    obtain ⟨regs, hwrite⟩ := s.d.regWrite_eq Reg.rigReload 1 1
    rw [State.trigger_reaches hreach _ _ _ (by decide), DM.writeAlone_rigReload_go, State.begun_d, hwrite]
    exact congrArg (fun d => { s.begun with d := d }) (Data.reloadGo_opens { s.d with regs := regs } hopen hbyp hrig hcheck howned)
  · exact exec_after rfl (Data.reloadSwitch_of_ready hopen hready hquiet ((s.d.reloadMate_iff r).mpr hmate))
  · exact exec_after rfl (Data.reloadTimeout_of_due hopen hdue)
  · exact exec_after rfl (Data.reloadPartnerTimeout_of_due hopen hready (s.d.reloadMate_eq_false hpair hrld) hdue)
  · exact exec_after rfl (s.d.rldRecv_of_paired seq hpair)

end Sys2Proof.Machine
end

section
/-!
PROOFS. The addressed memories: the flash and the cache store are in their canonical form at reset.
-/

namespace Sys2Proof.Machine

theorem memoryWf_iff (s : State) : Memory.wf s = true ↔ SMap.wf (0xFF : Byte) s.m.flash ∧ s.d.storeOk := by
  rw [Memory.wf, Bool.and_eq_true, flashOk_iff, SMap.ok_iff, Data.storeOk]

/-- The flash of the reset state lists no byte, so that every byte reads as erased (R367). -/
theorem flash_reset : State.reset.m.flash = [] := rfl

/-- The store of the reset state lists no codeword (R86). -/
theorem cw_reset : State.reset.d.store.cw = [] := rfl

/-- Settles O50: both memories of the reset state list nothing, and a map that lists nothing is in canonical form. -/
theorem memoryCanonicalAtReset : Obligations.MemoryCanonicalAtReset := by
  refine (memoryWf_iff State.reset).mpr ⟨?flash, ?store⟩
  case flash => rw [flash_reset]; exact SMap.wf_nil _
  case store => rw [Data.storeOk, cw_reset]; exact SMap.wf_nil _

end Sys2Proof.Machine
end

section
/-!
PROOFS. The slice pipeline: which pass a slice admits, what its passes, its write buffer and its timers do where they are due, and
what the cache controls and the resets leave.
-/

namespace Sys2Proof.Machine

/-! ## The smallest element by a key -/

section MinBy

variable {α : Type} (key : α → Nat)

theorem minBy_eq_none_iff (l : List α) : minBy key l = none ↔ l = [] := by
  cases l with
  | nil => exact iff_of_true rfl rfl
  | cons x xs =>
    refine iff_of_false ?_ (List.cons_ne_nil x xs)
    unfold minBy
    split
    · exact Option.some_ne_none x
    · split <;> exact Option.some_ne_none _

/-- What `minBy` answers is of the list, and no element has a smaller key. -/
theorem minBy_spec {l : List α} {c : α} (h : minBy key l = some c) : c ∈ l ∧ ∀ x ∈ l, key c ≤ key x := by
  induction l generalizing c with
  | nil => cases h
  | cons x xs ih =>
    unfold minBy at h
    split at h
    next hnone =>
      obtain rfl := (minBy_eq_none_iff key xs).mp hnone
      cases h
      simp
    next y hy =>
      obtain ⟨hmem, hle⟩ := ih hy
      split at h
      next hlt =>
        cases h
        exact ⟨List.mem_cons_of_mem _ hmem, List.forall_mem_cons.mpr ⟨hlt.le, hle⟩⟩
      next hge =>
        cases h
        exact ⟨List.mem_cons_self, List.forall_mem_cons.mpr ⟨le_rfl, fun z hz => (not_lt.mp hge).trans (hle z hz)⟩⟩

end MinBy

/-! ## Which pass is admitted (R92, R93) -/

namespace Data

variable (d : Data) (n : SliceId)

/-- The passes that have waited 64 cycles for admission. -/
def overdue : List Cand := (d.cands n).filter fun c => decide (c.since + 64 ≤ d.now)

theorem mem_overdue {c : Cand} : c ∈ d.overdue n ↔ c ∈ d.cands n ∧ c.since + 64 ≤ d.now := by
  rw [overdue, List.mem_filter, decide_eq_true_iff]

/-- A pass of the highest priority that waits, and the oldest of that priority. -/
def firstByPrio : Option Cand :=
  (minBy (·.prio) (d.cands n)).bind fun c => minBy (·.seq) ((d.cands n).filter fun x => x.prio == c.prio)

/-- An overdue pass goes first; where there is none, priority decides. -/
theorem admitNext_eq : d.admitNext n = (minBy (·.seq) (d.overdue n)).or (d.firstByPrio n) := by
  unfold admitNext firstByPrio overdue
  dsimp only
  cases minBy (·.seq) ((d.cands n).filter fun c => decide (c.since + 64 ≤ d.now)) with
  | some c => rfl
  | none => cases minBy (·.prio) (d.cands n) <;> rfl

theorem firstByPrio_eq_none_iff : d.firstByPrio n = none ↔ d.cands n = [] := by
  unfold firstByPrio
  cases h : minBy (·.prio) (d.cands n) with
  | none => exact iff_of_true rfl ((minBy_eq_none_iff _ _).mp h)
  | some c =>
    obtain ⟨hmem, -⟩ := minBy_spec _ h
    refine iff_of_false (fun he => ?_) (List.ne_nil_of_mem hmem)
    have hno := (minBy_eq_none_iff _ _).mp he
    exact List.ne_nil_of_mem (List.mem_filter.mpr ⟨hmem, beq_self_eq_true c.prio⟩) hno

theorem firstByPrio_spec {c : Cand} (h : d.firstByPrio n = some c) :
    c ∈ d.cands n ∧ ∀ x ∈ d.cands n, c.prio ≤ x.prio ∧ (x.prio = c.prio → c.seq ≤ x.seq) := by
  obtain ⟨b, hb, hc⟩ := Option.bind_eq_some_iff.mp h
  obtain ⟨-, hprio⟩ := minBy_spec _ hb
  obtain ⟨hmem, hseq⟩ := minBy_spec _ hc
  obtain ⟨hcand, heq⟩ := List.mem_filter.mp hmem
  have hcb : c.prio = b.prio := eq_of_beq heq
  refine ⟨hcand, fun x hx => ⟨hcb ▸ hprio x hx, fun hxc => hseq x (List.mem_filter.mpr ⟨hx, ?_⟩)⟩⟩
  rw [hxc, hcb, beq_self_eq_true]

theorem overdue_eq_nil_iff : d.overdue n = [] ↔ ∀ x ∈ d.cands n, d.now < x.since + 64 := by
  simp only [overdue, List.filter_eq_nil_iff, decide_eq_true_iff, not_le]

end Data

/-- Settles O53: the oldest overdue pass where there is one, else the choice by priority. -/
theorem admissionOrder : Obligations.AdmissionOrder := by
  intro d n
  rw [d.admitNext_eq n]
  cases hover : minBy (·.seq) (d.overdue n) with
  | none =>
    have hnone := (d.overdue_eq_nil_iff n).mp ((minBy_eq_none_iff _ _).mp hover)
    rw [Option.none_or]
    refine ⟨d.firstByPrio_eq_none_iff n, fun c hc => ?_⟩
    obtain ⟨hmem, hfirst⟩ := d.firstByPrio_spec n hc
    exact ⟨hmem, fun ⟨x, hx, hdue⟩ => absurd hdue (hnone x hx).not_ge, fun _ => hfirst⟩
  | some b =>
    obtain ⟨hb, hseq⟩ := minBy_spec _ hover
    obtain ⟨hmem, hdue⟩ := (d.mem_overdue n).mp hb
    rw [Option.some_or]
    refine ⟨iff_of_false (Option.some_ne_none b) (List.ne_nil_of_mem hmem), ?_⟩
    rintro c ⟨⟩
    exact ⟨hmem, fun _ => ⟨hdue, fun x hx hxdue => hseq x ((d.mem_overdue n).mpr ⟨hx, hxdue⟩)⟩,
      fun h => absurd hdue (h _ hmem).not_ge⟩

/-! ## What resets leave (R126, R414) -/

theorem Data.slices_coldReset (d : Data) (n : Fin 8) : d.coldReset.slices[n] = {} := Vector.getElem_replicate ..

/-- A warm reset keeps a register just where it lies in D0. -/
theorem Data.reg_warmReset (d : Data) (a : Nat) : d.warmReset.reg a = if regDom a = some 0 then d.reg a else regReset a :=
  (SMap.get_filter (regReset a) d.regs (fun k => regDom k == some 0) a).trans (if_congr beq_iff_eq rfl rfl)

/-- Settles O59: of each register file a cold reset keeps nothing and a warm one what lies in D0; the rest are reset values. -/
theorem resetsReach : Obligations.ResetsReach := by
  intro d
  have hslices (n : Fin 8) : d.warmReset.slices[n] = {} := d.slices_coldReset n
  refine ⟨rfl, rfl, fun n => ?_, rfl, rfl, rfl, rfl, fun a => SMap.get_nil _ a, d.reg_warmReset, rfl, rfl, rfl, rfl, rfl, rfl, rfl⟩
  rw [hslices n, d.slices_coldReset n]
  exact ⟨rfl, rfl, rfl, rfl⟩

/-! ## Cache controls (R121 to R128) -/

/-- What a write of SLCn_CDIS triggers, beside the fields that it writes. -/
theorem DM.writeAlone_slcCdis_eq (x : DM) (r : Requester) (n : Fin 8) (v en : Word) (m : BitVec 67) :
    x.writeAlone r (Reg.slcCdis n.val) v en m =
      let d := x.d.regWrite (Reg.slcCdis n.val) v en
      { x with d :=
          if hit v en 0 && hit v en 1 then (d.raise (Reg.slcCdis n.val) 4).evSlc n 10
          else if hit v en 0 then d.slcDis n
          else if hit v en 1 then d.slcEn n
          else d } := by
  have ho : Reg.slcCdis n.val % 0x10000 = 0x08 := by simp only [Reg.slcCdis]; omega
  have hn : (Fin.ofNat 8 ((Reg.slcCdis n.val - 0x100000) / 0x10000) : SliceId) = n :=
    slc_index 8 (by simp only [Reg.slcCdis]; omega) (by decide)
  rw [writeAlone_slc _ _ _ _ _ _ (by simp only [Reg.slcCdis]; omega), writeSlc, if_pos ho, hn]

theorem DM.writeAlone_slcCdis_dis (x : DM) (r : Requester) (n : Fin 8) (m : BitVec 67) :
    x.writeAlone r (Reg.slcCdis n.val) 1 1 m = { x with d := (x.d.regWrite (Reg.slcCdis n.val) 1 1).slcDis n } :=
  x.writeAlone_slcCdis_eq r n 1 1 m

theorem DM.writeAlone_slcCdis_en (x : DM) (r : Requester) (n : Fin 8) (m : BitVec 67) :
    x.writeAlone r (Reg.slcCdis n.val) 2 2 m = { x with d := (x.d.regWrite (Reg.slcCdis n.val) 2 2).slcEn n } :=
  x.writeAlone_slcCdis_eq r n 2 2 m

/-- RGN of TOP_CBYP_CTL is bits 0 to 5, of type RW. -/
theorem regRow_topCbypCtl_rgn : ∃ row, regRow Reg.topCbypCtl = some row ∧ (⟨0, 6, .rw⟩ : Fld) ∈ row.flds := by decide +kernel

/-- A write of TOP_CBYP_CTL that triggers bits above RGN leaves the region that it names in RGN. -/
theorem Data.fld_regWrite_rgn (d : Data) (r : BitVec 6) {trg : Word} (h : trg.extractLsb' 0 6 = 0) :
    (d.regWrite Reg.topCbypCtl (r.setWidth 32 ||| trg) 0xFF).fld Reg.topCbypCtl 0 6 = r.toNat := by
  obtain ⟨row, hrow, hf⟩ := regRow_topCbypCtl_rgn
  have hm (p : Acc → Bool) (i : Nat) (hi : i < 6) : (accMask row p).getLsbD (0 + i) = p .rw :=
    accMask_of_covers (regRow_mem hrow) hf p (by omega) ⟨Nat.zero_le _, Nat.add_lt_add_left hi 0⟩
  rw [d.fld_regWrite_rw _ _ _ 0 6 hrow fun i hi => ⟨hm _ i hi, hm _ i hi, hm _ i hi, ?on⟩, bits_eq_extract]
  case on => interval_cases i <;> rfl
  congr 1
  have : (r.setWidth 32 ||| trg).extractLsb' 0 6 = r ||| trg.extractLsb' 0 6 := by
    ext i hi
    have hi' : i < 32 := by omega
    simp [hi', BitVec.getLsbD_eq_getElem hi]
  rw [this, h]
  exact BitVec.or_zero

section CacheBypass

variable (x : DM) (req : Requester) (r : BitVec 6) (m : BitVec 67)

theorem region_ofNat : (Fin.ofNat 64 r.toNat : Fin 64) = r.toFin := Fin.ext (Nat.mod_eq_of_lt r.isLt)

/-- A bit above RGN is triggered just where `trg` has it. -/
theorem DM.hit_above_rgn (trg : Word) {i : Nat} (h6 : 6 ≤ i) (h8 : i < 8) : hit (r.setWidth 32 ||| trg) 0xFF i = trg.getLsbD i := by
  interval_cases i <;> simp [hit]

/-- What a write of TOP_CBYP_CTL triggers for the region that it names, beside the fields that it writes. -/
theorem DM.writeAlone_topCbypCtl_eq {trg : Word} (h : trg.extractLsb' 0 6 = 0) :
    x.writeAlone req Reg.topCbypCtl (r.setWidth 32 ||| trg) 0xFF m =
      let d := x.d.regWrite Reg.topCbypCtl (r.setWidth 32 ||| trg) 0xFF
      { x with d :=
          if trg.getLsbD 6 && trg.getLsbD 7 then (d.raise Reg.topCbypCtl 8).evSlices 10
          else if trg.getLsbD 6 then d.bypDis r.toFin
          else if trg.getLsbD 7 then d.bypEn r.toFin
          else d } := by
  rw [writeAlone_top _ _ _ _ _ _ (by decide), writeTop, if_neg (by decide), if_pos rfl, x.d.fld_regWrite_rgn r h, region_ofNat,
    hit_above_rgn r trg (by decide) (by decide), hit_above_rgn r trg (by decide) (by decide)]

theorem DM.writeAlone_topCbypCtl_dis : x.writeAlone req Reg.topCbypCtl (r.setWidth 32 ||| 0x40) 0xFF m =
    { x with d := (x.d.regWrite Reg.topCbypCtl (r.setWidth 32 ||| 0x40) 0xFF).bypDis r.toFin } :=
  x.writeAlone_topCbypCtl_eq req r m (by decide)

theorem DM.writeAlone_topCbypCtl_en : x.writeAlone req Reg.topCbypCtl (r.setWidth 32 ||| 0x80) 0xFF m =
    { x with d := (x.d.regWrite Reg.topCbypCtl (r.setWidth 32 ||| 0x80) 0xFF).bypEn r.toFin } :=
  x.writeAlone_topCbypCtl_eq req r m (by decide)

end CacheBypass

namespace Data

variable (d : Data)

theorem slcDis_of_clean {n : SliceId} (hen : d.slices[n].cdis = false) (hclean : d.rangeDirty n none = false) :
    d.slcDis n = ((d.modSlice n fun s => { s with cdis := true, cdisAt := d.seq }).rangeSide n none).evSlc n 8 := by
  rw [slcDis, hen, if_neg (by decide), hclean, if_neg (by decide)]

theorem slcEn_of_not_stale {n : SliceId} (hdis : d.slices[n].cdis = true) (hstale : d.flag (Reg.slcCdis n.val) 3 = false) :
    d.slcEn n = (d.modSlice n fun s => { s with cdis := false }).evSlc n 9 := by
  rw [slcEn, hdis, if_neg (by decide), hstale, if_neg (by decide)]

theorem bypDis_of_clean {r : Fin 64} (hen : d.byp.getLsbD r.val = false) (hopen : d.reload = none)
    (hclean : ∀ n ∈ d.activeSlices, d.rangeDirty n (some r.val) = false) :
    d.bypDis r = (d.activeSlices.foldl (fun (d : Data) n => d.rangeSide n (some r.val))
      { d with byp := setBit d.byp r.val true, bypAt := SMap.set 0 d.bypAt r.val d.seq }).evSlices 8 := by
  have hany : ¬(d.reload.isSome = true ∨ (d.activeSlices.any fun n => d.rangeDirty n (some r.val)) = true) := by
    rw [hopen, List.any_eq_false.mpr fun n hn => Bool.eq_false_iff.mp (hclean n hn)]
    decide
  rw [bypDis, hen, if_neg (by decide), if_neg hany]
  rfl

theorem bypEn_of_not_stale {r : Fin 64} (hdis : d.byp.getLsbD r.val = true) (hstale : d.bypStale.getLsbD r.val = false) :
    d.bypEn r = ({ d with byp := setBit d.byp r.val false } : Data).evSlices 9 := by
  rw [bypEn, hdis, if_neg (by decide), hstale, if_neg (by decide)]

end Data

/-- A control whose write reaches its register leaves what the write leaves in the device, and the cluster as it found it. -/
theorem State.trigger_data {s : State} {a : Nat} (h : s.Reaches a) {v en : Word} (he : en ≠ 0) {d d' : Data}
    (hw : s.begun.writeAlone 16 a v en 0 = { s.begun with d := d }) (hd : d = d') :
    s.begun.trigger a v en = { s.begun with d := d' } := by
  rw [State.trigger_reaches h v en 0 he, hw, hd]

/-- Settles O14: each write triggers its own control, whose checks read nothing that the write of the fields has changed. -/
theorem cacheControlsComplete : Obligations.CacheControlsComplete := by
  refine ⟨fun n s hreach => ⟨fun hen hclean => ?slcDis, fun hdis hstale => ?slcEn⟩,
    fun r s hreach => ⟨fun hen hopen hclean => ?bypDis, fun hdis hstale => ?bypEn⟩⟩
  case slcDis =>
    refine exec_afterDM_data rfl (State.trigger_data hreach (by decide) (DM.writeAlone_slcCdis_dis _ _ n _) ?_)
    obtain ⟨regs, hwrite⟩ := s.d.regWrite_eq (Reg.slcCdis n.val) 1 1
    rw [State.begun_d, hwrite]
    exact Data.slcDis_of_clean { s.d with regs := regs } hen hclean
  case slcEn =>
    refine exec_afterDM_data rfl (State.trigger_data hreach (by decide) (DM.writeAlone_slcCdis_en _ _ n _) ?_)
    have hst : (s.d.regWrite (Reg.slcCdis n.val) 2 2).flag (Reg.slcCdis n.val) 3 = false :=
      (s.d.flag_regWrite_off _ _ _ 3 (by decide)).trans hstale
    obtain ⟨regs, hwrite⟩ := s.d.regWrite_eq (Reg.slcCdis n.val) 2 2
    rw [hwrite] at hst
    rw [State.begun_d, hwrite]
    exact Data.slcEn_of_not_stale { s.d with regs := regs } hdis hst
  case bypDis =>
    refine exec_afterDM_data rfl (State.trigger_data hreach (by decide) (DM.writeAlone_topCbypCtl_dis _ _ r _) ?_)
    obtain ⟨regs, hwrite⟩ := s.d.regWrite_eq Reg.topCbypCtl (r.setWidth 32 ||| 0x40) 0xFF
    rw [State.begun_d, hwrite]
    exact Data.bypDis_of_clean { s.d with regs := regs } hen hopen hclean
  case bypEn =>
    refine exec_afterDM_data rfl (State.trigger_data hreach (by decide) (DM.writeAlone_topCbypCtl_en _ _ r _) ?_)
    obtain ⟨regs, hwrite⟩ := s.d.regWrite_eq Reg.topCbypCtl (r.setWidth 32 ||| 0x80) 0xFF
    rw [State.begun_d, hwrite]
    exact Data.bypEn_of_not_stale { s.d with regs := regs } hdis hstale

/-! ## The write buffer (R103, R106 to R108, R217) -/

namespace Data

variable (d : Data)

/-- A ready port takes the oldest entry that may be sent; a full one before a power failure is counted once. -/
theorem wbSend_of_full {b : BkpId} {n : SliceId} {e : WbEnt} (hready : d.bkps[b].st = .ready) (hmay : d.mayWrite = true)
    (hup : d.domUp (bkpDom b) = true)
    (hnext : minBy (fun x => x.2.uid) (allSlices.flatMap fun n => (d.wbSendable n b).map fun e => (n, e)) = some (n, e))
    (htr : d.dur.tr = none) (hfull : e.be = beAll) :
    d.wbSend b = (d.modWb n (fun x => x.uid == e.uid) fun x => { x with sent := some d.now }).pmcBkp b 1 := by
  have hopen : ¬(d.bkps[b].st ≠ .ready ∨ (!d.mayWrite) = true ∨ (!d.domUp (bkpDom b)) = true) := by
    rw [hready, hmay, hup]
    decide
  have hrun : ((d.modWb n (fun x => x.uid == e.uid) fun x => { x with sent := some d.now }).pmcBkp b 1).dur.tr = none := by
    rw [pmcBkp_eq, tally_dur]
    exact htr
  rw [wbSend, if_neg hopen]
  simp only [hnext, hfull, if_true, hrun, Option.isSome_none, Bool.false_eq_true, and_false, if_false]

/-- The acknowledgement of an entry that a request has written and that is not durable: the entry goes. -/
theorem wbAck_of_written {n : SliceId} {i : Nat} {e : WbEnt} (hmay : d.mayWrite = true)
    (hsent : d.slices[n].wb.find? (fun e => e.idx == i && e.sent.isSome) = some e) (hkind : e.kind = .wt ∨ e.kind = .na)
    (hdur : e.dur = false) :
    d.wbAck n i = d.withLookup n e.ga fun d => (((((d.pmcSlc n 1).modSlice n fun x =>
      { x with wb := x.wb.filter fun y => y.uid != e.uid }).ackCount e.ga).mntAcked n e).issueReads n).ledgerSettle := by
  have hmay' : ¬(!d.mayWrite) = true := by simp [hmay]
  rw [wbAck, if_neg hmay']
  rcases hkind with hk | hk <;> simp only [hsent, hk, hdur, Bool.false_eq_true, Bool.false_and, if_false]

/-- Acknowledgements by index: a write-buffer entry, and the witness write (assumption 23). -/
theorem backingAck_of_entry (n : SliceId) {i : Nat} (hi : i < 48) : d.backingAck n i = d.wbAck n i := if_pos hi

theorem backingAck_witness (n : SliceId) : d.backingAck n 51 = d.modPair fun p => { p with witSent := none } := rfl

end Data

/-- Settles O22: the conditions of the port and of the entry hold, so that the oldest entry goes out and the acknowledged one is freed. -/
theorem writeBufferCommandsComplete : Obligations.WriteBufferCommandsComplete := by
  refine ⟨fun b n e s hready hmay hup hnext htr hfull => ?_, fun n i e s hi hmay hsent hkind hdur => ?_, fun n s => ?_⟩
  · exact exec_after rfl (s.d.wbSend_of_full hready hmay hup hnext htr hfull)
  · exact exec_after rfl ((s.d.backingAck_of_entry n hi).trans (s.d.wbAck_of_written hmay hsent hkind hdur))
  · exact exec_after rfl (s.d.backingAck_witness n)

/-! ## Passes of a slice, and the data that returns to it (R92 to R102, R116 to R118, R138, R153, R263) -/

namespace Data

variable (d : Data) {n : SliceId}

/-- A lookup meets no upset and goes on. -/
theorem withLookup_of_none (ga : Nat) (f : Data → Data) (h : d.slices[n].latent = .none) : d.withLookup n ga f = f d := by
  have : d.lookupUpset n ga = (d, true) := by rw [lookupUpset, h]
  rw [withLookup, this]

/-- A correctable upset of a tag entry is captured, counted and raised, and the pass goes on. -/
theorem withLookup_of_correctable_tag {w : Fin 16} (ga : Nat) (f : Data → Data) (h : d.slices[n].latent = .tag w false) :
    d.withLookup n ga f = f
      (((((d.modSlice n fun x => { x with latent := .none }).tagCapture n (setOf (lineOf ga)) w.val false false).fldCnt
        (Reg.slcTagCe n.val) 0 16 1).pmcSlc n 35).evSlc n 1) := by
  have : d.lookupUpset n ga = (d.modSlice n fun x => { x with latent := .none }).upset n ga (.tag w false) := by rw [lookupUpset, h]
  rw [withLookup, this, upset]

/-- An uncorrectable upset of a tag entry is captured and raised and is a fault of the slice; the pass ends there. -/
theorem withLookup_of_uncorrectable_tag {w : Fin 16} (ga : Nat) (f : Data → Data) (h : d.slices[n].latent = .tag w true) :
    d.withLookup n ga f =
      (((d.modSlice n fun x => { x with latent := .none }).tagCapture n (setOf (lineOf ga)) w.val false true).evSlc n 2).sliceFault n := by
  have : d.lookupUpset n ga = (d.modSlice n fun x => { x with latent := .none }).upset n ga (.tag w true) := by rw [lookupUpset, h]
  rw [withLookup, this, upset]

section Running

variable (hrun : d.running n = true)
include hrun

/-- The upset that comes with an admission is in the slice before the pass is chosen. -/
theorem admitPass_runs {u : Upset} {e : Data} (hmet : (if u = .none then d else d.modSlice n fun x => { x with latent := u }) = e)
    {c : Cand} (hnext : e.admitNext n = some c) : d.admitPass n u = c.run e := by
  rw [admitPass, hrun, if_neg (by decide)]
  simp only [hmet, hnext]

theorem waitReadmit_runs {w : Waiter} (hhead : minBy (·.seq) ((d.listHeads n).filter (d.listFree n)) = some w) :
    d.waitReadmit n = d.runAny n w := by
  rw [waitReadmit, hrun, if_neg (by decide)]
  simp only [hhead]

theorem retryReenter_runs {dset : Nat} {w : Waiter}
    (hnext : minBy (·.seq) (d.slices[n].waiters.filter fun w => dsetOf w.kind.ga = dset && d.cleared n w) = some w) :
    d.retryReenter n dset = d.runWaiter n w := by
  rw [retryReenter, hrun, if_neg (by decide)]
  simp only [hnext]

theorem fillArrive_of_issued {i : Nat} (x : SecData) {e : MtEnt}
    (hent : d.slices[n].mt.find? (fun e => e.idx == i && e.issued.isSome && !e.zero && !e.failed && e.got.isNone) = some e) :
    d.fillArrive n i x = d.withLookup n e.first fun d =>
      ((d.pmcSlc n 1).readDone e.first (zsReads e.zs) e.issued ((x.zeroed e.zs).p0 || (x.zeroed e.zs).p1)).mtData n e (x.zeroed e.zs) := by
  rw [fillArrive, hrun, if_neg (by decide)]
  simp only [hent]

theorem prefetchArrive_of_issued {k : Fin 32} (x : SecData) {e : SideEnt} (hent : d.slices[n].side[k] = e) (hpend : e.st = .pend)
    (hissued : e.issued.isSome = true) :
    d.prefetchArrive n k x = d.withLookup n (2 * e.sec) fun d =>
      (d.readDone (2 * e.sec) (zsReads e.zs) e.issued ((x.zeroed e.zs).p0 || (x.zeroed e.zs).p1)).sideArrive n k (x.zeroed e.zs) := by
  subst hent
  have hopen : ¬((!d.running n) = true ∨ d.slices[n].side[k].st ≠ .pend ∨ d.slices[n].side[k].issued.isNone = true) := by
    rw [hrun, hpend, Option.isNone_eq_false_iff.mpr hissued]
    decide
  rw [prefetchArrive]
  exact if_neg hopen

end Running

theorem binvRun_runs {w : Waiter} (hnext : minBy (·.seq) (d.slices[n].waiters.filter (d.binvReady n)) = some w) :
    d.binvRun n = d.runWaiter n w := by
  simp only [binvRun, hnext]

theorem storeReturn_sends {r : StoreRd} {rs : List StoreRd} (hrd : d.slices[n].stRd = r :: rs) :
    d.storeReturn n = ((d.modSlice n fun x => { x with stRd := rs }).toAgent r.port r.item).sampleEnd
      n r.port r.item.gaddr.toNat d.smpClock false := by
  simp only [storeReturn, hrd]
  rfl

end Data

/-- An index of five bits is itself below 32. -/
theorem sideIdx_ofNat {i : BitVec 5} {k : Fin 32} (h : k.val = i.toNat) : Fin.ofNat 32 i.toNat = k :=
  Fin.ext ((Nat.mod_eq_of_lt i.isLt).trans h.symm)

/-- Settles O19: a slice that runs finds the pass, the entry or the read that each command is about. -/
theorem slicePassesComplete : Obligations.SlicePassesComplete := by
  refine ⟨fun n s hrun => ⟨fun c => ⟨fun hnext => ?pass, fun u d hu hd hnext => ?upsetPass⟩, fun w hhead => ?list,
      fun dset w hnext => ?retry, fun i d0 d1 p0 p1 e hent x hx => ?fill, fun sec rest _ => ?prefetch,
      fun i d0 d1 p0 p1 k e hk hent hpend hissued x hx => ?prefetchData⟩,
    fun n s => ⟨fun w hnext => ?binv, fun r rs hrd => ?store⟩,
    fun n d ga f => ⟨d.withLookup_of_none ga f, fun w => d.withLookup_of_correctable_tag ga f,
      fun w => d.withLookup_of_uncorrectable_tag ga f⟩⟩
  case pass => exact exec_after rfl (s.d.admitPass_runs hrun (if_pos rfl) hnext)
  case upsetPass => exact exec_after rfl (s.d.admitPass_runs hrun ((if_neg hu).trans hd) hnext)
  case list => exact exec_after rfl (s.d.waitReadmit_runs hrun hhead)
  case retry => exact exec_after rfl (s.d.retryReenter_runs hrun hnext)
  case fill =>
    subst hx
    exact exec_after rfl (s.d.fillArrive_of_issued hrun _ hent)
  case prefetch => exact exec_after rfl (if_pos hrun)
  case prefetchData =>
    subst hx
    refine exec_after rfl ?_
    rw [sideIdx_ofNat hk]
    exact s.d.prefetchArrive_of_issued hrun _ hent hpend hissued
  case binv => exact exec_after rfl (s.d.binvRun_runs hnext)
  case store => exact exec_after rfl (s.d.storeReturn_sends hrd)

/-! ## Timers of a slice (R107, R118, R154, R172, R224) -/

namespace Data

variable (d : Data) {n : SliceId}

theorem sideAge_of_due {k : Fin 32} (hage : d.fld (Reg.slcPfCfg n.val) 4 4 ≠ 0)
    (hst : d.slices[n].side[k].st = .ready ∨ d.slices[n].side[k].st = .used)
    (hdue : d.slices[n].side[k].since + d.fld (Reg.slcPfCfg n.val) 4 4 * 1024 ≤ d.now) : d.sideAge n k = d.sideFree n k :=
  if_pos ⟨hage, hst, hdue⟩

theorem snoopTimeout_of_due {ga : Nat} {h : Hte} {a : Agent} {l : List Agent} (hent : d.hteFind n ga = some h)
    (hwho : agents h.pend ++ (h.wbsrc.toList.filter fun a => !h.pend.getLsbD a.val) = a :: l)
    (hdue : h.start + 16 + d.snpTime n ≤ d.now) :
    d.snoopTimeout n ga = (a :: l).foldl (fun (d : Data) a => d.isolate a)
      (((d.tmoCap n a.val 0 ga).evSlc n 16).modHte n ga fun h => { h with start := d.now }) := by
  simp only [snoopTimeout, hent, hwho]
  exact if_pos hdue

theorem owedTimeout_of_due {ga : Nat} {p : Agent} {o : Owed}
    (hent : d.slices[n].owed.find? (fun o => o.ga == ga && o.agent == p && o.timer.isSome) = some o)
    (hdue : o.timer.getD 0 + 16 + d.snpTime n ≤ d.now) :
    d.owedTimeout n ga p = (((d.tmoCap n p.val 1 ga).evSlc n 16).modSlice n fun x => { x with owed := x.owed.erase o }).isolate p := by
  simp only [owedTimeout, hent]
  exact if_pos hdue

/-- A read of a miss-tracker entry. -/
theorem readTimeout_of_due {i : Nat} {e : MtEnt} {t : Nat}
    (hent : d.slices[n].mt.find? (fun e => e.idx == i && e.got.isNone && !e.zero && !e.failed) = some e)
    (hissued : e.issued = some t) (hdue : t + d.fillTime n ≤ d.now) :
    d.readTimeout n false i = ((d.tmoCap n 0 2 e.first).evSlc n 17).mtFailed n e := by
  simp only [readTimeout, Bool.false_eq_true, if_false, hent, hissued]
  exact if_pos hdue

/-- A capture of a timeout leaves the clock. -/
theorem tmoCap_now (a kind ga : Nat) : (d.tmoCap n a kind ga).now = d.now := by
  unfold tmoCap capture
  dsimp only
  split_ifs <;> rfl

/-- The two ways of a write that is not acknowledged in time: it goes once more, and then its port fails. -/
theorem writeTimeout_of_due {i : Nat} {e : WbEnt} {t : Nat} (hmay : d.mayWrite = true)
    (hent : d.slices[n].wb.find? (fun e => e.idx == i) = some e) (hsent : e.sent = some t) (hdue : t + d.wackTime n ≤ d.now) :
    d.writeTimeout n i =
      if e.tries = 0 then
        (((((d.tmoCap n 0 3 e.ga).evSlc n 18).modWb n (fun x => x.uid == e.uid) fun x => { x with sent := some d.now, tries := 1 }).fldCnt
          (Reg.bkpErrCnt (d.bkpOf e.ga).val) 16 16 1).evBkp (d.bkpOf e.ga) 3).pmcBkp (d.bkpOf e.ga) 5
      else ((d.tmoCap n 0 3 e.ga).evSlc n 18).bkpFailPort (d.bkpOf e.ga) := by
  rw [writeTimeout, hmay, if_neg (by decide)]
  simp only [hent, hsent, if_pos hdue, evSlc_eq, ev_now, tmoCap_now]

/-- The oldest fetch is late: it is captured before any late write. -/
theorem bstTimeout_of_late_fetch {f : Fetch} {fs : List Fetch} (hf : d.slices[n].fetches = f :: fs) (hdue : f.start + us 20 ≤ d.now) :
    d.bstTimeout n = ((d.tmoCap n 0 4 f.ga).evSlc n 19).sliceFault n := by
  rw [bstTimeout, hf, List.filter_cons_of_pos (by simpa using hdue)]
  rfl

theorem retryTimeout_reports {w : Waiter} {r : Req} (hnext : minBy (·.seq) (d.slices[n].waiters.filter (d.retryDue n)) = some w)
    (hkind : w.kind = .req r) :
    d.retryTimeout n = ((d.tmoCap n r.agent.val 5 r.ga).evSlc n 20).putWaiter n { w with reported := true } := by
  simp only [retryTimeout, hnext, hkind]
  rfl

theorem budgetTimeout_releases {w : Waiter} (hnext : minBy (·.seq) (d.slices[n].waiters.filter d.budgetDue) = some w) :
    d.budgetTimeout n = ((d.fldCnt Reg.durStallCnt 0 32 1).evDur 3).putWaiter n { w with rel := true } := by
  simp only [budgetTimeout, hnext]

/-! ## What a REQ in a retry queue waits for (R153, R154, R224) -/

section Retry

variable {d} {w : Waiter} {r : Req} (hkind : w.kind = .req r) (hop : r.op ≠ 6)
include hkind hop

/-- Only a WB answers a write-back that an HTE waits for. -/
theorem wbTurn_of_other_op : d.wbTurn n w = false := by
  unfold wbTurn
  split
  next r' _ hk _ =>
    obtain rfl : r = r' := WKind.req.inj (hkind.symm.trans hk)
    rw [beq_eq_false_iff_ne.mpr hop, Bool.false_and]
  next => rfl

variable (hwb : (d.slices[n].waiters.any fun x => dsetOf x.kind.ga == dsetOf r.ga && d.wbTurn n x) = false)
  (hold : d.olderRetry n w.seq r.ga = false)
include hwb hold

theorem cleared_of_hold {t : Nat} (hloc : w.loc = .retry (.hold t)) : d.cleared n w = decide (t ≤ d.now) := by
  simp only [cleared, hkind, hloc, wbTurn_of_other_op hkind hop, hwb, hold, Bool.false_or, Bool.not_false, Bool.true_and]

theorem cleared_of_budget {t : Nat} (hloc : w.loc = .retry (.budget t)) :
    d.cleared n w = (w.rel || !d.bud || d.dur.tr.isSome) := by
  simp only [cleared, hkind, hloc, wbTurn_of_other_op hkind hop, hwb, hold, Bool.false_or, Bool.not_false, Bool.true_and]

end Retry

end Data

/-- Settles O21: each command finds the condition of its own timer met, and a REQ that no other goes before waits for the one thing
that its place in the queue names. -/
theorem sliceTimersComplete : Obligations.SliceTimersComplete := by
  refine ⟨fun n s => ⟨?hold, fun i => ?combine, fun i k hk hage hst hdue => ?side⟩,
    fun n ga s => ⟨fun h a l hent hwho hdue => ?snoop, fun p o hent hdue => ?owed⟩,
    fun n i s => ⟨fun e t hent hissued hdue => ?read,
      fun e t hmay hent hsent hdue => ⟨fun hfirst => ?writeAgain, fun hagain => ?writeFails⟩⟩,
    fun n s => ⟨fun f fs hf hdue => ?directory, fun w r hnext hkind => ?retry, fun w hnext => ?budget⟩,
    fun d n w r t hkind hwb hold => ⟨fun hloc hop => Data.cleared_of_hold hkind hop hwb hold hloc,
      fun hloc hop => Data.cleared_of_budget hkind hop hwb hold hloc⟩⟩
  case hold => exact exec_after rfl rfl
  case combine => exact exec_after rfl rfl
  case side =>
    refine exec_after rfl ?_
    rw [sideIdx_ofNat hk]
    exact s.d.sideAge_of_due hage hst hdue
  case snoop => exact exec_after rfl (s.d.snoopTimeout_of_due hent hwho hdue)
  case owed => exact exec_after rfl (s.d.owedTimeout_of_due hent hdue)
  case read => exact exec_after rfl (s.d.readTimeout_of_due hent hissued hdue)
  case writeAgain => exact exec_after rfl ((s.d.writeTimeout_of_due hmay hent hsent hdue).trans (if_pos hfirst))
  case writeFails => exact exec_after rfl ((s.d.writeTimeout_of_due hmay hent hsent hdue).trans (if_neg hagain))
  case directory => exact exec_after rfl (s.d.bstTimeout_of_late_fetch hf hdue)
  case retry => exact exec_after rfl (s.d.retryTimeout_reports hnext hkind)
  case budget => exact exec_after rfl (s.d.budgetTimeout_releases hnext)

end Sys2Proof.Machine
end

section
/-!
PROOFS. Coherence: what becomes of an agent's answers at its port, and the transfers between directory, spill buffer and backstop.
-/

namespace Sys2Proof.Machine

namespace Data

variable (d : Data)

/-! ## The answers of an agent at its port (R151, R160, R190, R234, R396) -/

/-- The end of the answer to RECALL is the port's own. -/
theorem rspRecall_ends {p : Agent} (hopen : d.portOpen p = true) (hrecall : d.ports[p].recalling = true) :
    d.rspRecall p 0 = d.modPort p fun x => { x with recalling := false } := by
  rw [rspRecall, hopen, if_neg (by decide), if_pos ⟨hrecall, rfl⟩]

/-- Sending an item that is no snoop leaves the interleave copy: the port queues it, or drops it where its agent is isolated. -/
theorem toAgent_ilv {q : Agent} {it : TxItem} (hcls : it.cls ≠ .snp) : (d.toAgent q it).ilv = d.ilv := by
  cases hiso : d.ports[q].iso with
  | false => rw [d.toAgent_queues hiso hcls, modPort_ilv]
  | true => simp only [toAgent, hiso, hcls, false_and, decide_false, Bool.false_eq_true, if_true, if_false]

/-- The home slice of a granule comes from the interleave copy alone, so that such an item leaves it too. -/
theorem toAgent_homeOf {q : Agent} {it : TxItem} (hcls : it.cls ≠ .snp) (ga : Nat) : (d.toAgent q it).homeOf ga = d.homeOf ga := by
  rw [homeOf, ilvOf, ilvAt, d.toAgent_ilv hcls]
  rfl

section Served

variable {p : Agent} (hopen : d.portOpen p = true) (hmute : d.pairMute = false)
include hopen hmute

/-- An open port of a device whose pair state serves requests turns no answer away. -/
theorem not_turned_away : ¬((!d.portOpen p) = true ∨ d.pairMute = true) := by
  rw [hopen, hmute]
  decide

variable {g : BitVec 40} (hmap : d.ansInMap g = true)
include hmap

/-- A snoop answer without write-back ends the record of the snoop. -/
theorem rspItem_of_snoop {op : Nat} (hop : op < 5) :
    d.rspItem p op g = (d.snpAnswered p g.toNat).answerRun { agent := p, dat := false, op := BitVec.ofNat 5 op, ga := g.toNat } := by
  rw [rspItem, if_neg (d.not_turned_away hopen hmute), hmap, if_neg (by decide)]
  simp only [hop.ne, hop.le, if_true, if_false]

/-- RSP_I_WB ends the record of the snoop and announces a WB. -/
theorem rspItem_of_writeback :
    d.rspItem p 5 g = ((d.snpAnswered p g.toNat).modPort p fun x => { x with wbs := x.wbs.concat g.toNat }).answerRun
      { agent := p, dat := false, op := 5, ga := g.toNat } := by
  rw [rspItem, if_neg (d.not_turned_away hopen hmute), hmap, if_neg (by decide)]
  rfl

/-- A census report answers no snoop. -/
theorem rspItem_of_census {op : Nat} (hop : 5 < op) :
    d.rspItem p op g = d.answerRun { agent := p, dat := false, op := BitVec.ofNat 5 op, ga := g.toNat } := by
  rw [rspItem, if_neg (d.not_turned_away hopen hmute), hmap, if_neg (by decide)]
  simp only [hop.ne', hop.not_ge, if_false]

/-- Snoop data ends the record of the snoop as a snoop answer does. -/
theorem datHome_of_served (op : Nat) (poison : Bool) (x : Gran) :
    d.datHome p op g poison x = (d.snpAnswered p g.toNat).answerRun
      { agent := p, dat := true, op := BitVec.ofNat 5 op, ga := g.toNat, poison := poison, data := x } := by
  rw [datHome, if_neg (d.not_turned_away hopen hmute), hmap, if_neg (by decide)]

/-- Owner data for another enabled port goes there. -/
theorem datPeer_steers (op : Nat) {peer : Agent} (hpeer : peer ≠ p) (hen : d.portEn peer = true) (poison : Bool) (x : Gran) :
    d.datPeer p op g peer poison x =
      (d.toAgent peer
        { cls := .dat, op := BitVec.ofNat 5 op, gaddr := g, peer := BitVec.ofNat 4 p.val, poison := poison, data := some x }).sampleFwd
          (d.homeOf g.toNat) peer g.toNat true := by
  have hto : ¬(peer = p ∨ (!d.portEn peer) = true) := by simp [hpeer, hen]
  rw [datPeer, if_neg (d.not_turned_away hopen hmute), if_neg hto, hmap, if_neg (by decide)]
  simp only [toAgent_homeOf, ne_eq, reduceCtorEq, not_false_eq_true]

end Served

end Data

/-- Settles O12: no check of the port catches the answer, and its opcode decides what the port records of it. -/
theorem answersAreTaken : Obligations.AnswersAreTaken := by
  intro p g s hopen hmute
  refine ⟨fun hrecall hg => ?recallEnd, fun hmap => ⟨?i, ?iFwd, ?sFwd, ?oFwd, ?iWb, ?cnS, ?cnX, ?cnO,
    fun poison dat => ⟨?snpC, ?snpD⟩, fun peer poison dat hpeer hen => ⟨?datS, ?datE, ?datM⟩⟩⟩
  case recallEnd =>
    subst hg
    exact exec_after rfl (s.d.rspRecall_ends hopen hrecall)
  case i | iFwd | sFwd | oFwd => exact exec_after rfl (s.d.rspItem_of_snoop hopen hmute hmap (by decide))
  case iWb => exact exec_after rfl (s.d.rspItem_of_writeback hopen hmute hmap)
  case cnS | cnX | cnO => exact exec_after rfl (s.d.rspItem_of_census hopen hmute hmap (by decide))
  case snpC | snpD => exact exec_after rfl (s.d.datHome_of_served hopen hmute hmap _ poison dat)
  case datS | datE | datM => exact exec_after rfl (s.d.datPeer_steers hopen hmute hmap _ hpeer hen poison dat)

/-! ## Between directory, spill buffer and backstop (R136, R137) -/

namespace Data

variable (d : Data) {n : SliceId}

section Fetch

variable {d} {f : Fetch} {fs : List Fetch} {r : Data} {es : List DirEnt} (hf : d.slices[n].fetches = f :: fs)
  (hread : (d.modSlice n fun x => { x with fetches := fs }).bstRead n (bsetOf f.ga) = (r, some es))
include hf hread

/-- The backstop holds no entry of the granule: its absence is recorded and the on-die way is free again. -/
theorem fetchReturn_of_absent (hnone : es.find? (fun e => e.base != .i && e.ga == f.ga) = none) :
    d.fetchReturn n = (r.dirPut n f.key {}).modSlice n fun x => { x with absent := x.absent.concat f.ga } := by
  simp only [fetchReturn, hf, hread, hnone]

/-- An entry without census mark moves to its on-die way as it stands there. -/
theorem fetchReturn_of_entry {e : DirEnt} (hsome : es.find? (fun e => e.base != .i && e.ga == f.ga) = some e) (hcns : e.cns = false) :
    d.fetchReturn n =
      (r.bstWrite n (bsetOf f.ga) es (es.map fun x => if x.base != .i && x.ga == f.ga then {} else x)).dirPut n f.key
        { e with pin := false } := by
  have hmark : ({ e with cns := false, pin := false } : DirEnt) = { e with pin := false } :=
    congrArg (fun c => { e with cns := c, pin := false }) hcns.symm
  simp only [fetchReturn, hf, hread, hsome, hcns, Bool.false_and, Bool.false_eq_true, if_false, hmark]

end Fetch

/-- A set with an empty way takes the spilled entry. -/
theorem spillWrite_into_empty_way {x : Spill} {r : Data} {es : List DirEnt} {w : Nat} (hnext : d.spillNext n = some x)
    (hcns : x.e.cns = false) (hread : d.bstRead n (bsetOf x.e.ga) = (r, some es))
    (hway : es.findIdx? (fun e => e.base == .i) = some w) :
    d.spillWrite n =
      ((r.bstWrite n (bsetOf x.e.ga) es (es.set w { x.e with pin := false })).pmcSlc n 26).modSlice n fun y =>
        { y with spill := y.spill.filter (fun z => z.e.ga != x.e.ga), absent := y.absent.filter (· != x.e.ga) } := by
  simp only [spillWrite, hnext, hread, hway, hcns, Bool.false_eq_true, if_false]

end Data

/-- Settles O20: the backstop set that is read decides each transfer, and without a census mark no count of marks changes. -/
theorem directoryTransfersComplete : Obligations.DirectoryTransfersComplete := by
  refine ⟨fun n s f fs d es hf hread => ⟨fun hnone => ?absent, fun e hsome hcns => ?entry⟩,
    fun n s x d es w hnext hcns hread hway => ?spill⟩
  case absent => exact exec_after rfl (Data.fetchReturn_of_absent hf hread hnone)
  case entry => exact exec_after rfl (Data.fetchReturn_of_entry hf hread hsome hcns)
  case spill => exact exec_after rfl (s.d.spillWrite_into_empty_way hnext hcns hread hway)

end Sys2Proof.Machine
end

section
/-!
PROOFS. Coherence under failures: a link that goes DOWN isolates the agent of its port.
-/

namespace Sys2Proof.Machine

/-- The port of an agent as isolation leaves it: nothing toward the agent, and nothing expected of it (R173, R206). -/
def Port.isolated (x : Port) : Port :=
  { x with iso := true, tx := [], snps := [], wbs := [], mgqIn := [], mgqOut := [], pushWait := none, recalling := false, census := none }

namespace Data

/-! ## What a port still does for an agent that it has isolated (R173, R306, R332) -/

/-- What may follow an isolation: no link changes, no event is taken back, and the port of an isolated agent gets nothing toward the
agent and no new record of it; only the REQs that it holds toward the slices may change. -/
structure KeepsIsolated (d e : Data) : Prop where
  links : e.links = d.links
  latch : ∀ i, d.evt.latch.getLsbD i = true → e.evt.latch.getLsbD i = true
  port : ∀ p : Agent, d.ports[p].iso = true → ∃ held, e.ports[p] = { d.ports[p] with held := held }

namespace KeepsIsolated

theorem refl (d : Data) : KeepsIsolated d d := ⟨rfl, fun _ hi => hi, fun p _ => ⟨d.ports[p].held, rfl⟩⟩

variable {d e : Data} (h : KeepsIsolated d e)
include h

theorem iso {p : Agent} (hp : d.ports[p].iso = true) : e.ports[p].iso = true := by
  obtain ⟨held, hport⟩ := h.port p hp
  rw [hport]
  exact hp

/-- Most of the device stands apart from links, ports and events. -/
theorem congr {f : Data} (hlinks : f.links = e.links) (hports : f.ports = e.ports) (hevt : f.evt = e.evt) : KeepsIsolated d f :=
  ⟨hlinks ▸ h.links, hevt ▸ h.latch, hports ▸ h.port⟩

theorem ev {s : Nat} : KeepsIsolated d (e.ev s) := by
  refine ⟨h.links, fun i hi => ?_, h.port⟩
  rw [Data.ev, modEvt_evt, setBit, if_pos rfl, BitVec.getLsbD_or, h.latch i hi, Bool.true_or]

theorem modQue {q : Nat} {f : Que → Que} : KeepsIsolated d (e.modQue q f) := h.congr rfl rfl rfl

theorem modSlice {n : SliceId} {f : Slice → Slice} : KeepsIsolated d (e.modSlice n f) := h.congr rfl rfl rfl

theorem fldCnt {a lo n k : Nat} : KeepsIsolated d (e.fldCnt a lo n k) := h.congr rfl rfl rfl

theorem freeGran : KeepsIsolated d e.freeGran.2 := h.congr rfl rfl rfl

theorem toHome {m : Answer} : KeepsIsolated d (e.toHome m) := h.congr rfl rfl rfl

/-- The port of an agent that is not isolated may do anything. -/
theorem modPort_of_open {p : Agent} {f : Port → Port} (hopen : e.ports[p].iso ≠ true) : KeepsIsolated d (e.modPort p f) := by
  refine ⟨h.links, h.latch, fun q hq => ?_⟩
  have hne : q ≠ p := fun he => hopen (he ▸ h.iso hq)
  rw [modPort_ports, vmod_other _ _ hne]
  exact h.port q hq

theorem modPort_held {p : Agent} {f : List Req → List Req} : KeepsIsolated d (e.modPort p fun x => { x with held := f x.held }) := by
  refine ⟨h.links, h.latch, fun q hq => ?_⟩
  obtain ⟨held, hport⟩ := h.port q hq
  rw [modPort_ports]
  by_cases hqp : q = p
  · subst hqp
    exact ⟨f held, by rw [vmod_self, hport]⟩
  · exact ⟨held, by rw [vmod_other _ _ hqp, hport]⟩

theorem ovfSet {c : Nat} {new : Bool} : KeepsIsolated d (e.ovfSet c new) := by
  unfold Data.ovfSet
  split
  · exact (h.congr (f := e.stamp _ _) rfl rfl rfl).ev
  · exact h

theorem cntAdd {c n : Nat} : KeepsIsolated d (e.cntAdd c n) := by
  have hpmc (x : Pmc) {g : Data} (hg : KeepsIsolated d g) : KeepsIsolated d { g with pmc := x } := hg.congr rfl rfl rfl
  unfold Data.cntAdd
  dsimp only
  split
  · exact (hpmc _ (hpmc _ h).ovfSet).ovfSet
  · exact (hpmc _ h).ovfSet

theorem tally {c n : Nat} : KeepsIsolated d (e.tally c n) := by
  unfold Data.tally tallySum
  split_ifs
  · exact h
  · exact h.congr rfl rfl rfl
  · exact (h.congr (f := e.cntKeep _ _) rfl rfl rfl).cntAdd

/-! ## Queues -/

theorem capture {a vb v wide : Nat} {mb : Option Nat} : KeepsIsolated d (e.capture a vb mb v wide) := by
  unfold Data.capture
  split
  · cases mb <;> exact h.congr rfl rfl rfl
  · exact h.congr rfl rfl rfl

theorem qEv {i q : Nat} : KeepsIsolated d (e.qEv i q) := h.ev.capture

theorem qOnce {q : Nat} : KeepsIsolated d (e.qOnce q) := by
  unfold Data.qOnce
  split
  · exact h
  · exact (h.congr (f := { e with queOnce := insNat q e.queOnce }) rfl rfl rfl).qEv

/-- An isolated owner of a queue gets no Q_NOTE. -/
theorem qNote {q before : Nat} : KeepsIsolated d (e.qNote q before) := by
  unfold Data.qNote
  split
  · dsimp only
    split
    · exact h.modQue
    · next hopen => exact h.modQue.modPort_of_open (fun hiso => hopen (by rw [hiso, Bool.true_or]))
  · exact h

theorem qLand {r : QRec} {q : Nat} {w : QWord} {opn : QOpen} {opener : Option Agent} {m : BitVec 67} :
    KeepsIsolated d (e.qLand r q w opn opener m) := h.modQue.qNote

theorem qGap {q : Nat} : KeepsIsolated d (e.qGap q) := by
  unfold Data.qGap
  split
  · exact h
  · dsimp only
    split
    · exact h.qLand.modQue
    · exact h

theorem stampQue_when {b : Bool} {q i : Nat} : KeepsIsolated d (e.when b (Data.stampQue · q i)) := by
  unfold Data.when
  split
  · exact h.congr rfl rfl rfl
  · exact h

theorem qPush {r : QRec} {q : Nat} {w : QWord} {who : Option Agent} {m : BitVec 67} : KeepsIsolated d (e.qPush r q w who m).1 := by
  unfold Data.qPush
  dsimp only
  split
  case isTrue => exact h.modQue.modQue
  split
  case isTrue resync =>
    split
    · exact h.modQue.fldCnt.qEv.modQue.qGap
    · exact h.modQue.fldCnt.qEv
  split
  case isTrue dropping => exact h.modQue.modQue.qGap
  split
  case isTrue room => exact h.modQue.qLand.tally.qGap
  split
  case isTrue dropNew => exact h.modQue.modQue.fldCnt.qEv.tally.modQue.qGap
  split
  · exact h.modQue.fldCnt.qEv.tally.modQue.stampQue_when.qLand.tally
  · exact h.modQue.fldCnt.qEv.tally.modQue.modQue.stampQue_when

theorem qItem {q : Nat} {ws : List Dword} : KeepsIsolated d (e.qItem q ws).1 := by
  unfold Data.qItem
  split
  · exact h.qOnce
  · exact List.foldlRecOn _ _ (motive := fun a : Data × Bool => KeepsIsolated d a.1) h fun _ ha _ _ => ha.qPush

theorem qIsolate {p : Agent} : KeepsIsolated d (e.qIsolate p) := by
  refine List.foldlRecOn _ _ (motive := KeepsIsolated d) h fun f hf x _ => ?_
  dsimp only
  split
  · split
    · exact hf.modQue.modQue.qGap
    · exact hf
  · exact hf

/-! ## Samples and the answers that the port gives -/

theorem sampleEnd {n : SliceId} {a : Agent} {ga t4 : Nat} {cut : Bool} : KeepsIsolated d (e.sampleEnd n a ga t4 cut) := by
  unfold Data.sampleEnd
  split
  · exact h
  · exact h.modSlice.qItem.tally

theorem samplesCut {n : SliceId} {p : Sample → Bool} : KeepsIsolated d (e.samplesCut n p) :=
  List.foldlRecOn _ _ (motive := KeepsIsolated d) h fun _ hf _ _ => hf.sampleEnd

/-- The port answers a snoop to its home, and sends data toward another agent only while that one is not isolated. -/
theorem produce {p peer : Agent} {op : BitVec 5} {ga : Nat} {home : Bool} : KeepsIsolated d (e.produce p op ga peer home) := by
  unfold Data.produce
  dsimp only
  split
  · exact h.freeGran.toHome
  · split
    · exact h.freeGran.toHome
    · split
      · exact h.freeGran.toHome
      · next hopen => exact (h.freeGran.modPort_of_open hopen).toHome

end KeepsIsolated

/-! ## Isolation (R173) -/

theorem isolate_of_iso (d : Data) {p : Agent} (hiso : d.ports[p].iso = true) : d.isolate p = d := by
  rw [isolate, hiso, if_pos rfl]

/-- The port is emptied and event 13 raised first; then the port answers for the agent, and the device drops what it holds of it. -/
theorem isolate_of_open (d : Data) {p : Agent} (hopen : d.ports[p].iso = false) :
    KeepsIsolated ((d.modPort p Port.isolated).ev (576 + 24 * p.val + 13)) (d.isolate p) := by
  rw [isolate, if_neg (by rw [hopen]; decide)]
  have hcensus := (KeepsIsolated.refl ((d.modPort p Port.isolated).ev (576 + 24 * p.val + 13))).congr
    (f := ((d.modPort p Port.isolated).ev (576 + 24 * p.val + 13)).modPair fun y =>
      { y with census := y.census.map fun c => { c with left := c.left &&& ~~~(abit p) } }) rfl rfl rfl
  have hsnps := List.foldlRecOn d.ports[p].snps (fun (f : Data) s => f.produce p s.op s.ga s.peer s.home) hcensus
    fun _ hf _ _ => hf.produce
  refine List.foldlRecOn allSlices _ (KeepsIsolated.qIsolate ?_) fun _ hf _ _ => hf.samplesCut
  exact List.foldlRecOn d.ports[p].wbs _ hsnps fun _ hf _ _ => hf.freeGran.modPort_held (f := fun l => l.concat _)

theorem isolate_links (d : Data) (p : Agent) : (d.isolate p).links = d.links := by
  cases hiso : d.ports[p].iso with
  | true => rw [d.isolate_of_iso hiso]
  | false => exact (d.isolate_of_open hiso).links

theorem isolate_latch (d : Data) (p : Agent) {i : Nat} (hi : d.evt.latch.getLsbD i = true) : (d.isolate p).evt.latch.getLsbD i = true := by
  cases hiso : d.ports[p].iso with
  | true => rwa [d.isolate_of_iso hiso]
  | false => exact (d.isolate_of_open hiso).latch i ((KeepsIsolated.refl d).ev.latch i hi)

/-- The port of an agent that is isolated now keeps no item toward it and no record of it. -/
theorem isolate_port_of_open (d : Data) {p : Agent} (hopen : d.ports[p].iso = false) :
    ∃ held, (d.isolate p).ports[p] = { d.ports[p].isolated with held := held } := by
  have hport : ((d.modPort p Port.isolated).ev (576 + 24 * p.val + 13)).ports[p] = d.ports[p].isolated := by
    rw [ev_ports, modPort_ports, vmod_self]
  obtain ⟨held, h⟩ := (d.isolate_of_open hopen).port p (by rw [hport]; rfl)
  exact ⟨held, by rw [h, hport]⟩

theorem isolate_iso (d : Data) (p : Agent) : (d.isolate p).ports[p].iso = true := by
  cases hiso : d.ports[p].iso with
  | true => rwa [d.isolate_of_iso hiso]
  | false =>
    obtain ⟨held, hport⟩ := d.isolate_port_of_open hiso
    rw [hport]
    rfl

/-! ## DOWN (R205, R206) -/

theorem linkPort_aptLink (p : Agent) : linkPort (aptLink p) = some p := dif_pos p.isLt

/-- The link of a port in DOWN, with its event, before the port isolates the agent. -/
def linkDropped (d : Data) (p : Agent) : Data :=
  (((d.modPort p fun x => { x with held := x.held.map fun r => { r with cred := false } }).modLink (aptLink p)
    fun x => { st := .down, entered := d.now, rate := x.rate, width := x.width, lpok := x.lpok }).ev (576 + 24 * p.val + 1))

theorem linkDown_aptLink (d : Data) (p : Agent) : d.linkDown (aptLink p) = (d.linkDropped p).isolate p := by
  rw [linkDown, heldFree, linkPort_aptLink]
  rfl

theorem linkDown_links (d : Data) (p : Agent) : (d.linkDown (aptLink p)).links = vmod d.links (aptLink p)
    fun x => { st := .down, entered := d.now, rate := x.rate, width := x.width, lpok := x.lpok } := by
  rw [linkDown_aptLink, isolate_links]
  rfl

theorem linkDropped_iso (d : Data) (p : Agent) : (d.linkDropped p).ports[p].iso = d.ports[p].iso := by
  rw [linkDropped, ev_ports, modLink_ports, modPort_ports, vmod_self]

end Data

/-- Settles O54: the link alone changes before its port isolates the agent, and nothing that follows the isolation reaches the agent
or another link. -/
theorem downIsolatesTheAgent : Obligations.DownIsolatesTheAgent := by
  intro d p
  have hlatch (i : Nat) (hi : i < 24) (e : Data) : (e.ev (576 + 24 * p.val + i)).evt.latch.getLsbD (576 + i + 24 * p.val) = true := by
    rw [Data.ev_latch _ _ _ (by omega), decide_eq_true (by omega), Bool.true_or]
  rw [d.linkDown_links p, vmod_self, d.linkDown_aptLink p]
  refine ⟨rfl, rfl, Data.isolate_iso _ p, Data.isolate_latch _ p (hlatch 1 (by omega) _), fun l hl => vmod_other _ _ hl, fun hopen => ?_⟩
  rw [← d.linkDropped_iso p] at hopen
  obtain ⟨held, hport⟩ := Data.isolate_port_of_open _ hopen
  rw [hport]
  exact ⟨(Data.isolate_of_open _ hopen).latch _ (hlatch 13 (by omega) _), rfl, rfl, rfl, rfl, rfl⟩

end Sys2Proof.Machine
end

section
/-!
PROOFS. Check codes and lanes: what the light code and the striping over lanes make reads back as what it was made from.
-/

namespace Sys2Proof.Machine

/-! ## GF(2^8) (R256): a product is linear in its first factor -/

theorem gx_eq (a : Byte) : gx a = a <<< 1 ^^^ if a.getLsbD 7 then 0x1D else 0 := by
  unfold gx
  split
  · rfl
  · exact BitVec.xor_zero.symm

theorem gx_xor (a b : Byte) : gx (a ^^^ b) = gx a ^^^ gx b := by
  have hcarry (p q : Bool) : (if p ^^ q then (0x1D : Byte) else 0) = (if p then 0x1D else 0) ^^^ (if q then 0x1D else 0) := by
    cases p <;> cases q <;> rfl
  rw [gx_eq, gx_eq, gx_eq, BitVec.shiftLeft_xor_distrib, BitVec.getLsbD_xor, hcarry]
  ac_rfl

theorem gmulAux_xor (n : Nat) (a a' b acc acc' : Byte) :
    gmulAux n (a ^^^ a') b (acc ^^^ acc') = gmulAux n a b acc ^^^ gmulAux n a' b acc' := by
  induction n generalizing a a' b acc acc' with
  | zero => rfl
  | succ n ih =>
    simp only [gmulAux, gx_xor]
    cases b.getLsbD 0 with
    | false => exact ih ..
    | true =>
      rw [if_pos rfl, if_pos rfl, if_pos rfl, ← ih]
      congr 1
      ac_rfl

theorem gmul_xor (a a' x : Byte) : gmul (a ^^^ a') x = gmul a x ^^^ gmul a' x :=
  gmulAux_xor 8 a a' x 0 0

theorem gmul_zero (x : Byte) : gmul 0 x = 0 := by simpa using gmul_xor 0 0 x

/-! ## The light code (R258) -/

/-- A polynomial is read on from its value so far, `e`, over further coefficients. -/
def gevalFrom (x e : Byte) (l : List Byte) : Byte := l.foldl (fun a b => gmul a x ^^^ b) e

theorem geval_append (x : Byte) (l m : List Byte) : geval x (l ++ m) = gevalFrom x (geval x l) m := List.foldl_append ..

theorem gevalFrom_zeros (x : Byte) : gevalFrom x 0 [0, 0, 0, 0] = 0 := by
  have hzero : (0 : Byte) ^^^ 0 = 0 := rfl
  simp only [gevalFrom, List.foldl_cons, List.foldl_nil, hzero, gmul_zero]

/-- A mask over the coefficients adds its own value. -/
theorem gevalFrom_mask (x m e e' : Byte) (l : List Byte) :
    gevalFrom x (e ^^^ e') (l.map (· ^^^ m)) = gevalFrom x e l ^^^ gevalFrom x e' (l.map fun _ => m) := by
  induction l generalizing e e' with
  | nil => rfl
  | cons b l ih =>
    have hstep : gmul (e ^^^ e') x ^^^ (b ^^^ m) = (gmul e x ^^^ b) ^^^ (gmul e' x ^^^ m) := by
      rw [gmul_xor]
      ac_rfl
    simp only [gevalFrom, List.map_cons, List.foldl_cons, hstep]
    exact ih ..

/-- The divider of `rs4` shifts by one byte and takes off `f` times the generator. -/
def rs4Shift (r : Byte × Byte × Byte × Byte) (f : Byte) : Byte × Byte × Byte × Byte :=
  (r.2.1 ^^^ gmul f 0x0F, r.2.2.1 ^^^ gmul f 0x36, r.2.2.2 ^^^ gmul f 0x78, gmul f 0x40)

/-- The divider takes a byte. -/
def rs4Step (r : Byte × Byte × Byte × Byte) (b : Byte) : Byte × Byte × Byte × Byte := rs4Shift r (b ^^^ r.1)

/-- The bytes of the divider, the highest degree first. -/
def rs4Bytes (r : Byte × Byte × Byte × Byte) : List Byte := [r.1, r.2.1, r.2.2.1, r.2.2.2]

theorem rs4_eq (l : List Byte) : rs4 l = rs4Bytes (l.foldl rs4Step (0, 0, 0, 0)) := rfl

/-- `x` is a root of the generator x^4 + 0x0F x^3 + 0x36 x^2 + 0x78 x + 0x40, and so of its product with every `f`. -/
def rs4Root (x : Byte) : Prop :=
  ∀ f, gmul (gmul (gmul (gmul f x) x) x) x = gmul (gmul (gmul (gmul f 0x0F) x ^^^ gmul f 0x36) x ^^^ gmul f 0x78) x ^^^ gmul f 0x40

theorem rs4Root_of_syndrome {x : Byte} (hx : x = 1 ∨ x = 2 ∨ x = 4 ∨ x = 8) : rs4Root x := by
  rcases hx with rfl | rfl | rfl | rfl <;> unfold rs4Root <;> decide +kernel

/-- What stands twice in a sum goes. -/
theorem xor_pairs (e a b c d f3 f2 f1 f0 : Byte) :
    e ^^^ ((f3 ^^^ f2 ^^^ f1 ^^^ f0) ^^^ a) ^^^ (b ^^^ f3) ^^^ (c ^^^ f2) ^^^ (d ^^^ f1) ^^^ f0 = e ^^^ a ^^^ b ^^^ c ^^^ d := by
  calc _ = (e ^^^ a ^^^ b ^^^ c ^^^ d) ^^^ ((f3 ^^^ f2 ^^^ f1 ^^^ f0) ^^^ (f3 ^^^ f2 ^^^ f1 ^^^ f0)) := by ac_rfl
    _ = _ := by rw [BitVec.xor_self, BitVec.xor_zero]

/-- At a root, a shift of the divider is a multiplication by `x`. -/
theorem gevalFrom_rs4Shift {x : Byte} (hx : rs4Root x) (e f : Byte) (r : Byte × Byte × Byte × Byte) :
    gevalFrom x (gmul e x ^^^ (f ^^^ r.1)) (rs4Bytes (rs4Shift r f)) = gmul (gevalFrom x e (rs4Bytes r)) x := by
  have hroot := hx f
  simp only [gevalFrom, rs4Bytes, rs4Shift, List.foldl_cons, List.foldl_nil, gmul_xor] at hroot ⊢
  rw [hroot]
  exact xor_pairs ..

theorem gevalFrom_rs4 {x : Byte} (hx : rs4Root x) (l : List Byte) (e : Byte) (r : Byte × Byte × Byte × Byte)
    (h : gevalFrom x e (rs4Bytes r) = 0) : gevalFrom x (gevalFrom x e l) (rs4Bytes (l.foldl rs4Step r)) = 0 := by
  induction l generalizing e r with
  | nil => exact h
  | cons b l ih =>
    refine ih (gmul e x ^^^ b) (rs4Step r b) ?_
    have hb : b = (b ^^^ r.1) ^^^ r.1 := by rw [BitVec.xor_assoc, BitVec.xor_self, BitVec.xor_zero]
    calc _ = gevalFrom x (gmul e x ^^^ ((b ^^^ r.1) ^^^ r.1)) (rs4Bytes (rs4Shift r (b ^^^ r.1))) := by rw [← hb, rs4Step]
      _ = gmul (gevalFrom x e (rs4Bytes r)) x := gevalFrom_rs4Shift hx _ _ _
      _ = 0 := by rw [h, gmul_zero]

/-- Data and check bytes are divisible by the generator. -/
theorem geval_rs4 {x : Byte} (hx : rs4Root x) (l : List Byte) : geval x (l ++ rs4 l) = 0 := by
  rw [geval_append, rs4_eq]
  exact gevalFrom_rs4 hx l 0 (0, 0, 0, 0) (gevalFrom_zeros x)

/-- With a mask over the check bytes the value is that of the mask. -/
theorem geval_rs4_mask {x : Byte} (hx : rs4Root x) (l : List Byte) (m : Byte) :
    geval x (l ++ (rs4 l).map (· ^^^ m)) = geval x [m, m, m, m] := by
  have hmask := gevalFrom_mask x m (geval x l) 0 (rs4 l)
  have hzero (a : Byte) : a ^^^ 0 = a := BitVec.xor_zero
  rw [hzero, ← geval_append, ← geval_append, geval_rs4 hx, BitVec.xor_comm, hzero] at hmask
  exact hmask

/-! ## Codewords (R256, R259, R260) -/

/-- The check bytes of a codeword, with the poison mask of R260 where it is poisoned. -/
def cwCheck (g : Gran) (poison : Bool) : List Byte := (rs4 (granBytes g)).map fun b => if poison then b ^^^ 0xFF else b

theorem cwCheck_length (g : Gran) (poison : Bool) : (cwCheck g poison).length = 4 := by rw [cwCheck, List.length_map]; rfl

theorem cwMake_eq (g : Gran) (poison : Bool) : cwMake g poison = BitVec.ofNat 32 (leNat (cwCheck g poison)) ++ g := rfl

theorem cwData_cwMake (g : Gran) (poison : Bool) : cwData (cwMake g poison) = g := by
  rw [cwData, cwMake_eq]
  exact BitVec.setWidth_append_eq_right

/-- Byte `k` of a little-endian number, bit by bit. -/
theorem leNat_testBit (l : List Byte) {k : Nat} (hk : k < l.length) {j : Nat} (hj : j < 8) :
    (leNat l).testBit (8 * k + j) = l[k].getLsbD j := by
  induction l generalizing k with
  | nil => exact absurd hk (Nat.not_lt_zero k)
  | cons b l ih =>
    rw [leNat, Nat.add_comm, show (256 : Nat) = 2 ^ 8 from rfl, Nat.testBit_two_pow_mul_add _ b.isLt]
    cases k with
    | zero => rw [if_pos (by omega), Nat.mul_zero, Nat.zero_add]; rfl
    | succ k =>
      rw [if_neg (by omega), show 8 * (k + 1) + j - 8 = 8 * k + j by omega]
      exact ih (Nat.lt_of_succ_lt_succ hk)

theorem cwBytes_cwMake (g : Gran) (poison : Bool) : cwBytes (cwMake g poison) = granBytes g ++ cwCheck g poison := by
  have hlen := cwCheck_length g poison
  refine List.ext_getElem (by simp [cwBytes, granBytes, hlen]) fun i hi _ => ?_
  have hi68 : i < 68 := by simpa [cwBytes] using hi
  simp only [cwBytes, granBytes, cwMake_eq, List.getElem_append, List.getElem_map, List.getElem_range, List.length_map, List.length_range]
  refine BitVec.eq_of_getLsbD_eq fun j hj => ?_
  rw [BitVec.getLsbD_extractLsb', BitVec.getLsbD_append, decide_eq_true hj, Bool.true_and]
  split
  case isTrue h =>
    rw [dif_pos (by omega), BitVec.getLsbD_extractLsb', decide_eq_true hj, Bool.true_and]
  case isFalse h =>
    rw [dif_neg (by omega), BitVec.getLsbD_ofNat, decide_eq_true (by omega), Bool.true_and,
      show 8 * i + j - 512 = 8 * (i - 64) + j by omega]
    exact leNat_testBit _ _ hj

/-- The syndromes of a codeword are those of its poison mask. -/
theorem geval_cwMake {x : Byte} (hx : rs4Root x) (g : Gran) (poison : Bool) :
    geval x (cwBytes (cwMake g poison)) = if poison then geval x [0xFF, 0xFF, 0xFF, 0xFF] else 0 := by
  rw [cwBytes_cwMake]
  cases poison with
  | false => simpa [cwCheck] using geval_rs4 hx (granBytes g)
  | true => exact geval_rs4_mask hx _ _

/-- The mask has the syndromes 0x00, 0x6C, 0x5E and 0xF0 by which the second row of R259 knows it. -/
theorem cwDecode_cwMake (g : Gran) (poison : Bool) : cwDecode (cwMake g poison) = if poison then .poison g else .good g := by
  have syndrome {x : Byte} (hx : x = 1 ∨ x = 2 ∨ x = 4 ∨ x = 8) := geval_cwMake (rs4Root_of_syndrome hx) g poison
  simp only [cwDecode, syndrome (.inl rfl), syndrome (.inr (.inl rfl)), syndrome (.inr (.inr (.inl rfl))),
    syndrome (.inr (.inr (.inr rfl))), cwData_cwMake]
  cases poison <;> rfl

/-! ## Lanes (R178) -/

/-- The scrambler's output is added, so that a second pass takes it off. -/
theorem scramble_scramble (r : BitVec 23) (l : List Byte) : scramble r (scramble r l) = l := by
  induction l generalizing r with
  | nil => rfl
  | cons b l ih => rw [scramble, scramble, ih, BitVec.xor_assoc, BitVec.xor_self, BitVec.xor_zero]

/-- Lane by lane, what descrambling gives back is what was striped. -/
theorem descramble_lanes (v : Vector (BitVec 23) 16) (x : List (List Byte)) :
    (x.zipIdx.map fun y => scramble v[Fin.ofNat 16 y.2] y.1).zipIdx.map (fun y => scramble v[Fin.ofNat 16 y.2] y.1) = x := by
  refine List.ext_getElem (by simp) fun i _ _ => ?_
  simp only [List.getElem_map, List.getElem_zipIdx, Nat.zero_add, scramble_scramble]

/-- Byte `i` of a flit stands on lane `i % n` as byte `i / n`. -/
theorem unstripe_stripe {n : Nat} (hn : n ∣ 256) {b : List Byte} (hb : b.length = 256) : unstripe n (stripe n b) = b := by
  obtain ⟨m, hm⟩ := hn
  have hpos : 0 < n := Nat.pos_of_ne_zero fun h => by simp [h] at hm
  refine List.ext_getElem (by simp [unstripe, hb]) fun i hi hib => ?_
  have hlane : i % n < n := Nat.mod_lt i hpos
  have hbyte : i / n < 256 / n := by
    rw [hm, Nat.mul_div_cancel_left m hpos]
    exact Nat.div_lt_of_lt_mul (by omega)
  have hl : (stripe n b).getD (i % n) [] = (List.range (256 / n)).map fun j => b.getD (n * j + i % n) 0 := by
    rw [List.getD_eq_getElem _ _ (by simpa [stripe] using hlane)]
    simp only [stripe, List.getElem_map, List.getElem_range]
  simp only [unstripe, hl, List.getElem_map, List.getElem_range]
  rw [List.getD_eq_getElem _ _ (by simpa using hbyte), List.getElem_map, List.getElem_range, Nat.div_add_mod, List.getD_eq_getElem _ _ hib]

theorem lanesIn_lanesOut {n : Nat} (hn : n ∣ 256) (v : Vector (BitVec 23) 16) {b : List Byte} (hb : b.length = 256) :
    lanesIn n v (lanesOut n v b) = b := by
  rw [lanesIn, lanesOut, descramble_lanes, unstripe_stripe hn hb]

/-- Settles O60: a codeword's syndromes are those of its poison mask, and every width divides the flit evenly over its lanes. -/
theorem checkCodesDecodeWhatTheyEncode : Obligations.CheckCodesDecodeWhatTheyEncode := by
  refine ⟨fun g => ⟨cwDecode_cwMake g false, cwDecode_cwMake g true⟩, fun n v b hn hb => lanesIn_lanesOut ?_ v hb⟩
  rcases hn with rfl | rfl | rfl | rfl <;> decide

end Sys2Proof.Machine
end

section
/-!
PROOFS. Register accesses (R335 to R350): whose access goes where, mailboxes, and accesses that are abandoned.
-/

namespace Sys2Proof.Machine

/-! ## Requesters and their accesses -/

namespace DM

variable (x : DM)

theorem reqAgent_castSucc (p : Fin 16) : reqAgent p.castSucc = some p := dif_pos p.isLt

theorem reqAgent_cluster : reqAgent 16 = none := dif_neg (by decide)

/-- An agent's write whose port serves it, with D1 up and nothing before it. -/
theorem accWrite_agent {p : Fin 16} (a : Nat) {width : AccWidth} (be : Byte) (v : Dword) (hopen : x.d.portOpen p = true)
    (hup : x.d.domUp 1 = true) (hfirst : x.d.ports[p].mgqIn = []) (hw : 4 ≤ accBytes width) :
    x.accWrite p.castSucc a width be v = (x.agentWrite p a (accBytes width == 8) be v (x.d.regOk p a true be v)).1 := by
  have hserved : x.accOpen p = true := by rw [accOpen, hopen, hup, hfirst]; rfl
  unfold accWrite
  rw [reqAgent_castSucc]
  exact (if_neg (Nat.not_lt.mpr hw)).trans (if_pos hserved)

theorem accRead_agent {p : Fin 16} (a : Nat) {width : AccWidth} (hopen : x.d.portOpen p = true)
    (hup : x.d.domUp 1 = true) (hfirst : x.d.ports[p].mgqIn = []) (hw : 4 ≤ accBytes width) :
    x.accRead p.castSucc a width = (x.agentRead p a (accBytes width == 8) (x.d.regOk p a false 0 0)).1 := by
  have hserved : x.accOpen p = true := by rw [accOpen, hopen, hup, hfirst]; rfl
  unfold accRead
  rw [reqAgent_castSucc]
  exact (if_neg (Nat.not_lt.mpr hw)).trans (if_pos hserved)

section Cluster

variable {x} (hup : x.mgtUp = true)
include hup

/-- A write of the cluster that is not refused, to a near block or in a compact rig. -/
theorem accWrite_cluster {a : Nat} {width : AccWidth} (be : Byte) (v : Dword) (hcause : accCause a (accBytes width) true false = none)
    (hnow : regNear a = true ∨ x.d.compact = true) : x.accWrite 16 a width be v = x.writeNow 16 a (accBytes width) be.toNat v := by
  unfold accWrite
  rw [reqAgent_cluster]
  simp only [mgtWrite, hup, Bool.not_true, Bool.false_eq_true, if_false, hcause]
  exact if_pos hnow

theorem accRead_cluster {a : Nat} {width : AccWidth} (hcause : accCause a (accBytes width) false false = none) :
    x.accRead 16 a width = (readKeep (x.fabricRead 16 a (accBytes width)) 16).1 := by
  unfold accRead
  rw [reqAgent_cluster]
  simp only [mgtRead, hup, Bool.not_true, Bool.false_eq_true, if_false, hcause]

end Cluster

/-! ## Registers of a block that is up -/

theorem writePart_quiet {r : Requester} {a : Nat} (v : Word) {en : Word} (hhere : x.d.blockReefed a = false) (hen : en ≠ 0)
    (hquiet : x.d.quiet r a) : x.writePart r a v en = x.writeAlone r a v en 0 := by
  rw [writePart, hhere, if_neg (by decide), x.writeReg_quiet r a v en 0 hen hquiet]

/-- A write of a whole register is one part, every bit enabled. -/
theorem writeNow_word (r : Requester) {a : Nat} (v : Word) (ha : a % 4 = 0) :
    x.writeNow r a 4 15 (v.setWidth 64) = x.writePart r a v 0xFFFFFFFF := by
  have hmask : laneMask (15 % 2 ^ 4 * 2 ^ 0) = 0xFFFFFFFF := by decide
  have hv : (v.setWidth 64).truncate 32 <<< (8 * 0) = v := by simp
  unfold writeNow
  rw [if_neg (by decide)]
  dsimp only
  rw [ha, hmask, hv, Nat.sub_zero]

end DM

/-! ## Mailboxes (R347 to R349) -/

/-- Where the registers of a mailbox stand. -/
theorem mbx_range {a : Nat} (m : Fin 8) (k : Nat) (h : a = 0x60000 + 0x40 * m.val + 4 * k) (hk : k < 16) :
    (0x60000 ≤ a ∧ a < 0x60200) ∧ a % 4 = 0 := by omega

theorem mbx_range_mbxD (m : Fin 8) (k : Fin 12) :
    (0x60000 ≤ Reg.mbxD m.val k.val ∧ Reg.mbxD m.val k.val < 0x60200) ∧ Reg.mbxD m.val k.val % 4 = 0 :=
  mbx_range m (4 + k.val) (by simp only [Reg.mbxD]; omega) (by omega)

theorem regDom_of_mbx {a : Nat} (h : 0x60000 ≤ a ∧ a < 0x60200) : regDom a = some 1 := by
  unfold regDom
  repeat rw [if_neg (by omega)]
  rw [if_pos (by omega)]

/-- No access of the cluster to a register of a mailbox is refused. -/
theorem accCause_of_mbx {a : Nat} (h : (0x60000 ≤ a ∧ a < 0x60200) ∧ a % 4 = 0) (write : Bool) :
    accCause a 4 write false = none := by
  obtain ⟨hrange, ha⟩ := h
  have halign : accAligned a 4 = true := by rw [accAligned, ha]; rfl
  rw [accCause, halign, regDom_of_mbx hrange]
  rfl

/-- The block of the mailboxes is up with D1. -/
theorem Data.mbx_open {d : Data} {a : Nat} (h : 0x60000 ≤ a ∧ a < 0x60200) (hup : d.domUp 1 = true) : d.blockReefed a = false :=
  Data.one_open (regDom_of_mbx h) (.inl (by omega)) hup

theorem regNear_of_mbx {a : Nat} (h : 0x60000 ≤ a ∧ a < 0x60200) : regNear a = true := by
  have : 0x60000 ≤ a ∧ a < 0x90000 := by omega
  simp [regNear, this]

/-- No register of a mailbox has a field that a read clears. -/
theorem rc_free_of_mbxD : ∀ (m : Fin 8) (k : Fin 12), ∀ row ∈ regRow (Reg.mbxD m.val k.val), ∀ f ∈ row.flds, f.acc ≠ .rc := by
  decide +kernel

/-- A register without fields that a read clears reads as it stands. -/
theorem Data.rcWas_of_rc_free (d : Data) {a : Nat} (v : Word) (h : ∀ row ∈ regRow a, ∀ f ∈ row.flds, f.acc ≠ .rc) : d.rcWas a v = v := by
  unfold Data.rcWas
  split
  · rfl
  · next row hrow =>
    refine List.foldlRecOn row.flds _ (motive := (· = v)) rfl fun w hw f hf => ?_
    have : (f.acc == Acc.rc) = false := beq_eq_false_iff_ne.mpr (h row hrow f hf)
    split
    · rw [this, if_neg (by decide), hw]
    · exact hw

section Mailbox

variable {s : State} (hup : s.clusterUp)
include hup

theorem State.mgtUp_begun : s.begun.mgtUp = true := by
  obtain ⟨hdom, hcores⟩ := hup
  exact Bool.and_eq_true_iff.mpr ⟨hdom, hcores⟩

/-- The cluster writes a register of a mailbox in whose cycle nothing else happens to it. -/
theorem State.accWrite_mbx {a : Nat} (v : Word) (h : (0x60000 ≤ a ∧ a < 0x60200) ∧ a % 4 = 0) (hquiet : s.d.quiet 16 a) :
    s.begun.accWrite 16 a .w32 0x0F (v.setWidth 64) =
      { s.begun with d := DM.writeMbx (s.d.regWrite a v 0xFFFFFFFF) 16 a v 0xFFFFFFFF } := by
  have hmgt := State.mgtUp_begun hup
  obtain ⟨hdom, -⟩ := hup
  have ⟨hrange, ha⟩ := h
  calc s.begun.accWrite 16 a .w32 0x0F (v.setWidth 64)
      = s.begun.writeNow 16 a 4 15 (v.setWidth 64) :=
        DM.accWrite_cluster hmgt _ _ (accCause_of_mbx h true) (.inl (regNear_of_mbx hrange))
    _ = s.begun.writePart 16 a v 0xFFFFFFFF := s.begun.writeNow_word 16 v ha
    _ = s.begun.writeAlone 16 a v 0xFFFFFFFF 0 :=
        s.begun.writePart_quiet v (Data.mbx_open hrange hdom) (by decide) hquiet
    _ = _ := DM.writeAlone_mbx _ _ _ _ _ _ (by omega)

end Mailbox

theorem writeMbx_sel (d : Data) (r : Requester) (m : Fin 8) (v : Word) : DM.writeMbx d r (Reg.mbxSel m.val) v 0xFFFFFFFF =
    d.modMbx m fun x => { x with sel := v, owner := r, valid := false, pend := true, start := d.now } := by
  have hm : (Fin.ofNat 8 ((Reg.mbxSel m.val - 0x60000) / 0x40) : Fin 8) = m := mbx_index 0 rfl (by decide)
  have ho : Reg.mbxSel m.val % 0x40 = 0 := by simp only [Reg.mbxSel]; omega
  have hv (old : Word) : (old &&& ~~~(0xFFFFFFFF : Word)) ||| (v &&& 0xFFFFFFFF) = v := by
    rw [show (0xFFFFFFFF : Word) = BitVec.allOnes 32 from rfl, BitVec.not_allOnes, BitVec.and_zero, BitVec.zero_or, BitVec.and_allOnes]
  unfold DM.writeMbx
  rw [if_neg (by simp only [Reg.mbxSel]; omega), if_pos ho, hm]
  simp only [hv]

theorem writeMbx_ack (d : Data) (r : Requester) (m : Fin 8) (v en : Word) : DM.writeMbx d r (Reg.mbxAck m.val) v en =
    d.modMbx m fun x => { x with valid := x.valid && (x.pend || x.doneAt == some d.now) } := by
  have hm : (Fin.ofNat 8 ((Reg.mbxAck m.val - 0x60000) / 0x40) : Fin 8) = m := mbx_index 8 (by simp only [Reg.mbxAck]; omega) (by decide)
  have ho : Reg.mbxAck m.val % 0x40 = 8 := by simp only [Reg.mbxAck]; omega
  unfold DM.writeMbx
  rw [if_neg (by simp only [Reg.mbxAck]; omega), ho, hm]
  rfl

/-- A read of a data word of a mailbox that is being filled marks it early. -/
theorem Data.readEffect_mbx (d : Data) {a : Nat} {m : Fin 8} (hrange : 0x60000 ≤ a ∧ a < 0x60200) (hword : 0x10 ≤ a % 0x40)
    (hm : (Fin.ofNat 8 ((a - 0x60000) / 0x40) : Fin 8) = m) (hpend : d.mbx[m].pend = true) :
    d.readEffect a = (d.modMbx m fun y => { y with early := true }).stamp (Reg.mbxStat m.val) 4 := by
  subst hm
  have hpeak : a ≠ Reg.durPeak := by simp only [Reg.durPeak]; omega
  unfold readEffect
  dsimp only
  rw [if_neg hpeak, if_pos hrange]
  exact if_pos ⟨hword, hpend⟩

theorem DM.fabricRead_mbxD (x : DM) (m : Fin 8) (k : Fin 12) (hup : x.d.domUp 1 = true) (hpend : x.d.mbx[m].pend = true) :
    x.fabricRead 16 (Reg.mbxD m.val k.val) 4 =
      ({ x with d := (x.d.modMbx m fun y => { y with early := true }).stamp (Reg.mbxStat m.val) 4 },
        (x.view 16 (Reg.mbxD m.val k.val)).setWidth 64) := by
  obtain ⟨hrange, -⟩ := mbx_range_mbxD m k
  have hm : (Fin.ofNat 8 ((Reg.mbxD m.val k.val - 0x60000) / 0x40) : Fin 8) = m :=
    mbx_index (0x10 + 4 * k.val) (by simp only [Reg.mbxD]; omega) (by omega)
  have heffect := x.d.readEffect_mbx hrange (by simp only [Reg.mbxD]; omega) hm hpend
  unfold fabricRead
  rw [regNear_of_mbx hrange, if_pos rfl, if_neg (by decide), if_pos rfl, readPart, Data.mbx_open hrange hup,
    if_neg (by decide), readReg, if_neg (by omega), heffect, x.d.rcWas_of_rc_free _ (rc_free_of_mbxD m k)]

theorem DM.mbxFill_of_pend (x : DM) (m : Fin 8) (hpend : x.d.mbx[m].pend = true) : ∃ err ws, x.mbxFill m =
    { x with d := x.d.modMbx m fun y => { y with pend := false, valid := true, doneAt := some x.d.now, err := err, data := ws } } := by
  have hfills : ¬(!x.d.mbx[m].pend) = true := by rw [hpend]; decide
  exact ⟨_, _, if_neg hfills⟩

/-! ## Posted writes and far accesses (R341 to R343) -/

namespace DM

variable {x : DM}

theorem postedRun_of_posted {r : Requester} {p : Posted} {rest : List Posted} (h : x.d.banks[r].posted = p :: rest) :
    x.postedRun r = ({ x with d := x.d.modBank r fun b => { b with posted := rest } } : DM).writeNow
      r p.a.toNat (accBytes p.width) p.be.toNat p.d := by
  simp only [postedRun, h]

theorem postedTimeout_of_due {r : Requester} {p : Posted} {rest : List Posted} (h : x.d.banks[r].posted = p :: rest)
    (hdue : p.start + us 2 ≤ x.d.now) :
    x.postedTimeout r = { x with d := ((x.d.modBank r fun b => { b with posted := rest }).accError r 4 p.a.toNat).evMgt 2 } := by
  simp only [postedTimeout, h, if_pos hdue]

theorem postedAll_of_none {r : Requester} (h : x.d.banks[r].posted = []) : x.postedAll r = x := by rw [postedAll, h]; rfl

/-- An access that stalls the cluster is abandoned; no agent awaits an answer. -/
theorem farLost_of_stalls {a : FarAcc} (hstalls : x.farStalls 16 a = true) (hposted : x.d.banks[(16 : Fin 17)].posted = []) :
    x.farLost 16 a =
      let y : DM := { x with d := (x.d.accError 16 4 a.a.toNat).evMgt 2 }
      if a.write then y else (readKeep (y, allOnes (accBytes a.width)) 16).1 := by
  unfold farLost
  rw [hstalls, if_neg (by decide), postedAll_of_none hposted]
  rfl

end DM

/-- The error response changes the bank of its requester alone, and the record of the cycle. -/
theorem Data.accError_eq (d : Data) (r : Requester) (c : BitVec 3) (a : Nat) : ∃ y, d.accError r c a =
    { d.modBank r fun b => { b with accErr := true, cause := c, errAddr := BitVec.ofNat 32 a } with cyc := y } := ⟨_, rfl⟩

theorem Data.mgqPut_of_open {d : Data} {p : Agent} (hopen : d.portOpen p = true) (i : MgqItem) (cred : Bool) :
    d.mgqPut p i cred = d.modPort p fun x => { x with mgqIn := x.mgqIn.concat (i, cred) } := by
  rw [mgqPut, hopen, if_neg (by decide)]

/-- Settles O17: each access is served where its requester and its address send it; the mailbox, the posted write or the far access is
found as the command needs it. -/
theorem registerAccessesComplete : Obligations.RegisterAccessesComplete := by
  refine ⟨fun p tag a w64 be v s hopen => ⟨?regRd, ?regWr, fun hup hfirst m k => ⟨fun width hw => ?write, ?read, ?data⟩⟩,
    fun a width be v s hup => ⟨fun hcause hnow => ?clusterWrite, fun w64 hcause => ?clusterRead⟩,
    fun m k v s hup hsel hack => ⟨?sel, ?ack, fun hpend => ?early⟩, fun m s hpend => ?fill,
    fun r p rest s hposted => ⟨?effect, fun hdue => ?timeout⟩,
    fun a s hstalls hposted => ⟨fun hwrite => ?lostWrite, fun hread => ?lostRead⟩, fun d r c a => ?error⟩
  case regRd => exact exec_after rfl (Data.mgqPut_of_open hopen _ _)
  case regWr => exact exec_after rfl (Data.mgqPut_of_open hopen _ _)
  case write => exact exec_afterDM rfl (s.begun.accWrite_agent a.toNat be v hopen hup hfirst hw)
  case read =>
    refine exec_afterDM rfl ?_
    cases w64
    · exact s.begun.accRead_agent (width := .w32) a.toNat hopen hup hfirst (by decide)
    · exact s.begun.accRead_agent (width := .w64) a.toNat hopen hup hfirst (by decide)
  case data => exact exec_afterDM rfl (s.begun.accRead_agent (width := .w32) _ hopen hup hfirst (by decide))
  case clusterWrite => exact exec_afterDM rfl (DM.accWrite_cluster (State.mgtUp_begun hup) be v hcause hnow)
  case clusterRead =>
    refine exec_afterDM rfl ?_
    cases w64
    · exact DM.accRead_cluster (width := .w32) (State.mgtUp_begun hup) hcause
    · exact DM.accRead_cluster (width := .w64) (State.mgtUp_begun hup) hcause
  case sel =>
    have hrange := mbx_range (a := Reg.mbxSel m.val) m 0 (by simp only [Reg.mbxSel]; omega) (by decide)
    refine exec_afterDM_data rfl ((State.accWrite_mbx hup v hrange hsel).trans ?_)
    rw [writeMbx_sel]
    obtain ⟨regs, hwrite⟩ := s.d.regWrite_eq (Reg.mbxSel m.val) v 0xFFFFFFFF
    rw [hwrite]
  case ack =>
    have hrange := mbx_range (a := Reg.mbxAck m.val) m 2 (by simp only [Reg.mbxAck]; omega) (by decide)
    refine exec_afterDM_data rfl ((State.accWrite_mbx hup 1 hrange hack).trans ?_)
    rw [writeMbx_ack]
    obtain ⟨regs, hwrite⟩ := s.d.regWrite_eq (Reg.mbxAck m.val) 1 0xFFFFFFFF
    rw [hwrite]
  case early =>
    have hread := DM.accRead_cluster (width := .w32) (State.mgtUp_begun hup) (accCause_of_mbx (mbx_range_mbxD m k) false)
    obtain ⟨hdom, -⟩ := hup
    exact exec_afterDM rfl (hread.trans (congrArg (fun x => (DM.readKeep x 16).1) (s.begun.fabricRead_mbxD m k hdom hpend)))
  case fill =>
    obtain ⟨err, ws, hfill⟩ := s.begun.mbxFill_of_pend m hpend
    exact ⟨err, ws, exec_afterDM_data rfl hfill⟩
  case effect => exact exec_afterDM rfl (DM.postedRun_of_posted hposted)
  case timeout => exact exec_afterDM_data rfl (DM.postedTimeout_of_due hposted hdue)
  case lostWrite =>
    refine exec_afterDM_data rfl ((DM.farLost_of_stalls hstalls hposted).trans ?_)
    rw [hwrite]
    rfl
  case lostRead =>
    refine exec_afterDM_data rfl ((DM.farLost_of_stalls hstalls hposted).trans ?_)
    rw [hread]
    rfl
  case error =>
    obtain ⟨y, h⟩ := d.accError_eq r c a
    rw [h]
    simp only [Data.modBank_banks]
    rw [vmod_self]
    exact ⟨rfl, rfl, rfl, rfl, fun q hq => vmod_other _ _ hq, rfl, rfl⟩

end Sys2Proof.Machine
end

section
/-!
PROOFS. Links: training (R176, R179, R180), and DIS and RETRAIN (R206, R215).
-/

namespace Sys2Proof.Machine

namespace Data

variable (d : Data) (l : LinkId)

/-! ## Training sets as a lane carries them (R176, R179) -/

section Lane

variable {d l} {lane : Fin 16} (hpol : d.links[l].pol.getLsbD lane.val = false)
include hpol

/-- A lane of polarity 0 gives a valid training set as it came. -/
theorem stsPol_of_valid {w : BitVec 256} {ty : Nat} (hok : stsOk w ty = true) : d.stsPol l lane w ty = (d, w) := by
  unfold stsPol
  dsimp only
  rw [hpol, if_neg (by decide : ¬(false = true)), if_neg]
  rintro ⟨-, hbad, -⟩
  rw [hok] at hbad
  exact absurd hbad (by decide)

/-- In TRAIN one that is valid inverted sets the polarity of its lane. -/
theorem stsPol_of_inverted {w : BitVec 256} {ty : Nat} (hst : d.links[l].st = .train) (hbad : stsOk w ty = false)
    (hok : stsOk (~~~w) ty = true) :
    d.stsPol l lane w ty = (d.modLink l fun x => { x with pol := setBit x.pol lane.val true }, ~~~w) := by
  have h : d.links[l].st = .train ∧ (!stsOk w ty) = true ∧ stsOk (~~~w) ty = true := ⟨hst, by rw [hbad]; rfl, hok⟩
  unfold stsPol
  dsimp only
  rw [hpol, if_neg (by decide : ¬(false = true)), if_pos h]
  rfl

end Lane

theorem stsTake_of_train {d : Data} {l : LinkId} (hst : d.links[l].st = .train) (lane : Fin 16) {w : BitVec 256} {two : Bool}
    (hok : stsOk w (if two then 2 else 1) = true) : d.stsTake l lane w two = (d.stsCount l lane w false).trainDone l := by
  rw [stsTake, hok, if_neg (by decide), hst]

/-- In CFG an STS2 of the other end, for the lane that carries it. -/
theorem stsTake_of_cfg {d : Data} {l : LinkId} (hst : d.links[l].st = .cfg) {lane : Fin 16} {w : BitVec 256} (hok : stsOk w 2 = true)
    (hrole : nbit (stsByte w 8) 1 ≠ d.linkRole l) (hlane : stsByte w 5 = lane.val) :
    d.stsTake l lane w true = (d.stsCount l lane w true).cfgDone l := by
  have hok' : stsOk w (if true then 2 else 1) = true := hok
  rw [stsTake, hok', if_neg (by decide), hst]
  exact (if_neg hrole).trans (if_neg fun h => h.2 hlane)

theorem stsRecv_of_lane {d e : Data} {l : LinkId} {lane : Fin 16} {w v : BitVec 256} {two : Bool} (hlane : laneOk l lane = true)
    (hpol : d.stsPol l lane w (if two then 2 else 1) = (e, v)) : d.stsRecv l lane w two = e.stsTake l lane v two := by
  rw [stsRecv, hlane, if_neg (by decide), hpol]

/-- SDM blocks count on lane 0. -/
theorem sdmRecv_of_init {w : BitVec 256} (hst : d.links[l].st = .init) (hpol : d.links[l].pol.getLsbD 0 = false)
    (hok : stsOk w 3 = true) : d.sdmRecv l 0 w = (d.modLink l fun x => { x with sdm := x.sdm + 1 }).initDone l := by
  have hpol' : d.links[l].pol.getLsbD (0 : Fin 16).val = false := hpol
  unfold sdmRecv
  rw [hpol', if_neg (by decide : ¬(false = true))]
  exact if_pos ⟨hst, hok, rfl⟩

/-! ## DIS and RETRAIN (R206, R215) -/

theorem linkDis_of_active {d : Data} {p : Agent} (h : d.links[aptLink p].st = .active) :
    d.linkDis p = (d.flagSet (Reg.aptLinkCtl p.val) 0 true).linkDown (aptLink p) := if_pos h

theorem linkRetrain_of_down {d : Data} {p : Agent} (hst : d.links[aptLink p].st = .down)
    (hdis : d.flag (Reg.aptLinkCtl p.val) 0 = false) : d.linkRetrain p = d.linkDetect (aptLink p) :=
  if_pos ⟨hst, by rw [hdis]; rfl⟩

end Data

/-- What a write of APTn_LINK_CTL triggers, beside the fields that it writes. -/
theorem DM.writeAlone_aptLinkCtl (x : DM) (r : Requester) (p : Fin 16) (v en : Word) (m : BitVec 67) :
    x.writeAlone r (Reg.aptLinkCtl p.val) v en m =
      let d := x.d.regWrite (Reg.aptLinkCtl p.val) v en
      { x with d := (d.when (hit v en 0) (Data.linkDis · p)).when (hit v en 1) (Data.linkRetrain · p) } := by
  have ho : Reg.aptLinkCtl p.val % 0x10000 = 0x04 := by simp only [Reg.aptLinkCtl]; omega
  have hp : (Fin.ofNat 16 ((Reg.aptLinkCtl p.val - 0x200000) / 0x10000) : Agent) = p :=
    apt_index 4 (by simp only [Reg.aptLinkCtl]; omega) (by decide)
  rw [writeAlone_apt _ _ _ _ _ _ (by simp only [Reg.aptLinkCtl]; omega), writeApt, if_pos ho, hp]

/-- Settles O23: each command finds the link in the state in which it counts, and a limit or an equalisation ends the state. -/
theorem linkTrainingCompletes : Obligations.LinkTrainingCompletes := by
  refine ⟨fun l s => ⟨fun hst => ⟨?detected, fun hdue => ?again⟩, fun lane w hlane hst hpol => ⟨fun hok => ?sts1, fun hok => ?sts2,
      fun hbad hok => ?inverted⟩, fun lane w hlane hst hpol hok hrole hnum => ?cfg, fun w hst hpol hok => ?sdm, fun h => ?trainLimit,
      fun h => ?cfgLimit, fun h => ?initLimit, fun hst => ⟨?eqDone, ?eqFail⟩, fun hst => ?eqFail32⟩,
    fun d l => ⟨fun hst hsent hlanes => ?trained, fun h => ?notTrained, fun hst hok hsdm hsent => ?up, fun h => ?notUp⟩,
    fun p s hreach => ⟨fun hst => ?dis, fun hst hdis => ?retrain⟩⟩
  case detected => exact exec_after rfl (if_pos hst)
  case again => exact exec_after rfl (if_pos ⟨hst, hdue⟩)
  case sts1 => exact exec_after rfl ((Data.stsRecv_of_lane hlane (Data.stsPol_of_valid hpol hok)).trans (Data.stsTake_of_train hst lane hok))
  case sts2 => exact exec_after rfl ((Data.stsRecv_of_lane hlane (Data.stsPol_of_valid hpol hok)).trans (Data.stsTake_of_train hst lane hok))
  case inverted =>
    refine exec_after rfl ((Data.stsRecv_of_lane hlane (Data.stsPol_of_inverted hpol hst hbad hok)).trans ?_)
    refine Data.stsTake_of_train ?_ lane hok
    rw [Data.modLink_links, vmod_self]
    exact hst
  case cfg =>
    exact exec_after rfl ((Data.stsRecv_of_lane hlane (Data.stsPol_of_valid hpol hok)).trans (Data.stsTake_of_cfg hst hok hrole hnum))
  case sdm => exact exec_after rfl (s.d.sdmRecv_of_init l hst hpol hok)
  case trainLimit => exact exec_after rfl (if_pos h)
  case cfgLimit => exact exec_after rfl (if_pos h)
  case initLimit => exact exec_after rfl (if_pos h)
  case eqDone => exact exec_after rfl (by rw [Data.eqComplete, hst])
  case eqFail => exact exec_after rfl (by rw [Data.eqFailure, hst])
  case eqFail32 => exact exec_after rfl (by rw [Data.eqFailure, hst])
  case trained => exact if_pos ⟨hst, hsent, hlanes⟩
  case notTrained =>
    refine if_neg ?_
    rintro ⟨-, hsent, hlanes⟩
    rcases h with h | h
    · exact Bool.eq_false_iff.mp h hsent
    · exact Bool.eq_false_iff.mp h hlanes
  case up => exact if_pos ⟨hst, hok, hsdm, hsent⟩
  case notUp =>
    refine if_neg ?_
    rintro ⟨-, hok, hsdm, hsent⟩
    rcases h with h | h | h
    · exact Bool.eq_false_iff.mp h hok
    · exact absurd hsdm (Nat.not_le.mpr h)
    · exact Bool.eq_false_iff.mp h hsent
  case dis =>
    refine exec_afterDM_data rfl (State.trigger_data hreach (by decide) (DM.writeAlone_aptLinkCtl _ _ p _ _ _) ?_)
    obtain ⟨regs, hwrite⟩ := s.d.regWrite_eq (Reg.aptLinkCtl p.val) 1 1
    rw [State.begun_d, hwrite]
    exact Data.linkDis_of_active (d := { s.d with regs := regs }) hst
  case retrain =>
    refine exec_afterDM_data rfl (State.trigger_data hreach (by decide) (DM.writeAlone_aptLinkCtl _ _ p _ _ _) ?_)
    have hoff : (s.d.regWrite (Reg.aptLinkCtl p.val) 2 2).flag (Reg.aptLinkCtl p.val) 0 = false :=
      (s.d.flag_regWrite_off _ _ _ 0 (by decide)).trans hdis
    obtain ⟨regs, hwrite⟩ := s.d.regWrite_eq (Reg.aptLinkCtl p.val) 2 2
    rw [hwrite] at hoff
    rw [State.begun_d, hwrite]
    exact Data.linkRetrain_of_down (d := { s.d with regs := regs }) hst hoff

end Sys2Proof.Machine
end

section
/-!
PROOFS. Flits of a link (R182, R183, R201 to R204) and RECOVER (R180, R181, R379).
-/

namespace Sys2Proof.Machine

/-- Lanes below a count are all in a set. -/
theorem lanesAll_iff (n : Nat) (p : Fin 16 → Bool) : lanesAll n p = true ↔ ∀ k : Fin 16, k.val < n → p k = true := by
  simp [lanesAll, or_iff_not_imp_left]

namespace Data

variable (d : Data) (l : LinkId)

theorem linkPort_shdLink : linkPort shdLink = none := rfl

/-! ## Flits as they come (R182, R202) -/

section Good

variable {d l} {w : BitVec 2048} {b : List Byte} (hin : flitIn w = some b)
include hin

theorem payload_of_active (hst : d.links[l].st = .active) (hty : bits (leAt b 0 2) 0 2 = 1) :
    d.payload l w = (d.flitTake l w).payloadRecv l b := by
  unfold payload
  rw [hin]
  exact if_pos ⟨hst, hty⟩

/-- A NOP flit without a LNK slot. -/
theorem nop_of_active (hst : d.links[l].st = .active) (hty : bits (leAt b 0 2) 0 2 = 0)
    (hlnk : ∀ x ∈ flitSlots b, bits x.toNat 0 4 ≠ 2) : d.nop l w = d.flitTake l w := by
  have hnone : (flitSlots b).filter (fun s => bits s.toNat 0 4 == 2) = [] :=
    List.filter_eq_nil_iff.mpr fun x hx => by simpa using hlnk x hx
  unfold nop
  rw [hin]
  dsimp only
  rw [if_neg (not_not_intro hty), hst, hnone]
  rfl

/-- In INIT the LNK slot of a NOP flit gives the credits, where it grants the least of each class. -/
theorem nop_of_init {x : Slot} (hst : d.links[l].st = .init) (hty : bits (leAt b 0 2) 0 2 = 0)
    (hlnk : (flitSlots b).find? (fun s => bits s.toNat 0 4 == 2) = some x)
    (hcr : ((List.finRange 5).all fun c => decide ((minGrant l)[c] ≤ (lnkCredits x)[c].toNat)) = true) :
    d.nop l w = ((d.flitTake l w).modLink l fun y => { y with recv := lnkCredits x, initOk := true }).initDone l := by
  unfold nop
  rw [hin]
  dsimp only
  rw [if_neg (not_not_intro hty), hst]
  dsimp only
  rw [initNop, hlnk]
  exact if_pos hcr

end Good

/-! A bad flit in a state that carries flits is counted where the link is: at its port, or for the shroud. -/

section Bad

variable {d l} {w : BitVec 2048} (hin : flitIn w = none) (hst : d.links[l].st = .active ∨ d.links[l].st = .init)
include hin hst

theorem badFlit_of_port {p : Agent} (hp : linkPort l = some p) : d.badFlit l w =
    ((((d.flitTake l w).fldCnt (Reg.aptErrCnt p.val) 0 12 1).pmcApt p 2).evApt p 5).nakSend l := by
  unfold badFlit
  rw [hin, hp]
  exact if_neg fun ⟨ha, hi⟩ => hst.elim ha hi

theorem badFlit_of_shroud (hp : linkPort l = none) : d.badFlit l w = ((d.flitTake l w).tally 510).nakSend l := by
  unfold badFlit
  rw [hin, hp]
  exact if_neg fun ⟨ha, hi⟩ => hst.elim ha hi

end Bad

theorem nakResend_of_due {t : Nat} (hnak : d.links[l].nak = some t) (hdue : t + us 2 ≤ d.now) :
    d.nakResend l = d.modLink l fun x => { x with nak := some d.now } := by
  rw [nakResend, hnak]
  exact if_pos hdue

theorem replayTimeout_of_due {p : Agent} (hp : linkPort l = some p) (hst : d.links[l].st = .active) (hreplay : d.links[l].replay ≠ [])
    (hdue : d.links[l].ackAt + us (act1 (d.fld (Reg.aptTmoCfg p.val) 0 8)) ≤ d.now) :
    d.replayTimeout l = (d.evLink l 6).replay l := by
  rw [replayTimeout, hp]
  exact if_pos ⟨hst, by simpa using hreplay, hdue⟩

/-! ## RECOVER (R180, R181, R379) -/

section Recover

variable {d} (lanes : BitVec 16)

/-- On the shroud link every lane must lock. -/
theorem recoverComplete_shroud (hst : d.links[shdLink].st = .recover) : d.recoverComplete shdLink lanes =
    if lanesAll 16 fun k => lanes.getLsbD k.val && d.links[shdLink].lanes.getLsbD k.val then
      ((d.linkEnter shdLink .active).modLink shdLink fun x => { x.scrReload with traffic := d.now }).replay shdLink
    else d.linkDown shdLink := if_neg (not_not_intro hst)

/-- On an agent's link of four lanes that all lock, the width stays. -/
theorem recoverComplete_x4 {p : Agent} (hst : d.links[aptLink p].st = .recover) (hwidth : d.links[aptLink p].width = 0)
    (hlock : ∀ k : Fin 16, k.val < 4 → lanes.getLsbD k.val = true ∧ d.links[aptLink p].lanes.getLsbD k.val = true) :
    d.recoverComplete (aptLink p) lanes = ((d.linkEnter (aptLink p) .active).modLink (aptLink p) fun x =>
      { x.scrReload with width := 0, lanes := 0xF, traffic := d.now }).replay (aptLink p) := by
  have hall : lanesAll (laneCount 0) (fun k => lanes.getLsbD k.val && d.links[aptLink p].lanes.getLsbD k.val) = true :=
    (lanesAll_iff _ _).mpr fun k hk => Bool.and_eq_true_iff.mpr (hlock k hk)
  have hfind : (List.range 3).find? (fun w => decide (d.links[aptLink p].width.toNat ≤ w) &&
      lanesAll (laneCount w) fun k => lanes.getLsbD k.val && d.links[aptLink p].lanes.getLsbD k.val) = some 0 := by
    rw [hwidth, show List.range 3 = 0 :: [1, 2] from rfl, List.find?_cons_of_pos (by rw [hall]; rfl)]
  unfold recoverComplete
  rw [if_neg (not_not_intro hst)]
  simp only [linkPort_aptLink, hfind]
  rw [hwidth]
  rfl

end Recover

theorem recoverTimeout_of_over (hover : d.linkOver l .recover (ms 2) = true) : d.recoverTimeout l =
    if d.links[l].rate.toNat < 2 then ((d.linkEnter l .recover).modLink l fun x => { x with rate := x.rate + 1 }).linkDegrade l
    else d.linkDown l := by
  rw [recoverTimeout, hover, if_neg (by decide)]

end Data

/-- Settles O24: each command finds the flit or the link as its own branch needs it. -/
theorem flitCommandsComplete : Obligations.FlitCommandsComplete := by
  refine ⟨fun l s w hst b hin => ⟨fun hty => ?payload, fun hty hlnk => ?nop⟩,
    fun l s w hst hin => ⟨fun p hp => ?badPort, fun hp => ?badShroud⟩, fun l s w b x hst hin hty hlnk hcr => ?initNop,
    fun l s => ⟨fun t hnak hdue => ?resend, fun hst => ⟨?lost, fun p hp hreplay hdue => ?replay⟩,
      fun lanes hl hst => ⟨fun hall hmine => ?recovered, fun hsome => ?down⟩, fun hover => ⟨fun hrate => ?slower, fun hrate => ?gone⟩⟩,
    fun p lanes s hst hwidth hlock => ?x4⟩
  case payload => exact exec_after rfl (Data.payload_of_active hin hst hty)
  case nop => exact exec_after rfl (Data.nop_of_active hin hst hty hlnk)
  case badPort => exact exec_after rfl (Data.badFlit_of_port hin hst hp)
  case badShroud => exact exec_after rfl (Data.badFlit_of_shroud hin hst hp)
  case initNop => exact exec_after rfl (Data.nop_of_init hin hst hty hlnk hcr)
  case resend => exact exec_after rfl (s.d.nakResend_of_due l hnak hdue)
  case lost => exact exec_after rfl (if_pos hst)
  case replay => exact exec_after rfl (s.d.replayTimeout_of_due l hp hst hreplay hdue)
  case recovered =>
    subst hl
    refine exec_after rfl ((Data.recoverComplete_shroud lanes hst).trans (if_pos ((lanesAll_iff _ _).mpr fun k _ => ?_)))
    rw [hall, hmine, BitVec.getLsbD_allOnes, decide_eq_true k.isLt]
    rfl
  case down =>
    subst hl
    refine exec_after rfl ((Data.recoverComplete_shroud lanes hst).trans (if_neg fun hlock => hsome ?_))
    refine BitVec.eq_of_getLsbD_eq fun i hi => ?_
    have := (lanesAll_iff _ _).mp hlock ⟨i, hi⟩ hi
    rw [BitVec.getLsbD_allOnes, decide_eq_true hi]
    exact (Bool.and_eq_true_iff.mp this).1
  case slower => exact exec_after rfl ((s.d.recoverTimeout_of_over l hover).trans (if_pos hrate))
  case gone => exact exec_after rfl ((s.d.recoverTimeout_of_over l hover).trans (if_neg (Nat.not_lt.mpr hrate)))
  case x4 => exact exec_after rfl (Data.recoverComplete_x4 lanes hst hwidth hlock)

end Sys2Proof.Machine
end

section
/-!
PROOFS. Low power of a link (R207, R208) and credit waits (R200).
-/

namespace Sys2Proof.Machine

namespace Data

variable {d : Data} {p : Agent}

/-! ## L1 (R207, R208) -/

/-- The device is ready and the requests cross, or it is ready and acknowledges. -/
theorem l1ReqRecv_of_ready (hst : d.links[aptLink p].st = .active) (hready : d.l1Ready p = true) : d.l1ReqRecv p =
    (if d.links[aptLink p].l1Req.isSome then d else d.modLink (aptLink p) fun x => Link.nopOut { x with pm := 2 } d.now true).linkL1
      (aptLink p) :=
  (if_neg (not_not_intro hst)).trans (if_pos hready)

theorem l1ReqRecv_of_busy (hst : d.links[aptLink p].st = .active) (hbusy : d.l1Ready p = false) :
    d.l1ReqRecv p = d.modLink (aptLink p) fun x => { x with pm := 3, l1Req := none } :=
  (if_neg (not_not_intro hst)).trans (if_neg (Bool.eq_false_iff.mp hbusy))

theorem l1AckRecv_of_asked (hst : d.links[aptLink p].st = .active) (hreq : d.links[aptLink p].l1Req ≠ none) :
    d.l1AckRecv p = d.linkL1 (aptLink p) := if_pos ⟨hst, Option.isSome_iff_ne_none.mpr hreq⟩

theorem l1Idle_of_due (hst : d.links[aptLink p].st = .active) (hlpok : d.links[aptLink p].lpok = true)
    (hcfg : d.fld (Reg.aptTmoCfg p.val) 24 8 ≠ 0) (hwaits : d.txWaits p = false) (hreq : d.links[aptLink p].l1Req = none)
    (hdue : d.links[aptLink p].traffic + us (d.fld (Reg.aptTmoCfg p.val) 24 8) ≤ d.now) :
    d.l1Idle p = d.modLink (aptLink p) fun x => { x with pm := 1, l1Req := some d.now } :=
  if_pos ⟨hst, hlpok, hcfg, by rw [hwaits]; rfl, by rw [hreq]; rfl, hdue⟩

section Asked

variable {t : Nat} (hreq : d.links[aptLink p].l1Req = some t)
include hreq

theorem l1NakRecv_of_asked : d.l1NakRecv p = d.modLink (aptLink p) fun x => { x with pm := 0, l1Req := none } :=
  if_pos (by rw [hreq]; rfl)

/-- No answer in time counts as L1_NAK. -/
theorem l1AnswerTimeout_of_due (hdue : t + us 2 ≤ d.now) :
    d.l1AnswerTimeout p = d.modLink (aptLink p) fun x => { x with pm := 0, l1Req := none } := by
  rw [l1AnswerTimeout, hreq]
  exact (if_pos hdue).trans (l1NakRecv_of_asked hreq)

end Asked

theorem idleExit_of_l1 (hst : d.links[aptLink p].st = .l1) : d.idleExit p =
    if d.domUp (aptDom p) then d.linkWake (aptLink p)
    else (d.modLink (aptLink p) fun x => { x with exit := true }).domWake (aptDom p) :=
  if_neg (not_not_intro hst)

/-! ## Credit waits (R200) -/

/-- The items that CREDIT_WAIT reports: of the class, not reported before, and as old as TMO_CFG says. -/
def creditDue (d : Data) (p : Agent) (c : MsgClass) (i : TxItem) : Bool :=
  i.cls == c && !i.warned && decide (i.since + us (10 * act1 (d.fld (Reg.aptTmoCfg p.val) 8 8)) ≤ d.now)

/-- CREDIT_WAIT marks just these items and raises its event. -/
theorem creditWait_of_due {c : MsgClass} {i : TxItem} (hdry : d.creditDry p c = true) (hi : i ∈ d.ports[p].tx)
    (hdue : d.creditDue p c i = true) : d.creditWait p c =
      (d.modPort p fun x => { x with tx := lmod (d.creditDue p c) (fun i => { i with warned := true }) d.ports[p].tx }).evApt p 8 :=
  if_pos ⟨hdry, List.any_eq_true.mpr ⟨i, hi, hdue⟩⟩

theorem creditIsolate_of_due {c : MsgClass} {i : TxItem} (hdry : d.creditDry p c = true) (hi : i ∈ d.ports[p].tx) (hcls : i.cls = c)
    (hdue : max i.since (d.links[aptLink p].credAt[txCredit c]) + us (100 * act1 (d.fld (Reg.aptTmoCfg p.val) 16 8)) ≤ d.now) :
    d.creditIsolate p c = d.isolate p :=
  if_pos ⟨hdry, List.any_eq_true.mpr ⟨i, hi, by rw [hcls, beq_self_eq_true, decide_eq_true hdue]; rfl⟩⟩

end Data

/-- A change of some elements that a function does not see. -/
theorem map_lmod {α β : Type} (g : α → β) {f : α → α} (hf : ∀ x, g (f x) = g x) (p : α → Bool) (l : List α) :
    (lmod p f l).map g = l.map g := by
  rw [lmod, List.map_map]
  refine List.map_congr_left fun x _ => ?_
  rw [Function.comp_apply, apply_ite g, hf, ite_self]

/-- Settles O25: each command finds its link, its request or its waiting item as its own branch needs it. -/
theorem lowPowerAndCreditCommandsComplete : Obligations.LowPowerAndCreditCommandsComplete := by
  refine ⟨fun p s hst => ⟨fun hready => ⟨fun hreq => ?cross, fun hreq => ?ack⟩, fun hbusy => ?nak, fun hreq => ?acked,
      fun hlpok hcfg hwaits hreq hdue => ?idle⟩,
    fun p s => ⟨fun t hreq => ⟨?nakked, fun hdue => ?late⟩, fun hst => ⟨fun hup => ?wake, fun hup => ?reefed⟩, fun hst => ?awake,
      fun hover => ?recover, fun c i hdry hi hcls => ⟨fun hwarned hdue => ?wait, fun hdue => ?isolate⟩⟩⟩
  case cross => exact exec_after rfl ((Data.l1ReqRecv_of_ready hst hready).trans (by rw [Option.isSome_iff_ne_none.mpr hreq, if_pos rfl]))
  case ack => exact exec_after rfl ((Data.l1ReqRecv_of_ready hst hready).trans (by rw [hreq]; rfl))
  case nak => exact exec_after rfl (Data.l1ReqRecv_of_busy hst hbusy)
  case acked => exact exec_after rfl (Data.l1AckRecv_of_asked hst hreq)
  case idle => exact exec_after rfl (Data.l1Idle_of_due hst hlpok hcfg hwaits hreq hdue)
  case nakked => exact exec_after rfl (Data.l1NakRecv_of_asked hreq)
  case late => exact exec_after rfl (Data.l1AnswerTimeout_of_due hreq hdue)
  case wake => exact exec_after rfl ((Data.idleExit_of_l1 hst).trans (if_pos hup))
  case reefed => exact exec_after rfl ((Data.idleExit_of_l1 hst).trans (if_neg (Bool.eq_false_iff.mp hup)))
  case awake => exact exec_after rfl (if_pos hst)
  case recover => exact exec_after rfl (if_pos hover)
  case wait =>
    have hdue' : s.d.creditDue p c i = true := by
      rw [Data.creditDue, hcls, beq_self_eq_true, hwarned, decide_eq_true hdue]
      rfl
    refine ⟨_, exec_after rfl (Data.creditWait_of_due hdry hi hdue'), map_lmod _ ?_ _ _⟩
    exact fun _ => rfl
  case isolate => exact exec_after rfl (Data.creditIsolate_of_due hdry hi hcls hdue)

end Sys2Proof.Machine
end

section
/-!
PROOFS. The states of a pair (R382 to R384, R389 to R391, R394): HELLO, heartbeats, the witness, handover and handback.
-/

namespace Sys2Proof.Machine

namespace Data

variable {d : Data}

/-! ## HELLO and heartbeats (R382, R389) -/

section Paired

variable (hpaired : d.paired = true)
include hpaired

/-- In WAIT a HELLO whose identity, SUM and MEMBER agree, of a partner in WAIT or PAIRED. -/
theorem helloRecv_agrees {m : Bool} {ps : BitVec 3} {pid sum : Word} (hst : d.pair.st = .wait) (hpid : pid = d.pairId)
    (hsum : sum = d.shroudSum) (hm : m ≠ d.member) (hps : ps = 1 ∨ ps = 2) :
    d.helloRecv m ps pid sum = ((d.modPair fun p => { p with pst := ps }).pairUp true).sendHello := by
  have hok : (pid == d.pairId && sum == d.shroudSum && m != d.member) = true := by simp [hpid, hsum, hm]
  have hst' : (d.modPair fun p => { p with pst := ps }).pair.st = .wait := hst
  rw [helloRecv, hpaired, if_neg (by decide)]
  dsimp only
  rw [hst', hok]
  exact (if_neg (by decide)).trans (if_pos hps)

theorem helloRecv_differs {m : Bool} (ps : BitVec 3) {pid sum : Word} (hst : d.pair.st = .wait)
    (hdiff : pid ≠ d.pairId ∨ sum ≠ d.shroudSum ∨ m = d.member) : d.helloRecv m ps pid sum =
      ((d.modPair fun p => { p with pst := ps }).modPair fun p => { p with st := .mismatch }).evShd 3 := by
  have hbad : (pid == d.pairId && sum == d.shroudSum && m != d.member) = false := by
    rcases hdiff with h | h | h <;> simp [h]
  have hst' : (d.modPair fun p => { p with pst := ps }).pair.st = .wait := hst
  rw [helloRecv, hpaired, if_neg (by decide)]
  dsimp only
  rw [hst', hbad]
  rfl

/-- A heartbeat in PAIRED of a partner whose power holds, with no decision due and no half on its way. -/
theorem hbRecv_of_paired (ps : BitVec 3) (ms : Bool) (b : Word) (hhand : d.pair.hand = none) (hst : d.pair.st = .paired)
    (hdec : d.pair.deciding = false) : d.hbRecv ps false ms b = d.modPair fun p =>
      { p with hbAt := d.now, miss := 0, pst := ps, pFail := false, pMsync := ms, pBudget := b, witOpen := 0, reads := [] } := by
  have hnot : ¬(d.pair.st = .taken ∧ ps = 6 ∧ d.flag Reg.shdCfg 16 = true ∧ d.pair.failover.isNone = true) := by simp [hst]
  simp only [hbRecv, modPair, hpaired, hhand, hdec, Bool.not_true, Bool.false_and, Bool.or_false, Bool.false_eq_true, if_false]
  exact if_neg hnot

theorem witWriteTimeout_of_due {t : Nat} (hst : d.pair.st ≠ .yielded) (hsent : d.pair.witSent = some t) (hdue : t + us 100 ≤ d.now)
    (hmiss : 0 < d.pair.miss) : d.witWriteTimeout = d.yield_ := by
  rw [witWriteTimeout, hsent]
  exact if_pos ⟨hpaired, hst, hdue, .inl hmiss⟩

end Paired

section InPaired

variable (hst : d.pair.st = .paired)
include hst

/-- The second miss is neither the first, which reads the witness, nor the third, which decides. -/
theorem hbMissed_second (hmiss : d.pair.miss = 1) (hdue : d.pair.hbAt + us 100 ≤ d.now) :
    d.hbMissed = ((d.modPair fun p => { p with miss := 2 }).evShd 4).tally 508 := by
  have hopen : ¬(d.pair.st ≠ .paired ∨ 3 ≤ d.pair.miss ∨ d.now < d.pair.hbAt + us (50 * (d.pair.miss + 1))) := by
    rw [hmiss]
    rintro (h | h | h)
    · exact h hst
    · exact absurd h (by decide)
    · exact absurd hdue (Nat.not_le.mpr h)
  rw [hbMissed, if_neg hopen, hmiss]
  rfl

theorem hbSend_of_due (hlink : d.links[shdLink].st = .active) (hdue : d.pair.hbSent + us 50 ≤ d.now) : d.hbSend = d.sendHb := by
  rw [hbSend, hst]
  exact if_pos ⟨hlink, hdue⟩

/-! ## The witness (R383, R384) -/

theorem witWriteDue_of_due {b : BkpId} (hdue : d.pair.witAt + us 50 ≤ d.now) (hport : d.dur.jA = some b) (htr : d.dur.tr = none) :
    d.witWriteDue = d.modPair fun p =>
      { p with wcnt := p.wcnt + 1, witAt := d.now, witSent := some (p.witSent.getD d.now)
               witLast := some (b, d.witAddr b d.member, d.witGran { p with wcnt := p.wcnt + 1 }) } := by
  rw [witWriteDue, hst]
  refine (if_pos hdue).trans ?_
  rw [witWrite, hport, htr]
  rfl

/-- A read that completes with no decision due is recorded. -/
theorem witReadDone_of_open (r : WitRead) (hopen : d.pair.witOpen ≠ 0) (hdec : d.pair.deciding = false) :
    d.witReadDone r = d.modPair fun p => { p with witOpen := p.witOpen - 1, reads := p.reads.concat r, wit := r.ok } := by
  have hdet : ¬d.pair.st = .detached := by rw [hst]; decide
  have hnot : (!(d.modPair fun p => { p with witOpen := p.witOpen - 1, reads := p.reads.concat r, wit := r.ok }).pair.deciding) = true := by
    rw [modPair_pair, hdec]
    rfl
  rw [witReadDone, if_neg hdet, if_neg hopen, decide_]
  exact if_pos (.inl hnot)

/-! ## Handover and handback (R394) -/

theorem dxfRecv_of_hand (e : Dword) {h : Hand} (hhand : d.pair.hand = some h) (hgiver : h.giver = false) :
    d.dxfRecv e = ((d.dirInstall (d.homeOf (bstDec e.toNat).ga) (bstDec e.toNat) true).modPair fun p =>
      { p with hand := some { h with installed := h.installed.concat (d.homeOf (bstDec e.toNat).ga, (bstDec e.toNat).ga)
                                     count := h.count + 1 } }).ledgerSettle := by
  have hin : ¬(d.pair.st ≠ .paired ∧ d.pair.st ≠ .join) := fun hno => hno.1 hst
  rw [dxfRecv, if_neg hin, hhand, Option.getD_some]
  dsimp only
  rw [hgiver, if_neg (by decide)]

/-- The count agrees, and the half is taken. -/
theorem dxfEndRecv_of_hand {h : Hand} (hhand : d.pair.hand = some h) (hgiver : h.giver = false) : d.dxfEndRecv h.count =
    ((((d.modPair fun p => { p with hand := none }).ilvMod (fun _ _ => true) fun _ x => setBit x 3 d.member).modPair fun p =>
      { p with st := .taken, takenOver := true }).evShd 13).sendHb := by
  have hin : ¬(d.pair.st ≠ .paired ∧ d.pair.st ≠ .join) := fun hno => hno.1 hst
  have hcount : ¬(h.giver = true ∨ h.count ≠ h.count) := by simp [hgiver]
  have hjoin : ¬(d.modPair fun p => { p with hand := none }).pair.st = .join := by
    rw [modPair_pair, hst]
    decide
  rw [dxfEndRecv, if_neg hin, hhand, Option.getD_some]
  dsimp only
  rw [if_neg hcount, if_neg hjoin]

theorem handover_of_free (hhand : d.pair.hand = none) (htr : d.dur.tr = none) : d.handover = d.handStart false :=
  if_pos ⟨hst, by rw [hhand]; rfl, by rw [htr]; rfl⟩

end InPaired

theorem handback_of_join (hst : d.pair.st = .taken) (hhand : d.pair.hand = none) (htr : d.dur.tr = none) (hmate : d.pair.pst = 6)
    (hfo : d.pair.failover = none) : d.handback = d.handStart true :=
  if_pos ⟨hst, hmate, by rw [hhand]; rfl, by rw [hfo]; rfl, by rw [htr]; rfl⟩

theorem foResumeDue_of_done {h : Nat} (hfo : d.pair.failover = some h) (hdone : d.pair.foDone = true) (hout : d.pair.shadowOut = []) :
    d.foResumeDue = d.foResume := if_pos ⟨by rw [hfo]; rfl, hdone, by rw [hout]; rfl⟩

/-! ## WAIT (R382, R384) -/

theorem witReadIssue_of_port (hport : d.dur.jA ≠ none) : d.witReadIssue = d.modPair fun p => { p with witOpen := p.witOpen + 1 } :=
  if_neg (by simpa using hport)

section InWait

variable (hst : d.pair.st = .wait)
include hst

theorem waitWitRead_of_due (hreads : d.pair.reads = []) (hopen : d.pair.witOpen = 0) (hport : d.dur.jA ≠ none)
    (hdue : d.pair.waitAt + ms (act1 (d.fld Reg.shdCfg 0 8)) ≤ d.now + us 100) :
    d.waitWitRead = d.modPair fun p => { p with witOpen := p.witOpen + 1 } :=
  (if_pos ⟨hst, by rw [hreads]; rfl, hopen, hdue⟩).trans (witReadIssue_of_port hport)

/-- JOINW issues the second read; the decision waits for it. -/
theorem joinwExpiry_of_due (hdec : d.pair.deciding = false) (hport : d.dur.jA ≠ none)
    (hdue : d.pair.waitAt + ms (act1 (d.fld Reg.shdCfg 0 8)) ≤ d.now) :
    d.joinwExpiry = d.modPair fun p => { p with witOpen := p.witOpen + 1, deciding := true } := by
  have hwaits : (d.modPair fun p => { p with witOpen := p.witOpen + 1, deciding := true }).pair.witOpen ≠ 0 := Nat.succ_ne_zero _
  unfold joinwExpiry
  dsimp only
  rw [if_pos ⟨hst, by rw [hdec]; rfl, hdue⟩, witReadIssue_of_port hport]
  exact if_pos (.inr hwaits)

end InWait

end Data

/-- What a write of SHD_CTL triggers, beside the fields that it writes. -/
theorem DM.writeAlone_shdCtl (x : DM) (r : Requester) (v en : Word) (m : BitVec 67) :
    x.writeAlone r Reg.shdCtl v en m =
      { x with d := ((x.d.regWrite Reg.shdCtl v en).when (hit v en 0) Data.handover).when (hit v en 1) Data.handback } := by
  rw [writeAlone_shd _ _ _ _ _ _ (by decide), writeShd, if_pos rfl]

/-- Settles O26: each command finds the pair in the state in which it acts. -/
theorem pairStateCommandsComplete : Obligations.PairStateCommandsComplete := by
  refine ⟨fun s hpaired => ⟨fun m ps pid sum hst => ⟨fun hpid hsum hm hps => ?agrees, fun hdiff => ?differs⟩,
      fun sq ps ms b hhand hst hdec => ?hb, fun t hst hsent hdue hmiss => ?unacked⟩,
    fun s hst => ⟨fun hmiss hdue => ?missed, fun hlink hdue => ?send, fun b hdue hport htr => ?witness,
      fun ok wc ps pid hopen hdec => ?read, fun e h hhand hgiver => ⟨?dxf, fun k hcount => ?dxfEnd⟩,
      fun hreach hhand htr => ?handover⟩,
    fun s hst => ⟨fun hreach hhand htr hmate hfo => ?handback, fun h hfo hdone hout => ?resume⟩,
    fun s hst => ⟨fun hreads hopen hport hdue => ?waitRead, fun hdec hport hdue => ?joinw⟩, fun s h => ?retry⟩
  case agrees => exact exec_after rfl (Data.helloRecv_agrees hpaired hst hpid hsum hm hps)
  case differs => exact exec_after rfl (Data.helloRecv_differs hpaired ps hst hdiff)
  case hb => exact exec_after rfl (Data.hbRecv_of_paired hpaired ps ms b hhand hst hdec)
  case unacked => exact exec_after rfl (Data.witWriteTimeout_of_due hpaired hst hsent hdue hmiss)
  case missed => exact exec_after rfl (Data.hbMissed_second hst hmiss hdue)
  case send => exact exec_after rfl (Data.hbSend_of_due hst hlink hdue)
  case witness => exact exec_after rfl (Data.witWriteDue_of_due hst hdue hport htr)
  case read => exact exec_after rfl (Data.witReadDone_of_open hst ⟨ok, wc, ps, pid⟩ hopen hdec)
  case dxf => exact exec_after rfl (Data.dxfRecv_of_hand hst e hhand hgiver)
  case dxfEnd =>
    refine exec_after rfl ?_
    rw [← hcount]
    exact Data.dxfEndRecv_of_hand hst hhand hgiver
  case handover =>
    refine exec_afterDM_data rfl (State.trigger_data hreach (by decide) (DM.writeAlone_shdCtl _ _ _ _ _) ?_)
    obtain ⟨regs, hwrite⟩ := s.d.regWrite_eq Reg.shdCtl 1 1
    rw [State.begun_d, hwrite]
    exact Data.handover_of_free (d := { s.d with regs := regs }) hst hhand htr
  case handback =>
    refine exec_afterDM_data rfl (State.trigger_data hreach (by decide) (DM.writeAlone_shdCtl _ _ _ _ _) ?_)
    obtain ⟨regs, hwrite⟩ := s.d.regWrite_eq Reg.shdCtl 2 2
    rw [State.begun_d, hwrite]
    exact Data.handback_of_join (d := { s.d with regs := regs }) hst hhand htr hmate hfo
  case resume => exact exec_after rfl (Data.foResumeDue_of_done hfo hdone hout)
  case waitRead => exact exec_after rfl (Data.waitWitRead_of_due hst hreads hopen hport hdue)
  case joinw => exact exec_after rfl (Data.joinwExpiry_of_due hst hdec hport hdue)
  case retry => exact exec_after rfl (if_pos h)

end Sys2Proof.Machine
end

section
/-!
PROOFS. The hallmark engine at a power failure, and the ledger.
-/

namespace Sys2Proof.Machine

/-! ## The hallmark engine at a power failure (R250) -/

/-- The device with a read of agent 2 that is followed, with samples going to queue 4 (R331): its sector has come from backing, and it
waits for a way of its set that drains through one write-buffer entry, which is not durable (R100). -/
def readBehindDrain : Data :=
  (({ tDev with rig := some { tRig with regions := [{ base := 0, size := 4096, attr := 0x2B }], table := defaultTable } } : Data).fldSet
    Reg.pmcSmpCfg 8 14 4).modSlice 0 fun s =>
    { s with
      tags := SMap.set {} s.tags (Data.tagKey 0 0) { st := .draining }
      wb := [{ idx := 0, uid := 1, ga := 0, be := beAll, data := 0, kind := .vic, issued := true, dur := false }]
      dir := SMap.set {} s.dir (dsetOf (2 ^ 26) * 16) { ga := 2 ^ 26, pin := true }
      mt := [{ idx := 0, uid := 2, sec := 2 ^ 25, first := 2 ^ 26, alloc := some (0, 0), issued := some 0, got := some {}, htes := [2 ^ 26] }]
      htes := [{ ga := 2 ^ 26, st := 5, req := some 2, rq := some { agent := 2, op := 1, ga := 2 ^ 26 }, rd := true, rr := true, ro := true }]
      samples := [{ seq := 0, req := { agent := 2, op := 1, ga := 2 ^ 26 } }] }

/-- Discarding the entry at TR (R232) frees the way, so that the read is answered and its sample record (R332) is pushed. -/
theorem failStart_pushes_sample : (readBehindDrain.failStart.que1 4).words.length = 5 := by decide +kernel

theorem que_readBehindDrain : readBehindDrain.que = [] := rfl

/-- Refutes O45: the engine pushes nothing, but another producer may push at TR, so that not every queue is as before. A way that
drains through entries that are not durable is free once they are discarded (R232), and a followed read that waits for it is answered,
with a sample record. -/
theorem not_powerFailStopsTheSealEngine : ¬ Obligations.PowerFailStopsTheSealEngine := by
  rintro ⟨hstop, -⟩
  obtain ⟨-, -, hque, -⟩ := hstop readBehindDrain
  have hwords := failStart_pushes_sample
  rw [Data.que1, hque, que_readBehindDrain] at hwords
  exact absurd hwords (by decide)

/-! ## The ledger (R216, R219, R221) -/

namespace Data

variable (d : Data)

@[simp] theorem budRelease_dur : d.budRelease.dur = d.dur := rfl
@[simp] theorem budRelease_evt : d.budRelease.evt = d.evt := rfl
@[simp] theorem keepWas_dur (a lo v : Nat) : (d.keepWas a lo v).dur = d.dur := rfl
@[simp] theorem keepWas_evt (a lo v : Nat) : (d.keepWas a lo v).evt = d.evt := rfl
@[simp] theorem ev_bud (s : Nat) : (d.ev s).bud = d.bud := rfl

/-- What the ledger settles to: the peak, and whether the budget is exceeded and BUD holds. -/
theorem ledgerSettle_dur : ∃ cleaning, d.ledgerSettle.dur =
    { d.dur with peak := max d.dur.peak d.load, past := decide (d.load > d.budget), bud := d.bud, cleaning := cleaning } := by
  simp only [ledgerSettle, evDur_eq, modDur_dur, apply_ite dur, apply_ite bud, ev_dur, ev_bud, budRelease_dur, keepWas_dur, ite_self]
  exact ⟨_, rfl⟩

/-- An event raised where a condition holds takes none back. -/
theorem ev_ite_latch (c : Prop) [Decidable c] {s i : Nat} (hs : s < 1024) (hi : d.evt.latch.getLsbD i = true) :
    (if c then d.ev s else d).evt.latch.getLsbD i = true := by
  split
  · rw [d.ev_latch s i hs, hi, Bool.or_true]
  · exact hi

/-- Passing into a budget exceeded raises index 11 of the durability events (R221, R254). -/
theorem ledgerSettle_latch_over (hpast : d.dur.past = false) (hover : d.budget < d.load) :
    d.ledgerSettle.evt.latch.getLsbD 43 = true := by
  have hraise : (decide (d.load > d.budget) && !d.dur.past) = true := by simp [hpast, hover]
  simp only [ledgerSettle, evDur_eq, modDur_evt, hraise, if_true]
  refine ev_ite_latch _ _ (by decide) ?_
  simp only [apply_ite evt, keepWas_evt, budRelease_evt, ite_self]
  simp only [← apply_ite evt]
  refine ev_ite_latch _ _ (by decide) ?_
  rw [ev_latch _ _ _ (by decide)]
  rfl

end Data

/-- DUR_BUDGET is one field of 32 bits, of type RW. -/
theorem regRow_durBudget : ∃ row, regRow Reg.durBudget = some row ∧ (⟨0, 32, .rw⟩ : Fld) ∈ row.flds := by decide +kernel

/-- A whole write of DUR_BUDGET leaves the value written. -/
theorem Data.reg_regWrite_durBudget (d : Data) (v : Word) : (d.regWrite Reg.durBudget v 0xFFFFFFFF).reg Reg.durBudget = v := by
  obtain ⟨row, hrow, hf⟩ := regRow_durBudget
  rw [d.reg_regWrite_self v _ hrow]
  refine BitVec.eq_of_getLsbD_eq fun i hi => ?_
  rw [accApply_fld (regRow_mem hrow) hf _ _ _ ⟨Nat.zero_le i, by simpa using hi⟩, Acc.written,
    show (0xFFFFFFFF : Word) = BitVec.allOnes 32 from rfl, BitVec.getLsbD_allOnes, decide_eq_true hi, if_pos rfl]

/-- A write of DUR_BUDGET: the field, and the budget before it, which governs for this cycle (R221, R352). -/
theorem DM.writeAlone_durBudget (x : DM) (r : Requester) (v en : Word) (m : BitVec 67) :
    x.writeAlone r Reg.durBudget v en m =
      { x with d := (x.d.regWrite Reg.durBudget v en).modDur fun u => { u with bPrev := some (x.d.budget, x.d.now) } } := by
  obtain ⟨regs, hwrite⟩ := x.d.regWrite_eq Reg.durBudget v en
  rw [DM.writeAlone_dur _ _ _ _ _ _ (by decide), DM.writeDur, if_pos rfl, hwrite]

namespace Data

variable {d : Data} {b t : Nat}

/-- A budget written in the cycle `t` governs from the next one. -/
theorem budget_of_prev (hprev : d.dur.bPrev = some (b, t)) : d.budget = if d.now ≤ t then b else (d.reg Reg.durBudget).toNat := by
  rw [budget, hprev]

theorem budgetSettle_past (hprev : d.dur.bPrev = some (b, t)) (ht : t < d.now) :
    d.budgetSettle.dur.past = decide ((d.reg Reg.durBudget).toNat < d.dur.e + d.dur.rv) := by
  obtain ⟨cleaning, hdur⟩ := (d.modDur fun u => { u with bPrev := none }).ledgerSettle_dur
  rw [budgetSettle, hprev]
  dsimp only
  rw [if_pos ht, hdur]
  rfl

end Data

/-- Settles O56: the ledger's flags are those of the exposure at the instant it settles, and a written budget governs from the next
cycle. -/
theorem ledgerRoomAndBudget : Obligations.LedgerRoomAndBudget := by
  refine ⟨fun d n => ?_, fun d => ?_, fun x r v y hquiet hy => ?_⟩
  · simp [Data.charge, Data.credit]
  · obtain ⟨cleaning, hdur⟩ := d.ledgerSettle_dur
    rw [hdur]
    exact ⟨rfl, rfl, rfl, rfl, rfl, Nat.le_max_left .., Nat.le_max_right .., d.ledgerSettle_latch_over⟩
  · rw [x.writeReg_quiet r _ v _ 0 (by decide) hquiet, x.writeAlone_durBudget] at hy
    have hreg := x.d.reg_regWrite_durBudget v
    obtain ⟨regs, hwrite⟩ := x.d.regWrite_eq Reg.durBudget v 0xFFFFFFFF
    rw [hwrite] at hy hreg
    have hprev : y.dur.bPrev = some (x.d.budget, x.d.now) := by rw [← hy]; rfl
    have hnow : y.now = x.d.now := by rw [← hy]; rfl
    have hv : y.reg Reg.durBudget = v := by rw [← hy]; exact hreg
    refine ⟨?_, by rw [← hy]; rfl, fun t ht => ⟨?_, ?_⟩⟩
    · rw [Data.budget_of_prev hprev, if_pos hnow.le]
    · rw [Data.budget_of_prev (d := { y with now := t }) hprev, if_neg (by rw [← hnow]; exact Nat.not_le.mpr ht)]
      exact congrArg BitVec.toNat hv
    · rw [Data.budgetSettle_past (d := { y with now := t }) hprev (hnow ▸ ht), ← hv, ← hy]
      rfl

end Sys2Proof.Machine
end

section
/-!
PROOFS. The journal: what stands in a record, that a start finds it valid, and that the chain heads come back from it.
-/

namespace Sys2Proof.Machine

/-! ## Bytes at offsets -/

theorem sub_append_here {a b : List Byte} {n : Nat} (h : a.length = n) : sub (a ++ b) 0 n = a := by
  simp [sub, ← h]

theorem sub_append_past {a b : List Byte} {o n : Nat} (h : a.length ≤ o) : sub (a ++ b) o n = sub b (o - a.length) n := by
  simp [sub, List.drop_append, List.drop_eq_nil_of_le h]

theorem leAt_append_past {a b : List Byte} {o n : Nat} (h : a.length ≤ o) : leAt (a ++ b) o n = leAt b (o - a.length) n := by
  rw [leAt, sub_append_past h, leAt]

theorem leNat_leBytes (n x : Nat) : leNat (leBytes n x) = x % 256 ^ n := by
  induction n generalizing x with
  | zero => simp [leBytes, leNat, Nat.mod_one]
  | succ n ih => simp [leBytes, leNat, ih, pow_succ', Nat.mod_mul]

theorem leAt_leBytes_here (n x : Nat) (b : List Byte) : leAt (leBytes n x ++ b) 0 n = x % 256 ^ n := by
  rw [leAt, sub_append_here (leBytes_length n x), leNat_leBytes]

theorem beNat_reverse (l : List Byte) : beNat l.reverse = leNat l := by
  rw [beNat, List.foldl_reverse]
  induction l with
  | nil => rfl
  | cons b l ih => rw [List.foldr_cons, ih, leNat]; omega

theorem length_flatMap_const {α : Type} {f : α → List Byte} {w : Nat} (hw : ∀ x, (f x).length = w) (l : List α) :
    (l.flatMap f).length = w * l.length := by
  simp only [List.length_flatMap, hw, List.map_const', List.sum_replicate_nat, Nat.mul_comm]

/-- Of parts of equal length in a row, part `s`. -/
theorem flatMap_range_split {f : Nat → List Byte} {w : Nat} (hw : ∀ i, (f i).length = w) {s k : Nat} (hs : s < k) :
    ∃ pre post, pre.length = w * s ∧ (List.range k).flatMap f = pre ++ (f s ++ post) := by
  obtain ⟨j, rfl⟩ := Nat.exists_eq_add_of_lt hs
  refine ⟨(List.range s).flatMap f, ((List.range j).map fun i => s + (1 + i)).flatMap f, ?_, ?_⟩
  · rw [length_flatMap_const hw, List.length_range]
  · rw [Nat.add_assoc, List.range_add, Nat.add_comm j 1, List.range_add]
    simp [List.flatMap_append, List.map_map, Function.comp_def]

/-- A map built by writes of `g` at the keys of a list that satisfy `p`. -/
theorem SMap.get_foldl_set {β : Type} [DecidableEq β] (dflt : β) (p : Nat → Prop) [DecidablePred p] (g : Nat → β) (l : List Nat)
    (m : SMap β) (k : Nat) : SMap.get dflt (l.foldl (fun m s => if p s then SMap.set dflt m s (g s) else m) m) k =
      if k ∈ l ∧ p k then g k else SMap.get dflt m k := by
  induction l generalizing m with
  | nil => simp
  | cons s l ih =>
    rw [List.foldl_cons, ih]
    by_cases hks : k = s
    · subst hks
      by_cases hp : p k <;> simp [hp]
    · have hm : SMap.get dflt (if p s then SMap.set dflt m s (g s) else m) k = SMap.get dflt m k := by
        split
        · exact SMap.get_set_other _ _ _ hks
        · rfl
      simp only [hm, List.mem_cons, hks, false_or]

/-! ## A record (R240, R241) -/

namespace Data

variable (d : Data)

/-- The heads as a record carries them (R241). -/
def headsBytes : List Byte := (List.range 256).flatMap fun s => headBytes (SMap.get {} d.hlm.heads s)

/-- MAGIC of a record (R240). -/
def journalMagic : List Byte := [0x4B, 0x4A, 0x52, 0x4E]

theorem journalMagic_length : journalMagic.length = 4 := by decide

/-- The first 24 bytes of a record: MAGIC, VER, STATE, JSEQ, RIG_SEQ and DEVSER (R240). -/
def journalFront (st jseq : Nat) : List Byte :=
  journalMagic ++ (leBytes 2 1 ++ (leBytes 2 st ++ (leBytes 4 jseq ++
    (leBytes 4 (match d.rig with | some r => r.seq | none => 0) ++ leBytes 8 d.fuses.devSer.toNat))))

theorem headBytes_length (h : Head) : (headBytes h).length = 48 := by
  unfold headBytes
  split <;> simp

theorem headsBytes_length : d.headsBytes.length = 12288 := by
  rw [headsBytes, length_flatMap_const fun s => headBytes_length _, List.length_range]

/-- A record is its body, which begins with the fields at fixed offsets, the CRC, and the heads. -/
theorem journalRecord_eq (st jseq : Nat) (f : Bool) : ∃ body, d.journalFront st jseq <+: body ∧ body.length = 4092 ∧
    d.journalRecord st jseq f = body ++ (leBytes 4 (crc32 (body ++ d.headsBytes)).toNat ++ d.headsBytes) := by
  unfold journalRecord
  refine ⟨_, ?_, ?_, List.append_assoc ..⟩
  · simp only [journalFront, journalMagic, List.append_assoc, List.prefix_append_right_inj]
    exact List.prefix_append ..
  · simp only [List.length_append, List.length_cons, List.length_nil, List.length_replicate, List.length_flatMap, leBytes_length,
      List.map_const', List.length_map, List.length_range, List.sum_replicate_nat]

/-- The fields at fixed offsets (R240). -/
theorem journalFront_fields (st jseq : Nat) (l : List Byte) :
    sub (d.journalFront st jseq ++ l) 0 4 = [0x4B, 0x4A, 0x52, 0x4E] ∧
    leAt (d.journalFront st jseq ++ l) 4 2 = 1 ∧ leAt (d.journalFront st jseq ++ l) 6 2 = st % 256 ^ 2 ∧
    leAt (d.journalFront st jseq ++ l) 8 4 = jseq % 256 ^ 4 ∧ leAt (d.journalFront st jseq ++ l) 16 8 = d.fuses.devSer.toNat := by
  have hser := d.fuses.devSer.isLt
  simp only [journalFront, List.append_assoc]
  refine ⟨sub_append_here journalMagic_length, ?ver, ?state, ?jseq, ?ser⟩
  case ver | state | jseq => simp [leAt_append_past, leAt_leBytes_here, journalMagic_length]
  case ser => simpa [leAt_append_past, leAt_leBytes_here, journalMagic_length] using hser

/-- The rest of a record, from its CRC on (R240). -/
theorem journalRecord_tail {body : List Byte} (hlen : body.length = 4092) (crc : Word) (heads : List Byte) (hheads : heads.length = 12288) :
    sub (body ++ (leBytes 4 crc.toNat ++ heads)) 0 4092 = body ∧
    leAt (body ++ (leBytes 4 crc.toNat ++ heads)) 4092 4 = crc.toNat ∧
    sub (body ++ (leBytes 4 crc.toNat ++ heads)) 4096 12288 = heads := by
  refine ⟨sub_append_here hlen, ?_, ?_⟩
  · rw [leAt_append_past hlen.le, hlen, Nat.sub_self, leAt_leBytes_here]
    exact Nat.mod_eq_of_lt crc.isLt
  · rw [sub_append_past (by rw [hlen]; decide), hlen, sub_append_past (by rw [leBytes_length]), leBytes_length]
    simpa using sub_append_here (b := []) hheads

/-- A start finds a record of STATE 1 to 3 valid (R242). -/
theorem journalValid_record {st : Nat} (jseq : Nat) (f : Bool) (hst : st = 1 ∨ st = 2 ∨ st = 3) :
    journalValid (d.journalRecord st jseq f) = true := by
  obtain ⟨body, ⟨rest, hfront⟩, hlen, hrec⟩ := d.journalRecord_eq st jseq f
  obtain ⟨hbody, hcrc, hheads⟩ := journalRecord_tail hlen (crc32 (body ++ d.headsBytes)) d.headsBytes d.headsBytes_length
  obtain ⟨hmagic, hver, hstate, -, -⟩ := d.journalFront_fields st jseq (rest ++ (leBytes 4 (crc32 (body ++ d.headsBytes)).toNat ++ d.headsBytes))
  rw [← List.append_assoc, hfront] at hmagic hver hstate
  rw [hrec, journalValid, hbody, hheads, hmagic, hver, hcrc, hstate]
  rcases hst with rfl | rfl | rfl <;> simp

/-! ## The heads that a start restores (R241, R242) -/

/-- The head that 48 bytes of a record at offset `o` carry where they are valid (R241). -/
def headAt (l : List Byte) (restart : Bool) (o : Nat) : Head :=
  { hash := BitVec.ofNat 256 (beNat (sub l o 32)), seq := leAt l (o + 32) 8, sec := leAt l (o + 40) 6, valid := true, restart := restart }

theorem journalHeads_eq (l : List Byte) (restart : Bool) : journalHeads l restart = (List.range 256).foldl (fun m s =>
    if leAt l (4096 + 48 * s + 46) 2 % 2 = 1 then SMap.set {} m s (headAt l restart (4096 + 48 * s)) else m) [] := rfl

/-- The slot of a stream in a record. -/
theorem journalRecord_slot (st jseq : Nat) (f : Bool) {s : Nat} (hs : s < 256) : ∃ pre post, pre.length = 4096 + 48 * s ∧
    d.journalRecord st jseq f = pre ++ (headBytes (SMap.get {} d.hlm.heads s) ++ post) := by
  obtain ⟨body, -, hlen, hrec⟩ := d.journalRecord_eq st jseq f
  obtain ⟨pre, post, hpre, hheads⟩ := flatMap_range_split (fun s => headBytes_length (SMap.get {} d.hlm.heads s)) hs
  refine ⟨body ++ (leBytes 4 (crc32 (body ++ d.headsBytes)).toNat ++ pre), post, ?_, ?_⟩
  · simp only [List.length_append, hlen, leBytes_length, hpre]
    omega
  · rw [hrec, headsBytes, hheads]
    simp only [List.append_assoc]

/-- A valid head is marked so in its slot, and the slot gives it back. -/
theorem headAt_valid {h : Head} (hv : h.valid = true) {pre post : List Byte} {o : Nat} (ho : pre.length = o) (restart : Bool) :
    leAt (pre ++ (headBytes h ++ post)) (o + 46) 2 = 1 ∧ headAt (pre ++ (headBytes h ++ post)) restart o =
      { hash := h.hash, seq := h.seq % 2 ^ 64, sec := h.sec % 2 ^ 48, valid := true, restart := restart } := by
  have past (k n : Nat) : leAt (pre ++ (headBytes h ++ post)) (o + k) n = leAt (headBytes h ++ post) k n := by
    rw [leAt_append_past (by omega), ho, Nat.add_sub_cancel_left]
  have hbytes : headBytes h ++ post = (leBytes 32 h.hash.toNat).reverse ++ (leBytes 8 h.seq ++ (leBytes 6 h.sec ++ (leBytes 2 1 ++ post))) := by
    simp only [headBytes, hv, if_true, List.append_assoc]
  have hhash : beNat (sub (pre ++ (headBytes h ++ post)) o 32) = h.hash.toNat := by
    rw [sub_append_past ho.le, ho, Nat.sub_self, hbytes, sub_append_here (by simp), beNat_reverse, leNat_leBytes]
    exact Nat.mod_eq_of_lt h.hash.isLt
  have hseq : leAt (headBytes h ++ post) 32 8 = h.seq % 2 ^ 64 := by
    simp [hbytes, leAt_append_past, leAt_leBytes_here]
  have hsec : leAt (headBytes h ++ post) 40 6 = h.sec % 2 ^ 48 := by
    simp [hbytes, leAt_append_past, leAt_leBytes_here]
  refine ⟨?_, ?_⟩
  · rw [past]
    simp [hbytes, leAt_append_past, leAt_leBytes_here]
  · rw [headAt, past, past, hhash, hseq, hsec, BitVec.ofNat_toNat, BitVec.setWidth_eq]

/-- A head that is not valid leaves zeros in its slot. -/
theorem headAt_invalid {h : Head} (hv : h.valid = false) {pre post : List Byte} {o : Nat} (ho : pre.length = o) :
    leAt (pre ++ (headBytes h ++ post)) (o + 46) 2 = 0 := by
  have hbytes : headBytes h ++ post = List.replicate 46 0 ++ (leBytes 2 0 ++ post) := by
    simp only [headBytes, hv, Bool.false_eq_true, if_false]
    rfl
  rw [leAt_append_past (by omega), ho, Nat.add_sub_cancel_left, hbytes, leAt_append_past (List.length_replicate ..).le,
    List.length_replicate, Nat.sub_self, leAt_leBytes_here]
  rfl

/-- The heads that a start restores from a record are the valid heads of the device that wrote it. -/
theorem get_journalHeads_record (st jseq : Nat) (f restart : Bool) (s : Fin 256) :
    SMap.get {} (journalHeads (d.journalRecord st jseq f) restart) s.val =
      if (SMap.get {} d.hlm.heads s.val).valid then
        { hash := (SMap.get {} d.hlm.heads s.val).hash, seq := (SMap.get {} d.hlm.heads s.val).seq % 2 ^ 64,
          sec := (SMap.get {} d.hlm.heads s.val).sec % 2 ^ 48, valid := true, restart := restart }
      else {} := by
  obtain ⟨pre, post, hpre, hrec⟩ := d.journalRecord_slot st jseq f s.isLt
  rw [journalHeads_eq, SMap.get_foldl_set, hrec]
  cases hv : (SMap.get {} d.hlm.heads s.val).valid with
  | true =>
    obtain ⟨hheld, hhead⟩ := headAt_valid (post := post) hv hpre restart
    rw [if_pos ⟨List.mem_range.mpr s.isLt, by rw [hheld]⟩, hhead, if_pos rfl]
  | false =>
    have hheld := headAt_invalid (post := post) hv hpre
    rw [if_neg (by rw [hheld]; simp), if_neg (by decide), SMap.get_nil]

end Data

/-- Settles O55: each part of a record stands at its offset, the CRC is that of the other parts, and the slot of each stream gives its
head back. -/
theorem journalRecordsRestore : Obligations.JournalRecordsRestore := by
  intro d st jseq f restart hst
  obtain ⟨body, ⟨rest, hfront⟩, hlen, hrec⟩ := d.journalRecord_eq st jseq f
  obtain ⟨hmagic, hver, hstate, hjseq, hser⟩ :=
    d.journalFront_fields st jseq (rest ++ (leBytes 4 (crc32 (body ++ d.headsBytes)).toNat ++ d.headsBytes))
  rw [← List.append_assoc, hfront, ← hrec] at hmagic hver hstate hjseq hser
  refine ⟨?_, hmagic, hver, ?_, hjseq, hser, d.journalValid_record jseq f hst, d.get_journalHeads_record st jseq f restart⟩
  · rw [hrec, List.length_append, List.length_append, hlen, leBytes_length, d.headsBytes_length]
  · rw [hstate]
    rcases hst with rfl | rfl | rfl <;> rfl

end Sys2Proof.Machine
end

section
/-!
PROOFS. The governor's commands, the power-fail sequence, and the failure of a backing port.
-/

namespace Sys2Proof.Machine

namespace Data

variable {d : Data}

/-! ## Backing ports that fail (R231) -/

theorem bkpLose_of_up {b : BkpId} {i : Nat} (hused : d.bkpUsed b = true) (hfail : d.bkps[b].st ≠ .failed) (hdown : d.bkps[b].st ≠ .down) :
    d.bkpLose b (some i) = (d.evBkp b i).bkpFailPort b := by
  have hup : ¬((!d.bkpUsed b) = true ∨ d.bkps[b].st = .failed ∨ d.bkps[b].st = .down) := by
    rw [hused]
    simp only [Bool.not_true, Bool.false_eq_true, hfail, hdown, or_self, not_false_eq_true]
  rw [bkpLose, if_neg hup]

/-! ## The sequence (R232 to R238) -/

theorem failGo_after_rdy (hboot : d.pwr.boot = .rdy) (hx : d.pwr.xfail = false) (htr : d.dur.tr = none) :
    DM.powerFail d = d.failStart.pairTr.svcTr := by
  rw [DM.powerFail, DM.failGo, if_neg (by simp [hboot, hx, htr]), if_pos hboot]

theorem deadline_recall (hph : d.dur.phase = .recalling) (hdue : d.phaseDue 0 = true) : d.deadline .recalling = d.recallEnd true := by
  rw [deadline, if_neg (not_not.mpr hph)]
  exact if_pos hdue

theorem deadline_drain (hph : d.dur.phase = .drain) (hdue : d.phaseDue 1 = true) : d.deadline .drain = d.drainEnd true := by
  rw [deadline, if_neg (not_not.mpr hph)]
  exact if_pos hdue

theorem deadline_persist (hph : d.dur.phase = .persist) (hdue : d.phaseDue 2 = true) : d.deadline .persist = d.persistEnd true := by
  rw [deadline, if_neg (not_not.mpr hph)]
  exact if_pos hdue

/-- At the deadline of Journal the Set Shutdown State commands have gone, or go first (R237). -/
theorem deadline_journal (hph : d.dur.phase = .journal) (hdue : d.phaseDue 3 = true) :
    d.deadline .journal = (if d.cleanSent then d else d.shutdownClean).journalEnd := by
  rw [deadline, if_neg (not_not.mpr hph)]
  exact if_pos hdue

theorem gpf1_of_phase1 {b : BkpId} (err : Bool) (hph : d.dur.phase = .persist) (hg : d.bkps[b].gpf = .phase1) :
    d.gpf1 b err = (if err then d.persistFail b else d).modBkp b fun x => { x with gpf := .gotPhase1 } := if_pos ⟨hph, hg⟩

theorem gpf2_of_phase2 {b : BkpId} (err : Bool) (hph : d.dur.phase = .persist) (hg : d.bkps[b].gpf = .phase2) :
    d.gpf2 b err = (if err then d.persistFail b else d).modBkp b fun x => { x with gpf := .done } := if_pos ⟨hph, hg⟩

/-- Outside Persist the response is that of the flush of a journal copy. -/
theorem gpf2_of_flush {b : BkpId} (err : Bool) (hph : d.dur.phase ≠ .persist) (hfl : (d.dur.flush.any fun x => x.1 == b) = true) :
    d.gpf2 b err = (if err then d.gpfFailed b else d).modDur fun u => { u with flush := u.flush.filter fun x => x.1 != b } := by
  rw [gpf2, if_neg fun h => hph h.1]
  exact if_pos hfl

/-! ## Cleaning and drain steps (R222, R223, R235) -/

/-- The step of an engine that has work in a slice that runs. -/
theorem stepIf_of_work {n : SliceId} {k : Nat} (hrun : d.running n = true) (hwork : d.p5Work n k = true) : d.stepIf n k = d.p5Run n k :=
  if_pos ⟨hrun, hwork⟩

theorem cleanIf_of_work {n : SliceId} {tr : Bool} (htr : d.dur.tr.isSome = tr) (hrun : d.running n = true) (hwork : d.p5Work n 1 = true) :
    d.cleanIf n tr = d.p5Run n 1 := by
  rw [cleanIf, htr, if_pos (beq_self_eq_true tr), stepIf_of_work hrun hwork]

/-- A step of an engine that no older pass of its line keeps back takes effect, in turn for what it takes. -/
theorem enginePass_runs {n : SliceId} {k : Nat} {ga old : Option Nat} {x : Pass Data} {f g : Data}
    (hline : ∀ a, ga = some a → d.lineWait n (old.getD d.seq) (lineOf a) = none) (hx : x = .ok f)
    (hturn : d.inTurn f n (old.getD d.seq) = .ok g) : d.enginePass n k ga old x = g.pmcSlc n 1 := by
  have hfree : (ga.bind fun a => d.lineWait n (old.getD d.seq) (lineOf a)) = none := by
    rw [Option.bind_eq_none_iff]
    exact fun a ha => hline a ha
  have hrun : (do let d1 ← (Except.ok f : Pass Data); d.inTurn d1 n (old.getD d.seq)) = .ok g := hturn
  unfold enginePass
  simp only [hfree, hx, hrun]

/-- A cleaning step cleans the lowest set of the oldest dirty map that is not empty. -/
theorem cleanStep_runs {n : SliceId} {set : Nat} {f g : Data} (hset : d.oldestDirty n = some set)
    (hline : ∀ w sec, (d.setOpen n set).head? = some (w, sec) → d.lineWait n d.seq (lineOf (d.wayLine n set w * 32)) = none)
    (hclean : d.cleanSet n set = .ok f) (hturn : d.inTurn (if f.dur.tr.isSome then f else f.tally 12) n d.seq = .ok g) :
    d.cleanStep n none = g.pmcSlc n 1 := by
  rw [cleanStep, hset]
  refine enginePass_runs (fun a ha => ?_) ?_ hturn
  · obtain ⟨⟨w, sec⟩, hw, rfl⟩ := Option.map_eq_some_iff.mp ha
    exact hline w sec hw
  · rw [hclean]
    rfl

end Data

/-- DONE_RESTART after Done, with PWRGD high and no warm reset on its way (R238, R445). -/
theorem DM.doneRestart_of_done {x : DM} {t : Nat} (e : StartEnv) (hdone : x.d.dur.doneAt = some t) (hgood : x.d.pwr.pwrgd = true)
    (hwarm : x.d.pwr.warm = none) : x.doneRestart e =
      ({ d := x.d.coldReset.modPwr fun p => { p with thermtrip := x.d.pwr.thermtrip }, m := DM.coldMgmt x.m } : DM).coldStart e 1 := by
  rw [DM.doneRestart, hdone]
  exact if_pos ⟨hgood, by rw [hwarm]; rfl⟩

/-- Settles O28: each command's conditions are those of its branch. -/
theorem durabilityCommandsComplete : Obligations.DurabilityCommandsComplete := by
  refine ⟨fun b s hused hfail => ⟨?viral, fun hdown => ?lost⟩,
    fun s => ⟨?epoch, fun hreach v => ?budget, fun hboot hx htr => ?warning, fun hph hdue => ?recallDue, fun hph hdue => ?drain,
      fun hph hdue => ?persist, fun hph hdue => ⟨fun hsent => ?journal, fun hunsent => ?clean⟩, fun e t hdone hgood hwarm => ?restart⟩,
    fun b s => ⟨fun hph hg => ⟨?phase1, ?phase1Err⟩, fun hph hg => ⟨?phase2, ?phase2Err⟩, fun hph hfl => ⟨?flush, ?flushErr⟩,
      fun hwait => ?shutdown, fun hboot hfl => ?drop⟩,
    fun n s hrun hwork => ⟨fun htr => ?early, fun htr => ?drainStep⟩,
    fun n d e f set hset he hline hclean g hturn => ?step⟩
  case viral => exact exec_after rfl (if_pos hused)
  case lost => exact exec_after rfl (Data.bkpLose_of_up hused hfail hdown)
  case epoch => rfl
  case budget =>
    exact exec_afterDM_data rfl (State.trigger_data hreach (by decide) (DM.writeAlone_durBudget _ _ _ _ _) rfl)
  case warning => exact exec_after rfl (Data.failGo_after_rdy hboot hx htr)
  case recallDue => exact exec_after rfl (Data.deadline_recall hph hdue)
  case drain => exact exec_after rfl (Data.deadline_drain hph hdue)
  case persist => exact exec_after rfl (Data.deadline_persist hph hdue)
  case journal => exact exec_after rfl ((Data.deadline_journal hph hdue).trans (by rw [hsent, if_pos rfl]))
  case clean => exact exec_after rfl ((Data.deadline_journal hph hdue).trans (by rw [hunsent, if_neg (by decide)]))
  case restart => exact exec_afterDM rfl (DM.doneRestart_of_done e hdone hgood hwarm)
  case phase1 => exact exec_after rfl (Data.gpf1_of_phase1 false hph hg)
  case phase1Err => exact exec_after rfl (Data.gpf1_of_phase1 true hph hg)
  case phase2 => exact exec_after rfl (Data.gpf2_of_phase2 false hph hg)
  case phase2Err => exact exec_after rfl (Data.gpf2_of_phase2 true hph hg)
  case flush => exact exec_after rfl (Data.gpf2_of_flush false hph hfl)
  case flushErr => exact exec_after rfl (Data.gpf2_of_flush true hph hfl)
  case shutdown => exact exec_after rfl (if_pos hwait)
  case drop => exact exec_after rfl (if_pos ⟨hboot, hfl⟩)
  case early => exact exec_after rfl (Data.cleanIf_of_work (by rw [htr]; rfl) hrun hwork)
  case drainStep => exact exec_after rfl (Data.cleanIf_of_work (Option.isSome_iff_ne_none.mpr htr) hrun hwork)
  case step =>
    subst he
    have hset' : (d.modSlice n fun x => { x with p5 := 2, p5Due := none }).oldestDirty n = some set := by
      rw [Data.oldestDirty, Data.modSlice_slices, vmod_self]
      exact hset
    exact Data.cleanStep_runs hset' hline hclean hturn

end Sys2Proof.Machine
end

section
/-!
PROOFS. The commands of seals, maintenance, planish and scrub, and the arming of the flip-mask.
-/

namespace Sys2Proof.Machine

namespace Data

variable {d : Data}

/-! ## Seals (R245 to R249) -/

theorem sealTake_accepts {a : Agent} {e : Data} {l : List QPop} {k : Fin 8} (hrun : d.hlm.run = true) (hready : d.ready = true)
    (hnext : d.sealNext = some a)
    (htake : (d.modHlm fun h => { h with turn := (a.val + 1) % 16 }).qTake (bits (d.agq a) 0 14) = (e, some l))
    (hform : sealFormed (l.map (·.data)) = true) (hclean : l.any (·.poison) = false)
    (hallow : e.sealAllowed ((l.map (·.data)).drop 1) = true) (hlane : e.sealLane = some k) :
    d.sealTake = e.modHlm fun h => { h with
      lanes := h.lanes.set k (some
        { agent := a, hdr := (l.map (·.data)).headD 0, ranges := (l.map (·.data)).drop 1
          total := (((l.map (·.data)).drop 1).map rngCount).sum }) } := by
  rw [sealTake, if_neg (by simp [hrun, hready]), hnext]
  dsimp only
  rw [htake]
  dsimp only
  rw [if_neg (by simp only [hform, hclean]; decide), if_neg (by simp only [hallow]; decide), hlane]

/-- The chain of a stream that no restart has marked takes the next SEQ, and its head the hallmark (R247, R248). -/
theorem sealDone_chains {k : Fin 8} {i : SealItem} {h : Head} {mark : List Byte} (hlane : d.hlm.lanes[k] = some i) (hbad : i.bad = false)
    (hsample : i.sampled = true) (hread : i.rn = i.total) (hhead : SMap.get {} d.hlm.heads (hdrStream i.hdr) = h) (hrestart : h.restart = false)
    (hmark : mark = sha256 (sealPreimage (hdrStream i.hdr) i.tflag ((h.seq + 1) % 2 ^ 64) i.sec i.ns d.fuses.devSer
      (if h.valid then h.hash else 0) i.ranges i.got)) :
    d.sealDone k = (d.modHlm fun x => { x with
      lanes := x.lanes.set k none
      heads := SMap.set {} x.heads (hdrStream i.hdr)
        { hash := BitVec.ofNat 256 (beNat mark), seq := (h.seq + 1) % 2 ^ 64, sec := i.sec, valid := true } }).sealReply i.agent
        ([sealWord i.hdr 0 i.tflag 0, (h.seq + 1) % 2 ^ 64, i.sec, i.ns] ++ (List.range 4).map fun j => leAt mark (8 * j) 8) true := by
  have hflag : i.tflag + 4 * b2n h.restart = i.tflag := by rw [hrestart]; rfl
  have hword : b2n h.restart = 0 := by rw [hrestart]; rfl
  have hseq : (if h.restart = true then h.seq / 2 ^ 32 * 2 ^ 32 + 2 ^ 32 else h.seq + 1) = h.seq + 1 := by rw [hrestart]; rfl
  rw [sealDone, hlane]
  dsimp only
  rw [if_neg (by rw [hbad]; decide), if_pos ⟨hsample, hread⟩, hhead, hflag, hseq, hword, ← hmark]

/-! ## Maintenance items (R277, R283 to R285) -/

theorem mntTake_accepts {op : Nat} {r : Requester} {i : MntItem} {e : Data} {l : List QPop} (hready : d.ready = true) (htr : d.dur.tr = none)
    (hnext : d.mntNext = some (r, i)) (hop : i.op = op)
    (htake : ({ d with mntTurn := (r.val + 1) % 17 } : Data).qTake (bits (d.magq r) 0 14) = (e, some l))
    (hitem : i = mntItem (l.map (·.data)) (l.any (·.poison)) (permAll (l.map (·.perm)))) (hform : i.formed = true)
    (hperm : mntPerm r i = true) (htarget : e.mntTarget i = true) :
    d.mntTake op = if i.scope = 2 then e.mntAccept (.queue r i.tag) [i.slice] op 2 0 0 i.set i.way none
      else e.mntAccept (.queue r i.tag) (e.mntSlices i) op i.scope i.line (if i.scope = 0 then i.line + i.nline else i.line + 1) 0 0 none := by
  rw [mntTake, if_neg (by simp [hready, htr]), hnext]
  dsimp only
  rw [if_neg fun h => h.1 hop, htake]
  dsimp only
  rw [← hitem, if_neg (by simp [hform]), if_neg (by simp [hperm]), if_neg (by simp [htarget]), hop]

/-! ## Scrub (R270 to R272, R276) -/

/-- The walk of a pseudo-channel passes a codeword that is good once it has been read. -/
theorem scrubRead_advances {pc : Fin 32} {u : BitVec 544} {e : Data} {x : GRead} (hready : d.ready = true)
    (hen : d.flag Reg.stoEccCfg 0 = true) (htr : d.dur.tr = none) (hup : d.domUp 2 = true) (hawake : d.storeAwake = true)
    (hwalk : d.store.scrub[pc] < pcCw)
    (hslice : d.active (Fin.ofNat 8 (pc.val / 4)) = true → d.domUp (slcDom (Fin.ofNat 8 (pc.val / 4))) = true)
    (hread : cwRead (tally (d.modStore fun y => { y with
      cw := SMap.set 0 y.cw (cwKey pc.val d.store.scrub[pc]) (SMap.get 0 y.cw (cwKey pc.val d.store.scrub[pc]) ^^^ u) }) 29)
      none (cwKey pc.val d.store.scrub[pc]) = (e, x)) (hx : x.bad = false) (hgood : e.cwBad (cwKey pc.val d.store.scrub[pc]) = false) :
    d.scrubRead pc u = e.modStore fun y => { y with scrub := y.scrub.set pc (d.store.scrub[pc] + 1) } := by
  have hactive : (d.active (Fin.ofNat 8 (pc.val / 4)) && !d.domUp (slcDom (Fin.ofNat 8 (pc.val / 4)))) = false := by
    cases h : d.active (Fin.ofNat 8 (pc.val / 4)) with
    | false => rfl
    | true => rw [hslice h]; rfl
  have hgo : ¬(!d.ready ∨ !d.flag Reg.stoEccCfg 0 ∨ d.dur.tr.isSome ∨ !d.domUp 2 ∨ !d.storeAwake ∨ pcCw ≤ d.store.scrub[pc] ∨
      (d.active (Fin.ofNat 8 (pc.val / 4)) && !d.domUp (slcDom (Fin.ofNat 8 (pc.val / 4))))) := by
    rw [hready, hen, htr, hup, hawake, hactive]
    simpa using hwalk
  rw [scrubRead]
  dsimp only
  rw [if_neg hgo, hread]
  simp only [hx, hgood, Bool.false_eq_true, if_false]

/-- The period of a pseudo-channel whose walk is complete ends: the walk starts again. -/
theorem scrubEnd_complete {pc : Fin 32} (hwalk : pcCw ≤ d.store.scrub[pc]) : d.scrubEnd pc = d.modStore fun y =>
    { y with rowCe := y.rowCe.filter fun x => x.1 != pc.val
             periodAt := y.periodAt.set pc d.now, scrub := y.scrub.set pc 0, walked := setBit y.walked pc.val true } := by
  simp only [scrubEnd, Nat.not_lt.mpr hwalk, decide_false, Bool.false_eq_true, if_false]

/-- One whose walk is not complete is late. -/
theorem scrubEnd_late {pc : Fin 32} (hwalk : d.store.scrub[pc] < pcCw) : d.scrubEnd pc =
    ((d.raise Reg.stoScrubStat 23).evSto 5).modStore fun y =>
      { y with rowCe := y.rowCe.filter fun x => x.1 != pc.val, periodAt := y.periodAt.set pc d.now } := by
  simp only [scrubEnd, hwalk, decide_true, if_true]
  rfl

theorem getElem_set_fin {α : Type} {n : Nat} (v : Vector α n) (i j : Fin n) (x : α) : (v.set i x)[j] = if j = i then x else v[j] := by
  split
  · next h => subst h; exact vmod_self v j fun _ => x
  · next h => exact vmod_other v (fun _ => x) h

/-- The periods of several pseudo-channels end, each with its walk complete. -/
theorem foldl_scrubEnd_complete (l : List (Fin 32)) (hnodup : l.Nodup) (d : Data) (hwalk : ∀ pc ∈ l, pcCw ≤ d.store.scrub[pc]) :
    ∃ period scrub walked, l.foldl (fun (d : Data) pc => d.scrubEnd pc) d = (d.modStore fun y =>
      { y with rowCe := y.rowCe.filter fun x => l.all fun pc => x.1 != pc.val
               periodAt := period, scrub := scrub, walked := walked }) ∧
    (∀ k : Fin 32, period[k] = if k ∈ l then d.now else d.store.periodAt[k]) ∧
    (∀ k : Fin 32, scrub[k] = if k ∈ l then 0 else d.store.scrub[k]) ∧
    ∀ k : Fin 32, walked.getLsbD k.val = (decide (k ∈ l) || d.store.walked.getLsbD k.val) := by
  induction l generalizing d with
  | nil =>
    refine ⟨d.store.periodAt, d.store.scrub, d.store.walked, ?_, by simp, by simp, by simp⟩
    simp [modStore]
  | cons pc l ih =>
    obtain ⟨hpc, hnodup⟩ := List.nodup_cons.mp hnodup
    have hend := scrubEnd_complete (hwalk pc List.mem_cons_self)
    have hrest : ∀ q ∈ l, pcCw ≤ (d.scrubEnd pc).store.scrub[q] := by
      intro q hq
      have hne : q ≠ pc := fun h => hpc (h ▸ hq)
      rw [hend]
      show _ ≤ (d.store.scrub.set pc 0)[q]
      rw [getElem_set_fin, if_neg hne]
      exact hwalk q (List.mem_cons_of_mem _ hq)
    obtain ⟨period, scrub, walked, hfold, hperiod, hscrub, hwalked⟩ := ih hnodup (d.scrubEnd pc) hrest
    refine ⟨period, scrub, walked, ?_, fun k => ?_, fun k => ?_, fun k => ?_⟩
    · rw [List.foldl_cons, hfold, hend]
      simp [modStore, List.filter_filter, Bool.and_comm]
    · rw [hperiod, hend]
      show (if k ∈ l then d.now else (d.store.periodAt.set pc d.now)[k]) = _
      rw [getElem_set_fin]
      by_cases hk : k = pc <;> simp [hk]
    · rw [hscrub, hend]
      show (if k ∈ l then 0 else (d.store.scrub.set pc 0)[k]) = _
      rw [getElem_set_fin]
      by_cases hk : k = pc <;> simp [hk]
    · rw [hwalked, hend]
      show (decide (k ∈ l) || (setBit d.store.walked pc.val true).getLsbD k.val) = _
      rw [setBit_true_get _ _ _ pc.isLt]
      simp only [List.mem_cons, Fin.ext_iff, Bool.decide_or]
      ac_rfl

/-- The periods of all the pseudo-channels end at once, each with its walk complete: a period is counted, and all walks start
again (R270, R276). -/
theorem scrubPeriodEnd_complete (hready : d.ready = true) (hen : d.flag Reg.stoEccCfg 0 = true) (htr : d.dur.tr = none)
    (hdue : ∀ pc : Fin 32, d.store.periodAt[pc] + d.scrubPeriod ≤ d.now ∧ pcCw ≤ d.store.scrub[pc]) :
    d.scrubPeriodEnd = (d.modStore fun y =>
      { y with rowCe := y.rowCe.filter fun x => decide (32 ≤ x.1)
               periodAt := Vector.replicate 32 d.now, scrub := Vector.replicate 32 0, walked := 0 }).fldCnt Reg.stoScrubStat 0 16 1 := by
  have hall : ((List.finRange 32).filter fun pc => decide (d.store.periodAt[pc] + d.scrubPeriod ≤ d.now)) = List.finRange 32 :=
    List.filter_eq_self.mpr fun pc _ => decide_eq_true (hdue pc).1
  obtain ⟨period, scrub, walked, hfold, hperiod, hscrub, hwalked⟩ :=
    foldl_scrubEnd_complete (List.finRange 32) (List.nodup_finRange 32) d fun pc _ => (hdue pc).2
  have hp : period = Vector.replicate 32 d.now := Vector.ext fun k hk => by simpa using hperiod ⟨k, hk⟩
  have hs : scrub = Vector.replicate 32 0 := Vector.ext fun k hk => by simpa using hscrub ⟨k, hk⟩
  have hw : walked = BitVec.allOnes 32 := BitVec.eq_of_getLsbD_eq fun k hk => by
    rw [BitVec.getLsbD_allOnes, decide_eq_true hk]
    exact (hwalked ⟨k, hk⟩).trans (by simp)
  have hrows (x : Nat × Nat × Nat) : ((List.finRange 32).all fun pc => x.1 != pc.val) = decide (32 ≤ x.1) := by
    rw [Bool.eq_iff_iff, List.all_eq_true, decide_eq_true_eq]
    refine ⟨fun h => ?_, fun h pc _ => by simp; omega⟩
    by_contra hlt
    simpa using h ⟨x.1, Nat.not_le.mp hlt⟩ (List.mem_finRange _)
  rw [scrubPeriodEnd, if_neg (by simp [hready, hen, htr])]
  dsimp only
  rw [hall, hfold, hp, hs, hw]
  simp only [hrows]
  exact if_pos rfl

/-- The period of one pseudo-channel ends with its walk not complete: it is late, and no period is counted (R270, R276). -/
theorem scrubPeriodEnd_late {pc : Fin 32} (hready : d.ready = true) (hen : d.flag Reg.stoEccCfg 0 = true) (htr : d.dur.tr = none)
    (hdue : d.store.periodAt[pc] + d.scrubPeriod ≤ d.now) (hwalk : d.store.scrub[pc] < pcCw) (hwalked : d.store.walked ≠ BitVec.allOnes 32)
    (hrest : ∀ k : Fin 32, k ≠ pc → d.now < d.store.periodAt[k] + d.scrubPeriod) :
    d.scrubPeriodEnd = ((d.raise Reg.stoScrubStat 23).evSto 5).modStore fun y =>
      { y with rowCe := y.rowCe.filter fun x => x.1 != pc.val, periodAt := y.periodAt.set pc d.now } := by
  have hone : ((List.finRange 32).filter fun k => decide (d.store.periodAt[k] + d.scrubPeriod ≤ d.now)) = [pc] := by
    have heq (k : Fin 32) : decide (d.store.periodAt[k] + d.scrubPeriod ≤ d.now) = (k == pc) := by
      by_cases hk : k = pc
      · subst hk; rw [decide_eq_true hdue, beq_self_eq_true]
      · rw [decide_eq_false (Nat.not_le.mpr (hrest k hk)), beq_eq_false_iff_ne.mpr hk]
    simp only [heq, List.filter_beq]
    rw [List.count_eq_one_of_mem (List.nodup_finRange 32) (List.mem_finRange pc), List.replicate_one]
  rw [scrubPeriodEnd, if_neg (by simp [hready, hen, htr])]
  dsimp only
  rw [hone, List.foldl_cons, List.foldl_nil, scrubEnd_late hwalk]
  exact if_neg hwalked

end Data

/-- A write of STO_FLIP_HI: the fields, and the arming of the flip-mask (R274). -/
theorem DM.writeAlone_stoFlipHi (x : DM) (r : Requester) (v en : Word) (m : BitVec 67) :
    x.writeAlone r Reg.stoFlipHi v en m = { x with d := (x.d.regWrite Reg.stoFlipHi v en).flipWrite v en } := by
  rw [DM.writeAlone_sto _ _ _ _ _ _ (by decide), DM.writeSto, if_pos rfl]

/-- The command of each OP takes an item of that OP (R277). -/
theorem exec_maintenance {op : Nat} {c : Instr} (h : (op, c) ∈ [(0, Instr.clean), (1, .inv), (2, .clinv), (3, .retire), (4, .unretire)])
    (s : State) : exec c s = .next (s.onData fun d => d.mntTake op) := by
  simp only [List.mem_cons, List.not_mem_nil, or_false, Prod.mk.injEq] at h
  rcases h with ⟨rfl, rfl⟩ | ⟨rfl, rfl⟩ | ⟨rfl, rfl⟩ | ⟨rfl, rfl⟩ | ⟨rfl, rfl⟩ <;> rfl

/-- Settles O29: every check of an item passes, and the conditions of the other commands are those of their branches. -/
theorem maintenanceAndSealCommandsComplete : Obligations.MaintenanceAndSealCommandsComplete := by
  refine ⟨fun s a d l k hrun hready hnext htake hform hclean hallow hlane => ?item,
    fun s k i h mark hlane hbad hsample hread hhead hrestart hmark => ?hash,
    fun s c op r i d l hc hready htr hnext hop htake hitem hform hperm htarget => ⟨fun hscope => ?way, fun hscope => ?lines⟩,
    fun s n hrun => ⟨fun hwork => ?maintenance, fun hwork => ?planish, fun hwork => ?durability⟩,
    fun s pc u d x hready hen htr hup hawake hwalk hslice hread hx hgood => ?read,
    fun s => ⟨fun hready hen htr => ⟨fun hdue => ?complete, fun pc hdue hwalk hwalked hrest => ?late⟩, fun hreach v => ?arm⟩⟩
  case item => exact exec_after rfl (Data.sealTake_accepts hrun hready hnext htake hform hclean hallow hlane)
  case hash => exact exec_after rfl (Data.sealDone_chains hlane hbad hsample hread hhead hrestart hmark)
  case way =>
    exact exec_after (exec_maintenance hc s)
      ((Data.mntTake_accepts hready htr hnext hop htake hitem hform hperm htarget).trans (if_pos hscope))
  case lines =>
    exact exec_after (exec_maintenance hc s)
      ((Data.mntTake_accepts hready htr hnext hop htake hitem hform hperm htarget).trans (if_neg hscope))
  case maintenance => exact exec_after rfl (Data.stepIf_of_work hrun hwork)
  case planish => exact exec_after rfl (Data.stepIf_of_work hrun hwork)
  case durability => exact exec_after rfl (Data.stepIf_of_work hrun hwork)
  case read => exact exec_after rfl (Data.scrubRead_advances hready hen htr hup hawake hwalk hslice hread hx hgood)
  case complete => exact exec_after rfl (Data.scrubPeriodEnd_complete hready hen htr hdue)
  case late => exact exec_after rfl (Data.scrubPeriodEnd_late hready hen htr hdue hwalk hwalked hrest)
  case arm => exact exec_afterDM_data rfl (State.trigger_data hreach (by decide) (DM.writeAlone_stoFlipHi _ _ _ _ _) rfl)

end Sys2Proof.Machine
end

section
/-!
PROOFS. The hardware queues: what a push or a pop leaves in its queue, and what it leaves as it was elsewhere.
-/

namespace Sys2Proof.Machine

/-- An upset of no bit leaves a word as it is. -/
@[simp] theorem QWord.flip_zero (w : QWord) : w.flip 0 = w := by simp [QWord.flip]

/-- A waiting GAP marker counts as one word to come. -/
def Que.gapDue (x : Que) : Nat := b2n (x.gapPend != 0)

theorem Que.gapDue_le_one (x : Que) : x.gapDue ≤ 1 := by
  unfold Que.gapDue b2n
  split <;> decide

theorem Que.gapDue_of_none {x : Que} (h : x.gapPend = 0) : x.gapDue = 0 := by
  rw [Que.gapDue, h]
  rfl

namespace Data

variable {d : Data}

/-! ## Queues under the shared operations -/

@[simp] theorem fldCnt_que (a lo n k : Nat) : (d.fldCnt a lo n k).que = d.que := rfl

@[simp] theorem stampQue_que (q i : Nat) : (d.stampQue q i).que = d.que := rfl

@[simp] theorem capture_que (a vb : Nat) (mb : Option Nat) (v wide : Nat) : (d.capture a vb mb v wide).que = d.que := by
  unfold capture
  split
  · cases mb <;> rfl
  · rfl

@[simp] theorem qEv_que (i q : Nat) : (d.qEv i q).que = d.que := by rw [qEv, capture_que, evQue_eq, ev_que]

theorem que1_congr {e : Data} (h : e.que = d.que) (q : Nat) : e.que1 q = d.que1 q := by rw [que1, h, que1]

@[simp] theorem que1_modQue_self (q : Nat) (f : Que → Que) : (d.modQue q f).que1 q = f (d.que1 q) := SMap.get_upd_self _ _ _ _

theorem que1_modQue_other {q k : Nat} (f : Que → Que) (h : k ≠ q) : (d.modQue q f).que1 k = d.que1 k := SMap.get_upd_other _ _ _ h

@[simp] theorem que1_modPort (p : Agent) (f : Port → Port) (q : Nat) : (d.modPort p f).que1 q = d.que1 q := rfl

/-- What an update makes of the queue is all that it does. -/
theorem modQue_congr {q : Nat} {f g : Que → Que} (h : f (d.que1 q) = g (d.que1 q)) : d.modQue q f = d.modQue q g := by
  rw [modQue, modQue, SMap.upd, SMap.upd]
  exact congrArg (fun x => { d with que := SMap.set {} d.que q x }) h

/-! ## Words that land (R296, R302) -/

/-- A note changes the queue's record of it alone. -/
theorem que1_qNote (q before : Nat) : ∃ b, (d.qNote q before).que1 q = { d.que1 q with noted := b } := by
  unfold qNote
  split
  · dsimp only
    refine ⟨true, ?_⟩
    split
    · rw [que1_modQue_self]
    · rw [que1_modPort, que1_modQue_self]
  · exact ⟨(d.que1 q).noted, rfl⟩

/-- What a landing word leaves in its queue. -/
theorem que1_qLand (r : QRec) (q : Nat) (w : QWord) (o : QOpen) (p : Option Agent) (m : BitVec 67) : ∃ t b,
    (d.qLand r q w o p m).que1 q = { d.que1 q with
      words := (d.que1 q).words ++ [w.flip m], tail := ((d.que1 q).tail + 1) % r.depth, opn := o, opener := p
      landAt := some d.qCycle, timer := t, noted := b } := by
  unfold qLand
  dsimp only
  generalize hlanded : d.modQue q _ = e
  obtain ⟨b, h⟩ := que1_qNote (d := e) q (d.qPkt q)
  subst hlanded
  rw [que1_modQue_self] at h
  exact ⟨_, b, h⟩

/-- A landing word with EOP counts as one more item. -/
theorem qPkt_qLand (r : QRec) (q : Nat) (w : QWord) (o : QOpen) (p : Option Agent) (m : BitVec 67) :
    (d.qLand r q w o p m).qPkt q = d.qPkt q + b2n (w.flip m).eop := by
  obtain ⟨t, b, hland⟩ := que1_qLand (d := d) r q w o p m
  rw [qPkt, hland, qPkt, List.filter_append, List.length_append, Nat.add_left_cancel_iff]
  cases h : (w.flip m).eop <;> simp [h, b2n]

/-- A GAP marker that may land does. -/
theorem qGap_of_room {q : Nat} {r : QRec} (hrec : d.qRec q = some r) (hpend : (d.que1 q).gapPend ≠ 0) (hopn : (d.que1 q).opn = .none)
    (hresync : (d.que1 q).resync = false) (hroom : (d.que1 q).words.length < r.depth) :
    d.qGap q = (d.qLand r q (qWord (BitVec.ofNat 64 (0xFE + at_ (d.que1 q).gapPend 24)) true) .none none).modQue q fun x =>
      { x with gapPend := 0 } := by
  unfold qGap
  rw [hrec]
  exact if_pos ⟨hpend, hopn, by rw [hresync]; rfl, hroom⟩

/-- Where a GAP marker may land, the queue keeps its words before it, and its last word read. -/
theorem que1_qGap (q : Nat) : ∃ g : List QWord, ((d.qGap q).que1 q).words = (d.que1 q).words ++ g ∧
    g.length + ((d.qGap q).que1 q).gapDue ≤ (d.que1 q).gapDue ∧ ((d.qGap q).que1 q).lastVal = (d.que1 q).lastVal := by
  unfold qGap
  split
  · exact ⟨[], (List.append_nil _).symm, by simp, rfl⟩
  · next r _ =>
    dsimp only
    split
    · next hroom =>
      obtain ⟨hpend, -, -, -⟩ := hroom
      obtain ⟨t, b, hland⟩ := que1_qLand (d := d) r q (qWord (BitVec.ofNat 64 (0xFE + at_ (d.que1 q).gapPend 24)) true) .none none 0
      rw [que1_modQue_self, hland]
      refine ⟨[_], rfl, ?_, rfl⟩
      simp [Que.gapDue, b2n, hpend]
    · exact ⟨[], (List.append_nil _).symm, by simp, rfl⟩

/-! ## Pops (R298, R301) -/

/-- What a word that leaves the pool leaves in its queue, and what it gives. -/
theorem qGive_spec (q : Nat) (w : QWord) : (d.qGive q w).1.que1 q = { d.que1 q with lastVal := w.data } ∧
    (d.qGive q w).2 = { data := w.data, eop := w.eop, poison := w.poison || w.bad, perm := w.perm } := by
  refine ⟨?_, rfl⟩
  unfold qGive
  dsimp only
  refine (que1_congr ?_ q).trans (que1_modQue_self q fun x => { x with lastVal := w.data })
  rw [tally_que]
  split
  · rw [tally_que, qEv_que, fldCnt_que]
  · rfl

/-- A pop of a queue that holds a word gives the head word, and a GAP marker that waits may land. -/
theorem qPop_of_words {q : Nat} {w : QWord} {ws : List QWord} (r : QRec) (u : BitVec 67) (h : (d.que1 q).words = w :: ws) :
    (d.qPop r q u).2 = { data := (w.flip u).data, eop := (w.flip u).eop, poison := (w.flip u).poison || (w.flip u).bad, perm := w.perm } ∧
    ((d.qPop r q u).1.que1 q).lastVal = (w.flip u).data ∧
    ∃ g : List QWord, ((d.qPop r q u).1.que1 q).words = ws ++ g ∧
      g.length + ((d.qPop r q u).1.que1 q).gapDue ≤ (d.que1 q).gapDue := by
  unfold qPop
  simp only [que1_modQue_self, h]
  generalize hleft : modQue _ q _ = e
  obtain ⟨hque, hgives⟩ := qGive_spec (d := e) q (w.flip u)
  obtain ⟨g, hwords, hdue, hlast⟩ := que1_qGap (d := (e.qGive q (w.flip u)).1) q
  rw [hque] at hwords hdue hlast
  subst hleft
  simp only [que1_modQue_self] at hwords hdue
  exact ⟨hgives, hlast, g, hwords, hdue⟩

/-- What a pop of a queue without a word leaves in the queue. -/
theorem que1_qUnder (q : Nat) : (d.qUnder q).1.que1 q = { d.que1 q with underrun := true } := by
  refine (que1_congr ?_ q).trans (que1_modQue_self q fun x => { x with underrun := true })
  rw [qUnder, tally_que, qEv_que, stampQue_que]

/-- The event of an underrun stays raised. -/
theorem qUnder_latch (q : Nat) : (d.qUnder q).1.evt.latch.getLsbD 132 = true := by
  have hraised : (((d.modQue q fun x => { x with underrun := true }).stampQue q 18).ev 132).evt.latch.getLsbD 132 = true := by
    rw [ev_latch _ _ _ (by decide), decide_eq_true rfl, Bool.true_or]
  exact (KeepsIsolated.refl _).capture.tally.latch 132 hraised

/-- A pop of a queue without a word. -/
theorem qPop_of_empty {q : Nat} (r : QRec) (u : BitVec 67) (h : (d.que1 q).words = []) :
    d.qPop r q u = (d.modQue q fun x => { x with popAt := some d.qCycle }).qUnder q := by
  unfold qPop
  simp only [que1_modQue_self, h]

/-! ## Items that a device consumer takes (R298) -/

/-- A pop of all words up to and including the first EOP. -/
theorem qPopItem_spec (r : QRec) (q : Nat) (w : QWord) (heop : w.eop = true) (ws : List QWord) (hws : ∀ v ∈ ws, v.eop = false) :
    ∀ (d : Data) (post : List QWord) (acc : List QPop), (d.que1 q).words = ws ++ w :: post →
    (∃ g : List QWord, ((qPopItem r q (ws.length + 1) d acc).1.que1 q).words = post ++ g ∧
      g.length + ((qPopItem r q (ws.length + 1) d acc).1.que1 q).gapDue ≤ (d.que1 q).gapDue) ∧
    ∃ l, (qPopItem r q (ws.length + 1) d acc).2 = acc ++ l ∧ l.map (·.data) = (ws ++ [w]).map (·.data) := by
  induction ws with
  | nil =>
    intro d post acc h
    obtain ⟨hgives, -, hleaves⟩ := qPop_of_words r 0 h
    rw [QWord.flip_zero] at hgives
    unfold qPopItem
    dsimp only
    rw [if_pos (by rw [hgives]; exact heop)]
    exact ⟨hleaves, _, rfl, by rw [hgives]; rfl⟩
  | cons v vs ih =>
    intro d post acc h
    rw [List.cons_append] at h
    obtain ⟨hgives, -, g, hwords, hdue⟩ := qPop_of_words r 0 h
    rw [QWord.flip_zero] at hgives
    have hopen : ¬(d.qPop r q 0).2.eop = true := by
      rw [hgives]
      exact Bool.eq_false_iff.mp (hws v List.mem_cons_self)
    rw [List.append_assoc, List.cons_append] at hwords
    obtain ⟨⟨g', hwords', hdue'⟩, l, hl, hdata⟩ :=
      ih (fun x hx => hws x (List.mem_cons_of_mem _ hx)) (d.qPop r q 0).1 (post ++ g) (acc ++ [(d.qPop r q 0).2]) hwords
    rw [List.length_cons]
    unfold qPopItem
    dsimp only
    rw [if_neg hopen]
    refine ⟨⟨g ++ g', by rw [hwords', List.append_assoc], by rw [List.length_append]; omega⟩, (d.qPop r q 0).2 :: l, ?_, ?_⟩
    · rw [hl, List.append_assoc, List.singleton_append]
    · rw [List.map_cons, hdata, hgives]
      rfl

/-- The item at the head ends with the first word that carries EOP. -/
theorem qHeadItem_of_words {q : Nat} {w : QWord} {ws post : List QWord} (h : (d.que1 q).words = ws ++ w :: post)
    (hws : ∀ v ∈ ws, v.eop = false) (heop : w.eop = true) : d.qHeadItem q = some (ws ++ [w]) := by
  have hfirst : (ws ++ w :: post).findIdx? (fun w => w.eop) = some ws.length := by
    rw [List.findIdx?_append, List.findIdx?_eq_none_iff.mpr hws]
    simp [List.findIdx?_cons, heop]
  unfold qHeadItem
  dsimp only
  rw [h, hfirst]
  simp [List.take_append]

/-- Without a word that carries EOP there is no item at the head. -/
theorem qHeadItem_eq_none {q : Nat} (h : d.qPkt q = 0) : d.qHeadItem q = none := by
  have hnone : (d.que1 q).words.findIdx? (fun w => w.eop) = none := by
    rw [List.findIdx?_eq_none_iff]
    intro w hw
    exact Bool.eq_false_iff.mpr fun heop => List.filter_eq_nil_iff.mp (List.length_eq_zero_iff.mp h) w hw heop
  unfold qHeadItem
  dsimp only
  rw [hnone]

/-- A consumer takes the item at the head as the pops give it, or discards it as a GAP marker. -/
theorem qTake_of_item {q : Nat} {r : QRec} {ws : List QWord} (hrec : d.qRec q = some r) (hitem : d.qHeadItem q = some ws) :
    (d.qTake q).1.que1 q = (qPopItem r q ws.length d []).1.que1 q ∧
    ((d.qTake q).2 = some (qPopItem r q ws.length d []).2 ∨
      (d.qTake q).2 = none ∧ ∃ w, (qPopItem r q ws.length d []).2 = [w] ∧ w.data.toNat % 256 = 0xFE) := by
  unfold qTake
  rw [hrec, hitem]
  dsimp only
  split
  · next w hl =>
    split
    · next hgap =>
      obtain ⟨hcode, -⟩ := hgap
      exact ⟨que1_congr (qEv_que 7 q) q, .inr ⟨rfl, w, hl, hcode⟩⟩
    · exact ⟨rfl, .inl (by rw [hl])⟩
  · exact ⟨rfl, .inl rfl⟩

/-- What a consumer's take leaves in the queue and gives: the words behind the item, and its data unless it is a GAP marker. -/
theorem qTake_of_words {q : Nat} {r : QRec} {ws post : List QWord} {w : QWord} (hrec : d.qRec q = some r)
    (hwords : (d.que1 q).words = ws ++ w :: post) (hws : ∀ v ∈ ws, v.eop = false) (heop : w.eop = true) :
    (∃ g : List QWord, ((d.qTake q).1.que1 q).words = post ++ g ∧ g.length ≤ 1) ∧
    (∀ l, (d.qTake q).2 = some l → l.map (·.data) = (ws ++ [w]).map (·.data)) ∧
    ((d.qTake q).2 = none → ws = [] ∧ w.data.toNat % 256 = 0xFE) := by
  obtain ⟨⟨g, hleft, hdue⟩, l, hl, hdata⟩ := qPopItem_spec r q w heop ws hws d post [] hwords
  obtain ⟨hque, hanswer⟩ := qTake_of_item hrec (qHeadItem_of_words hwords hws heop)
  rw [List.length_append, List.length_singleton] at hque hanswer
  rw [hl, List.nil_append] at hanswer
  have hone := (d.que1 q).gapDue_le_one
  refine ⟨⟨g, by rw [hque, hleft], by omega⟩, ?_⟩
  rcases hanswer with hsome | ⟨hnone, p, rfl, hcode⟩
  · rw [hsome]
    exact ⟨fun l' hl' => by rw [← Option.some.inj hl', hdata], fun hno => absurd hno (Option.some_ne_none l)⟩
  · rw [hnone]
    refine ⟨fun l' hl' => absurd hl'.symm (Option.some_ne_none l'), fun _ => ?_⟩
    rw [List.map_singleton, List.map_append, List.map_singleton, eq_comm, List.append_eq_singleton_iff] at hdata
    simp only [List.map_eq_nil_iff, List.singleton_inj, List.cons_ne_nil, and_false, or_false] at hdata
    obtain ⟨hnil, hhead⟩ := hdata
    exact ⟨hnil, by rw [hhead]; exact hcode⟩

end Data

/-! ## What a push or a pop may change (R296 to R302, R308) -/

/-- The registers that a push or a pop of queue `q` may change: its counters, the parity count and the event capture. -/
def QueueReg (q a : Nat) : Prop :=
  a = Reg.quedDrop q ∨ a = Reg.quedLost q ∨ a = Reg.quedRsync q ∨ a = Reg.queParCnt ∨ a = Reg.queEvcap

/-- The Q_NOTE of queue `q` behind what else waits at a port. -/
def Port.withNote (q : Nat) (x : Port) : Port := { x with mgqOut := x.mgqOut ++ [.qNote (BitVec.ofNat 14 q)] }

namespace Data

/-- What work on queue `q` may change: the queue, its registers, the record of the cycle, the event latches and the counters; and one
port may get one Q_NOTE, of which the queue keeps a record. -/
structure KeepsOthers (q : Nat) (d e : Data) : Prop where
  rest : ∃ m rs c l p ports, e = { d with que := m, regs := rs, cyc := c, evt := { d.evt with latch := l }, pmc := p, ports := ports }
  que : ∀ k, k ≠ q → e.que1 k = d.que1 k
  reg : ∀ a, ¬QueueReg q a → e.reg a = d.reg a
  note : e.ports = d.ports ∨ (e.que1 q).noted = true ∧ ∃ p, e.ports = vmod d.ports p (Port.withNote q)

namespace KeepsOthers

theorem refl (q : Nat) (d : Data) : KeepsOthers q d d :=
  ⟨⟨_, _, _, d.evt.latch, _, _, rfl⟩, fun _ _ => rfl, fun _ _ => rfl, .inl rfl⟩

variable {q : Nat} {d e : Data} (h : KeepsOthers q d e)
include h

/-- The record of the cycle, the event latches and the counters. -/
theorem side {c : Cyc} {l : BitVec 1024} {p : Pmc} :
    KeepsOthers q d { e with cyc := c, evt := { e.evt with latch := l }, pmc := p } := by
  obtain ⟨⟨m, rs, c', l', p', ports, rfl⟩, hque, hreg, hnote⟩ := h
  exact ⟨⟨_, _, _, _, _, _, rfl⟩, hque, hreg, hnote⟩

theorem ev {s : Nat} : KeepsOthers q d (e.ev s) := h.side (c := e.cyc) (p := e.pmc)

theorem modCyc {f : Cyc → Cyc} : KeepsOthers q d (e.modCyc f) := h.side (l := e.evt.latch) (p := e.pmc)

theorem stamp {a : Nat} {m : Word} : KeepsOthers q d (e.stamp a m) := h.modCyc

theorem ovfSet {c : Nat} {new : Bool} : KeepsOthers q d (e.ovfSet c new) := by
  unfold Data.ovfSet
  split
  · exact h.stamp.ev
  · exact h

theorem cntAdd {c n : Nat} : KeepsOthers q d (e.cntAdd c n) := by
  have hpmc (x : Pmc) {g : Data} (hg : KeepsOthers q d g) : KeepsOthers q d { g with pmc := x } := hg.side (c := g.cyc) (l := g.evt.latch)
  unfold Data.cntAdd
  dsimp only
  split
  · exact (hpmc _ (hpmc _ h).ovfSet).ovfSet
  · exact (hpmc _ h).ovfSet

theorem tally {c n : Nat} : KeepsOthers q d (e.tally c n) := by
  unfold Data.tally tallySum
  split_ifs
  · exact h
  · exact h.side (l := e.evt.latch)
  · exact (h.modCyc : KeepsOthers q d (e.cntKeep _ _)).cntAdd

theorem regSet {a : Nat} {v : Word} (ha : QueueReg q a) : KeepsOthers q d (e.regSet a v) := by
  have hother (b : Nat) (hb : ¬QueueReg q b) : (e.regSet a v).reg b = e.reg b := e.reg_regSet_other v fun hab => hb (hab ▸ ha)
  obtain ⟨⟨m, rs, c, l, p, ports, rfl⟩, hque, hreg, hnote⟩ := h
  exact ⟨⟨_, _, _, _, _, _, rfl⟩, hque, fun b hb => (hother b hb).trans (hreg b hb), hnote⟩

theorem fldCnt {a lo n k : Nat} (ha : QueueReg q a) : KeepsOthers q d (e.fldCnt a lo n k) :=
  h.modCyc.modCyc.regSet ha

theorem capture {vb v wide : Nat} {mb : Option Nat} : KeepsOthers q d (e.capture Reg.queEvcap vb mb v wide) := by
  have ha : QueueReg q Reg.queEvcap := .inr (.inr (.inr (.inr rfl)))
  have hlate (x : LateCap) : KeepsOthers q d (e.lateCap Reg.queEvcap x) := h.modCyc
  unfold Data.capture
  split
  · cases mb with
    | none => exact hlate _
    | some m => exact ((hlate _).regSet ha).stamp
  · exact (h.regSet ha).stamp

theorem qEv {i : Nat} : KeepsOthers q d (e.qEv i q) := h.ev.capture

theorem stampQue_when {b : Bool} {i : Nat} : KeepsOthers q d (e.when b (Data.stampQue · q i)) := by
  unfold Data.when
  split
  · exact h.stamp
  · exact h

/-- An update of the queue that leaves the record of its note. -/
theorem modQue {f : Que → Que} (hf : ∀ x, (f x).noted = x.noted := by exact fun _ => rfl) : KeepsOthers q d (e.modQue q f) := by
  have hnoted : ((e.modQue q f).que1 q).noted = (e.que1 q).noted := by rw [que1_modQue_self, hf]
  have hother (k : Nat) (hk : k ≠ q) : (e.modQue q f).que1 k = e.que1 k := que1_modQue_other f hk
  obtain ⟨⟨m, rs, c, l, p, ports, rfl⟩, hque, hreg, hnote⟩ := h
  exact ⟨⟨_, _, _, _, _, _, rfl⟩, fun k hk => (hother k hk).trans (hque k hk), hreg, by rw [hnoted]; exact hnote⟩

/-- Before a port has got a note, the queue may change freely. -/
theorem modQue_of_ports {f : Que → Que} (hports : e.ports = d.ports) : KeepsOthers q d (e.modQue q f) := by
  have hother (k : Nat) (hk : k ≠ q) : (e.modQue q f).que1 k = e.que1 k := que1_modQue_other f hk
  obtain ⟨⟨m, rs, c, l, p, ports, rfl⟩, hque, hreg, -⟩ := h
  exact ⟨⟨_, _, _, _, _, _, rfl⟩, fun k hk => (hother k hk).trans (hque k hk), hreg, .inl hports⟩

/-- A port gets the note that the queue has put on record. -/
theorem modPort_note {p : Agent} (hports : e.ports = d.ports) (hnoted : (e.que1 q).noted = true) :
    KeepsOthers q d (e.modPort p (Port.withNote q)) := by
  obtain ⟨⟨m, rs, c, l, pm, ports, rfl⟩, hque, hreg, -⟩ := h
  exact ⟨⟨_, _, _, _, _, _, rfl⟩, hque, hreg, .inr ⟨hnoted, p, congrArg (vmod · p (Port.withNote q)) hports⟩⟩

/-- A note is sent only while the queue has none on record. -/
theorem qNote {before : Nat} : KeepsOthers q d (e.qNote q before) := by
  unfold Data.qNote
  split
  · next hnote =>
    obtain ⟨-, -, -, -, hnew⟩ := hnote
    have hports : e.ports = d.ports := h.note.resolve_right fun ⟨hold, _⟩ => by simp [hold] at hnew
    have hnoted : ((e.modQue q fun x => { x with noted := true }).que1 q).noted = true := by rw [que1_modQue_self]
    dsimp only
    split
    · exact h.modQue_of_ports hports
    · exact (h.modQue_of_ports hports).modPort_note hports hnoted
  · exact h

theorem qLand {r : QRec} {w : QWord} {opn : QOpen} {opener : Option Agent} {m : BitVec 67} :
    KeepsOthers q d (e.qLand r q w opn opener m) := h.modQue.qNote

theorem qGap : KeepsOthers q d (e.qGap q) := by
  unfold Data.qGap
  split
  · exact h
  · dsimp only
    split
    · exact h.qLand.modQue
    · exact h

theorem qPush {r : QRec} {w : QWord} {who : Option Agent} {m : BitVec 67} : KeepsOthers q d (e.qPush r q w who m).1 := by
  have hdrop : QueueReg q (Reg.quedDrop q) := .inl rfl
  have hlost : QueueReg q (Reg.quedLost q) := .inr (.inl rfl)
  have hrsync : QueueReg q (Reg.quedRsync q) := .inr (.inr (.inl rfl))
  have hpushed : KeepsOthers q d (e.modQue q fun x => { x with pushAt := some e.qCycle, pusher := who }) := h.modQue
  unfold Data.qPush
  dsimp only
  split
  case isTrue => exact hpushed.modQue
  split
  case isTrue resync =>
    split
    · exact (hpushed.fldCnt hrsync).qEv.modQue.qGap
    · exact (hpushed.fldCnt hrsync).qEv
  split
  case isTrue dropping => exact hpushed.modQue.qGap
  split
  case isTrue room => exact hpushed.qLand.tally.qGap
  split
  case isTrue dropNew => exact (hpushed.modQue.fldCnt hdrop).qEv.tally.modQue.qGap
  split
  · exact (hpushed.fldCnt hlost).qEv.tally.modQue.stampQue_when.qLand.tally
  · exact (hpushed.fldCnt hlost).qEv.tally.modQue.modQue.stampQue_when

theorem qUnder : KeepsOthers q d (e.qUnder q).1 := h.modQue.stamp.qEv.tally

theorem qGive {w : QWord} : KeepsOthers q d (e.qGive q w).1 := by
  have hread : KeepsOthers q d (e.modQue q fun x => { x with lastVal := w.data }) := h.modQue
  unfold Data.qGive
  dsimp only
  split
  · exact (hread.fldCnt (.inr (.inr (.inr (.inl rfl))))).qEv.tally.tally
  · exact hread.tally

theorem qPop {r : QRec} {m : BitVec 67} : KeepsOthers q d (e.qPop r q m).1 := by
  have hpopped : KeepsOthers q d (e.modQue q fun x => { x with popAt := some e.qCycle }) := h.modQue
  unfold Data.qPop
  dsimp only
  split
  · exact hpopped.qUnder
  · exact hpopped.modQue.qGive.qGap

end KeepsOthers

end Data

/-- Settles O44: every push and every pop is a chain of updates of the queue, its registers, the cycle's record, the latches and the
counters, with at most one Q_NOTE. -/
theorem pushesKeepOtherQueues : Obligations.PushesKeepOtherQueues := by
  intro d e r q he
  have hkeeps : Data.KeepsOthers q d e := by
    rcases he with ⟨w, who, u, rfl⟩ | ⟨u, rfl⟩
    · exact (Data.KeepsOthers.refl q d).qPush
    · exact (Data.KeepsOthers.refl q d).qPop
  obtain ⟨⟨m, rs, c, l, pm, ports, rfl⟩, hque, hreg, hnote⟩ := hkeeps
  refine ⟨hque, rfl, rfl, rfl, rfl, rfl, rfl, rfl, rfl, rfl, rfl, rfl, rfl, rfl, rfl, rfl, rfl, rfl, rfl, fun p => ?_,
    fun a ha => Classical.byContradiction fun hno => ha (hreg a hno)⟩
  rcases hnote with hports | ⟨-, k, hports⟩
  · rw [hports]
    exact ⟨fun hne => absurd rfl hne, rfl, rfl, rfl⟩
  · rw [hports]
    by_cases hp : p = k
    · subst hp
      rw [vmod_self]
      exact ⟨fun _ => rfl, rfl, rfl, rfl⟩
    · rw [vmod_other _ _ hp]
      exact ⟨fun hne => absurd rfl hne, rfl, rfl, rfl⟩

end Sys2Proof.Machine
end

section
/-!
PROOFS. Descriptors of the hardware queues: their rows in the register map, what reads of them show, and what the management cluster
does with a queue through them.
-/

namespace Sys2Proof.Machine

/-! ## The rows of the queue block (R310) -/

/-- No register of a row lies above its copies. -/
theorem RegRow.le_of_has {row : RegRow} {a : Nat} (h : row.has a = true) : a ≤ row.base + row.n1 * row.s1 + row.n2 * row.s2 := by
  have hcopy {o s n : Nat} (hn : o / s ≤ n) : o ≤ n * s + o % s := by
    have := Nat.mul_le_mul_right s hn
    have := Nat.div_add_mod' o s
    omega
  unfold RegRow.has at h
  split at h
  · exact absurd h Bool.false_ne_true
  · dsimp only at h
    rw [Bool.and_eq_true, decide_eq_true_eq] at h
    obtain ⟨hfirst, hsecond⟩ := h
    have houter : a - row.base ≤ row.n1 * row.s1 + if row.n1 ≤ 1 then a - row.base else (a - row.base) % row.s1 := by
      split
      · exact Nat.le_add_left _ _
      · next h1 =>
        rw [if_neg h1, if_neg (by omega)] at hfirst
        exact hcopy hfirst.le
    have hinner : (if row.n1 ≤ 1 then a - row.base else (a - row.base) % row.s1) ≤ row.n2 * row.s2 := by
      generalize (if row.n1 ≤ 1 then a - row.base else (a - row.base) % row.s1) = o at hsecond
      split at hsecond
      · rw [beq_iff_eq] at hsecond
        omega
      · rw [Bool.and_eq_true, beq_iff_eq, decide_eq_true_eq] at hsecond
        obtain ⟨hmod, hdiv⟩ := hsecond
        have := hcopy hdiv.le
        omega
    omega

/-- Each row lies below the queue block or is a register of every descriptor. -/
theorem regRows_below_or_descriptor : ∀ row ∈ regRows, row.base + row.n1 * row.s1 + row.n2 * row.s2 < 0x1000000 ∨
    (row.n1 = 16384 ∧ row.s1 = 0x40 ∧ row.n2 = 1) ∧ 0x1000000 ≤ row.base ∧ row.base < 0x1000040 := by
  decide +kernel

/-- The register at an offset of a descriptor is that of the row that begins there. -/
theorem regRow_descriptor {a q o : Nat} (ha : a = 0x1000000 + 0x40 * q + o) (hq : q < 16384) (ho : o < 0x40) :
    regRow a = regRows.find? fun row => row.base == 0x1000000 + o := by
  refine List.find?_congr fun row hrow => ?_
  rw [Bool.eq_iff_iff, beq_iff_eq]
  rcases regRows_below_or_descriptor row hrow with hbelow | ⟨⟨h1, h2, h3⟩, hlo, hhi⟩
  · exact ⟨fun h => absurd (RegRow.le_of_has h) (by omega), fun h => by omega⟩
  · simp only [RegRow.has, h1, h2, h3]
    split
    · simp only [Bool.false_eq_true, false_iff]
      omega
    · simp only [show ¬16384 ≤ 1 by decide, show ¬16384 = 0 by decide, if_false, le_refl, if_true, Bool.and_eq_true, decide_eq_true_eq,
        beq_iff_eq]
      omega

/-! ## Reads of a descriptor (R298, R301, R310) -/

/-- A read of a register that the hardware computes whole shows the computed value in its readable fields. -/
theorem DM.view_of_computed {x : DM} {r : Requester} {a : Nat} {row : RegRow} {v : Nat} (hrow : regRow a = some row)
    (hlive : x.live r a = some (allBits, v)) : x.view r a = BitVec.ofNat 32 (v &&& allBits &&& readMask row) := by
  unfold DM.view
  simp only [hrow, hlive, Nat.xor_self, Nat.and_zero, Nat.zero_or]

theorem DM.live_descriptor (x : DM) (r : Requester) {a : Nat} (h : 0x1000000 ≤ a) : x.live r a = x.d.liveQue a := by
  unfold DM.live
  repeat rw [if_neg (by omega)]

theorem Data.liveQue_quedPkt {d : Data} {q : Nat} (hrec : (d.qRec q).isSome = true) :
    d.liveQue (Reg.quedPkt q) = some (allBits, d.qPkt q) := by
  obtain ⟨r, hr⟩ := Option.isSome_iff_exists.mp hrec
  have hq : (Reg.quedPkt q - 0x1000000) / 0x40 = q := que_index 0x10 (by simp only [Reg.quedPkt]; omega) (by decide)
  have ho : Reg.quedPkt q % 0x40 = 0x10 := by simp only [Reg.quedPkt]; omega
  unfold Data.liveQue
  dsimp only
  rw [hq, ho, hr]
  rfl

/-- STAT of an assigned queue: its count of words leaves EMPTY and UNDERRUN at their bits. -/
theorem Data.liveQue_quedStat {d : Data} {q : Nat} (hrec : (d.qRec q).isSome = true) (hlen : (d.que1 q).words.length < 2 ^ 16) :
    ∃ v, d.liveQue (Reg.quedStat q) = some (allBits, v) ∧ v.testBit 16 = (d.que1 q).words.isEmpty ∧
      v.testBit 18 = (d.que1 q).underrun := by
  obtain ⟨r, hr⟩ := Option.isSome_iff_exists.mp hrec
  have hq : (Reg.quedStat q - 0x1000000) / 0x40 = q := que_index 0x0C (by simp only [Reg.quedStat]; omega) (by decide)
  have ho : Reg.quedStat q % 0x40 = 0x0C := by simp only [Reg.quedStat]; omega
  have hb (b : Bool) : b2n b ≤ 1 := by cases b <;> decide
  have hone (b : Bool) : decide (b2n b = 1) = b := by cases b <;> rfl
  unfold Data.liveQue
  dsimp only
  rw [hq, ho, hr]
  refine ⟨_, rfl, ?_, ?_⟩
  · refine Eq.trans ?_ (hone _)
    rw [Nat.testBit_eq_decide_div_mod_eq]
    simp only [at_, Nat.shiftLeft_eq]
    refine decide_eq_decide.mpr ?_
    have := hb (d.que1 q).words.isEmpty
    omega
  · refine Eq.trans ?_ (hone _)
    rw [Nat.testBit_eq_decide_div_mod_eq]
    simp only [at_, Nat.shiftLeft_eq]
    refine decide_eq_decide.mpr ?_
    have := hb (d.que1 q).words.isEmpty
    have := hb (decide (r.depth ≤ (d.que1 q).words.length))
    have := hb (d.que1 q).underrun
    omega

/-- QUE_Dq_PKT shows the number of words held that carry EOP. -/
theorem DM.view_quedPkt {x : DM} (r : Requester) {q : Nat} (hq : q < 16384) (hrec : (x.d.qRec q).isSome = true)
    (hpkt : x.d.qPkt q < 2 ^ 16) : (x.view r (Reg.quedPkt q)).toNat = x.d.qPkt q := by
  have hrow : ∃ row, (regRows.find? fun row => row.base == 0x1000000 + 0x10) = some row ∧ readMask row = 2 ^ 16 - 1 := by decide +kernel
  obtain ⟨row, hrow, hmask⟩ := hrow
  have hlive := (x.live_descriptor r (a := Reg.quedPkt q) (by simp only [Reg.quedPkt]; omega)).trans (Data.liveQue_quedPkt hrec)
  rw [view_of_computed ((regRow_descriptor (by simp only [Reg.quedPkt]; omega) hq (by decide)).trans hrow) hlive, hmask,
    show allBits = 2 ^ 32 - 1 from rfl, Nat.and_two_pow_sub_one_eq_mod, Nat.and_two_pow_sub_one_eq_mod, BitVec.toNat_ofNat]
  omega

/-- EMPTY and UNDERRUN of QUE_Dq_STAT. -/
theorem DM.view_quedStat {x : DM} (r : Requester) {q : Nat} (hq : q < 16384) (hrec : (x.d.qRec q).isSome = true)
    (hlen : (x.d.que1 q).words.length < 2 ^ 16) :
    (x.view r (Reg.quedStat q)).getLsbD 16 = (x.d.que1 q).words.isEmpty ∧
    (x.view r (Reg.quedStat q)).getLsbD 18 = (x.d.que1 q).underrun := by
  have hrow : ∃ row, (regRows.find? fun row => row.base == 0x1000000 + 0x0C) = some row ∧ (readMask row).testBit 16 = true ∧
      (readMask row).testBit 18 = true := by decide +kernel
  obtain ⟨row, hrow, hempty, hunder⟩ := hrow
  obtain ⟨v, hv, hv16, hv18⟩ := Data.liveQue_quedStat hrec hlen
  have hlive := (x.live_descriptor r (a := Reg.quedStat q) (by simp only [Reg.quedStat]; omega)).trans hv
  have hall : allBits.testBit 16 = true ∧ allBits.testBit 18 = true := by decide
  obtain ⟨hall16, hall18⟩ := hall
  rw [view_of_computed ((regRow_descriptor (by simp only [Reg.quedStat]; omega) hq (by decide)).trans hrow) hlive]
  simp only [BitVec.getLsbD_ofNat, Nat.testBit_and, hempty, hunder, hv16, hv18, hall16, hall18, Bool.and_true]
  exact ⟨rfl, rfl⟩

/-- Settles O42: words join at the tail and leave at the head, so that EOP is counted word by word, and each pop of an item leaves
the words behind it and the GAP marker that may land. -/
theorem queueItemsCounted : Obligations.QueueItemsCounted := by
  refine ⟨fun x r q hrec hpkt => x.view_quedPkt r q.isLt hrec hpkt, fun d r q w o p u => ?land, fun d r q u w ws hwords => ?pop,
    fun d q hnone => ?none, fun d r q ws post w hrec hwords hws heop => ?take⟩
  case land =>
    obtain ⟨t, b, hland⟩ := Data.que1_qLand (d := d) r q w o p u
    exact ⟨by rw [hland], Data.qPkt_qLand r q w o p u, w.flip_zero⟩
  case pop =>
    obtain ⟨hgives, -, g, hleft, hdue⟩ := Data.qPop_of_words r u hwords
    rw [hgives]
    refine ⟨rfl, rfl, rfl, g, hleft, ?_, fun hgap => ?_⟩
    · have := (d.que1 q).gapDue_le_one
      omega
    · have hg : g = [] := List.length_eq_zero_iff.mp (by rw [Que.gapDue_of_none hgap] at hdue; omega)
      refine ⟨hg, ?_⟩
      rw [Data.qPkt, Data.qPkt, hleft, hwords, hg]
      cases h : w.eop <;> simp [h, b2n]
  case none =>
    rw [Data.qTake, Data.qHeadItem_eq_none hnone]
    cases d.qRec q <;> rfl
  case take => exact Data.qTake_of_words hrec hwords hws heop

namespace Data

variable {d : Data}

/-! ## Pops by the owner of a queue (R301, R304) -/

/-- Where the owner has popped in this cycle, or nothing has reached the queue in it, its pop is an ordinary one. -/
theorem qOwnPop_of_quiet {q : Nat} (r : QRec) (u : BitVec 67) (h : (d.que1 q).popAt = some d.qCycle ∨
    (d.que1 q).flushAt ≠ some d.qCycle ∧ (d.que1 q).landAt ≠ some d.qCycle) : d.qOwnPop r q u = d.qPop r q u := by
  unfold qOwnPop
  dsimp only
  rcases h with hpop | ⟨hflush, hland⟩
  · rw [if_pos (beq_iff_eq.mpr hpop)]
  · rw [beq_eq_false_iff_ne.mpr hflush, beq_eq_false_iff_ne.mpr hland]
    simp

/-- A word that has landed in the empty queue in the cycle of its first pop is not seen by that pop. -/
theorem qOwnPop_of_landed {q : Nat} (r : QRec) (u : BitVec 67) (hpop : (d.que1 q).popAt ≠ some d.qCycle)
    (hflush : (d.que1 q).flushAt ≠ some d.qCycle) (hland : (d.que1 q).landAt = some d.qCycle) (hone : (d.que1 q).words.length = 1) :
    d.qOwnPop r q u = (d.modQue q fun x => { x with popAt := some d.qCycle }).qUnder q := by
  unfold qOwnPop
  simp [beq_eq_false_iff_ne.mpr hpop, beq_eq_false_iff_ne.mpr hflush, hland, hone]

end Data

/-- The answer to a pop by the owner of a queue: what the pop gives, and whether it leaves the queue without a word. -/
theorem DM.mgqDo_pop {x : DM} {r : QRec} {p : Agent} {q : BitVec 14} (tag : Byte) (u : BitVec 67) (perm : Word)
    (hrec : x.d.qRec q.toNat = some r) (howner : r.owner = p.val) :
    (x.mgqDo p (.pop tag q u perm)).2 = some (DM.popAnswer tag q ((x.d.qOwnPop r q.toNat u).1.que1 q.toNat).words.isEmpty
      (some (x.d.qOwnPop r q.toNat u).2)) := by
  have hpop : x.d.qAgentPop p q.toNat u =
      ((x.d.qOwnPop r q.toNat u).1.modQue q.toNat fun y => { y with noted := false }, some (x.d.qOwnPop r q.toNat u).2) := by
    unfold Data.qAgentPop
    rw [hrec]
    exact if_neg (not_not.mpr howner)
  unfold DM.mgqDo
  dsimp only
  rw [hpop, Data.que1_modQue_self]

/-- Settles O43: a pop of an empty queue is an underrun, and so is one that goes before the only word landed in its cycle; the registers
and Q_WORD show what the queue holds. -/
theorem queueUnderrun : Obligations.QueueUnderrun := by
  refine ⟨fun d r q u hempty => ?under, fun d r q u w ws hwords => ?last, fun d q => ⟨rfl, rfl⟩,
    fun d r q u hpop hflush hland hone => ?landed, fun x r p tag q u perm hrec howner hquiet => ?answer,
    fun x r q hrec hlen => x.view_quedStat r q.isLt hrec hlen⟩
  case under =>
    have hframe := (Data.KeepsOthers.refl q d).qPop (r := r) (m := u)
    rw [Data.qPop_of_empty r u hempty] at hframe ⊢
    refine ⟨?_, ?_, hframe.que, Data.qUnder_latch q⟩
    · rw [Data.qUnder, Data.que1_modQue_self]
    · rw [Data.que1_qUnder, Data.que1_modQue_self]
  case last =>
    obtain ⟨-, hlast, -⟩ := Data.qPop_of_words r u hwords
    exact hlast
  case landed =>
    rw [Data.qOwnPop_of_landed r u hpop hflush hland hone]
    refine ⟨?_, ?_⟩
    · rw [Data.qUnder, Data.que1_modQue_self]
    · rw [Data.que1_qUnder, Data.que1_modQue_self]
  case answer =>
    have hpop := DM.mgqDo_pop tag u perm hrec howner
    rw [Data.qOwnPop_of_quiet r u hquiet] at hpop
    refine ⟨hpop, fun hempty => hpop.trans ?_⟩
    rw [Data.qPop_of_empty r u hempty, Data.que1_qUnder, Data.que1_modQue_self, hempty, Data.qUnder, Data.que1_modQue_self]
    rfl

/-! ## The queue commands (R295 to R307) -/

theorem regDom_of_descriptor {a : Nat} (h : 0x1000000 ≤ a ∧ a < 0x1100000) : regDom a = some 2 := by
  unfold regDom
  repeat rw [if_neg (by omega)]
  rw [if_pos (by omega)]

namespace Data

variable {d : Data} {q : Nat} {r : QRec}

/-- A whole write of PUSH_HI leaves the value written. -/
theorem reg_regWrite_quedPushHi (hq : q < 16384) (v : Word) :
    (d.regWrite (Reg.quedPushHi q) v 0xFFFFFFFF).reg (Reg.quedPushHi q) = v := by
  have hrow : ∃ row, (regRows.find? fun row => row.base == 0x1000000 + 0x34) = some row ∧ (⟨0, 32, .wo⟩ : Fld) ∈ row.flds := by
    decide +kernel
  obtain ⟨row, hfind, hf⟩ := hrow
  have hrow := (regRow_descriptor (a := Reg.quedPushHi q) (by simp only [Reg.quedPushHi]; omega) hq (by decide)).trans hfind
  rw [d.reg_regWrite_self v _ hrow]
  refine BitVec.eq_of_getLsbD_eq fun i hi => ?_
  rw [accApply_fld (regRow_mem hrow) hf _ _ _ ⟨Nat.zero_le i, by simpa using hi⟩, Acc.written,
    show (0xFFFFFFFF : Word) = BitVec.allOnes 32 from rfl, BitVec.getLsbD_allOnes, decide_eq_true hi, if_pos rfl]

/-- A write of a register's stored fields assigns no queue. -/
@[simp] theorem qRec_regWrite (a : Nat) (v en : Word) (q : Nat) : (d.regWrite a v en).qRec q = d.qRec q := by
  obtain ⟨m, h⟩ := d.regWrite_eq a v en
  rw [h]
  rfl

@[simp] theorem que1_regWrite (a : Nat) (v en : Word) (q : Nat) : (d.regWrite a v en).que1 q = d.que1 q := by
  obtain ⟨m, h⟩ := d.regWrite_eq a v en
  rw [h]
  rfl

@[simp] theorem qCycle_regWrite (a : Nat) (v en : Word) : (d.regWrite a v en).qCycle = d.qCycle := by
  obtain ⟨m, h⟩ := d.regWrite_eq a v en
  rw [h]
  rfl

/-- A queue that the rig gives to the management cluster. -/
theorem qMgt_of_owner (hrec : d.qRec q = some r) (howner : r.owner = 0x10 ∨ r.owner = 0x11) : d.qMgt q = some r := by
  rw [qMgt, hrec]
  exact if_pos howner

/-- A push through PUSH_HI takes PUSH_LO and the flags of CTL as they stand. -/
theorem writeQue_quedPushHi (hq : q < 16384) (hrec : d.qRec q = some r) (howner : r.owner = 0x10 ∨ r.owner = 0x11) (v : Word)
    (m : BitVec 67) : DM.writeQue d (Reg.quedPushHi q) v 0xFFFFFFFF m = ((d.regWrite (Reg.quedPushHi q) v 0xFFFFFFFF).qPush r q
      (qWord (v ++ d.reg (Reg.quedPushLo q)) (d.flag (Reg.quedCtl q) 2) (d.flag (Reg.quedCtl q) 3)) none m).1 := by
  have hindex : (Reg.quedPushHi q - 0x1000000) / 0x40 = q := que_index 0x34 (by simp only [Reg.quedPushHi]; omega) (by decide)
  have ho : Reg.quedPushHi q % 0x40 = 0x34 := by simp only [Reg.quedPushHi]; omega
  have hlo : (d.regWrite (Reg.quedPushHi q) v 0xFFFFFFFF).reg (Reg.quedPushLo q) = d.reg (Reg.quedPushLo q) :=
    d.reg_regWrite_other _ _ (by simp only [Reg.quedPushLo, Reg.quedPushHi]; omega)
  have hctl : (d.regWrite (Reg.quedPushHi q) v 0xFFFFFFFF).reg (Reg.quedCtl q) = d.reg (Reg.quedCtl q) :=
    d.reg_regWrite_other _ _ (by simp only [Reg.quedCtl, Reg.quedPushHi]; omega)
  have hpush : DM.writeQue d (Reg.quedPushHi q) v 0xFFFFFFFF m =
      (d.regWrite (Reg.quedPushHi q) v 0xFFFFFFFF).qPushHi q v m := by
    unfold DM.writeQue
    dsimp only
    rw [hindex, ho, hrec, reg_regWrite_quedPushHi hq]
    rfl
  rw [hpush, qPushHi, qMgt_of_owner ((qRec_regWrite _ _ _ q).trans hrec) howner]
  dsimp only
  rw [hlo, flag, hctl, flag, hctl]
  rfl

/-- A flush in a queue cycle without a push. -/
theorem qFlush_of_unpushed (hrec : d.qRec q = some r) (hpush : (d.que1 q).pushAt ≠ some d.qCycle) : ∃ head, d.qFlush q =
    d.modQue q fun x => { x with
      words := [], opn := .none, opener := none, resync := x.resync || decide (x.opn ≠ .none), gapPend := 0
      trunc := false, part := false, head := 0, tail := 0, timer := none, flushAt := some d.qCycle, flushHead := head } := by
  unfold qFlush
  rw [hrec]
  dsimp only
  rw [beq_eq_false_iff_ne.mpr hpush, if_neg (by decide)]
  exact ⟨_, modQue_congr rfl⟩

/-- A write of 1 to FLUSH. -/
theorem writeQue_flush (hrec : d.qRec q = some r) : DM.writeQue d (Reg.quedCtl q) 1 1 0 = (d.regWrite (Reg.quedCtl q) 1 1).qFlush q := by
  have hindex : (Reg.quedCtl q - 0x1000000) / 0x40 = q := que_index 0x2C (by simp only [Reg.quedCtl]; omega) (by decide)
  have ho : Reg.quedCtl q % 0x40 = 0x2C := by simp only [Reg.quedCtl]; omega
  unfold DM.writeQue
  dsimp only
  rw [hindex, ho, hrec]
  rfl

/-- A stale timer that has run out (R307). -/
theorem qStale_of_due {t : Nat} (hrec : d.qRec q = some r) (htimer : (d.que1 q).timer = some t) (hup : d.domUp 2 = true)
    (hon : d.fld (Reg.quedStale q) 0 16 ≠ 0) (hdue : t + us (10 * d.fld (Reg.quedStale q) 0 16) ≤ d.now) :
    d.qStale q = ((d.modQue q fun x => { x with stale := true, timer := none, expired := true }).stampQue q 21).qEv 0 q := by
  unfold qStale
  rw [hrec, htimer]
  exact if_pos ⟨hon, hup, hdue⟩

end Data

/-- A read of POP_LO by the cluster pops a word of its queue. -/
theorem DM.mgtRead_quedPopLo {x : DM} {q : Nat} (u : BitVec 67) (hup : x.mgtUp = true) (hq : q < 16384) (hdom : x.d.domUp 2 = true)
    (hposted : x.d.banks[(16 : Fin 17)].posted = []) : (x.mgtRead (Reg.quedPopLo q) .w32 u).1 =
      { x with d := (x.d.qPopLo q u).1.modBank 16 fun b => { b with read := (x.d.qPopLo q u).2.setWidth 64 } } := by
  have hindex : (Reg.quedPopLo q - 0x1000000) / 0x40 = q := que_index 0x38 (by simp only [Reg.quedPopLo]; omega) (by decide)
  have ho : 0x1000000 ≤ Reg.quedPopLo q ∧ Reg.quedPopLo q % 0x40 = 0x38 := by simp only [Reg.quedPopLo]; omega
  have hcause : accCause (Reg.quedPopLo q) 4 false false = none := by
    have halign : accAligned (Reg.quedPopLo q) 4 = true := by
      rw [accAligned, show Reg.quedPopLo q % 4 = 0 by simp only [Reg.quedPopLo]; omega]
      rfl
    rw [accCause, halign, regDom_of_descriptor (by simp only [Reg.quedPopLo]; omega)]
    rfl
  have hhere : x.d.blockReefed (Reg.quedPopLo q) = false :=
    Data.que_open 0x38 (by simp only [Reg.quedPopLo]; omega) (by decide) hq hdom
  have hread : x.readPart 16 (Reg.quedPopLo q) u = ({ x with d := (x.d.qPopLo q u).1 }, (x.d.qPopLo q u).2) := by
    rw [readPart, hhere, if_neg (by decide), readReg, if_pos ho, hindex]
  have hfabric : x.fabricRead 16 (Reg.quedPopLo q) 4 u = ({ x with d := (x.d.qPopLo q u).1 }, (x.d.qPopLo q u).2.setWidth 64) := by
    unfold fabricRead
    rw [postedAll_of_none hposted, ite_self, if_neg (by decide), if_pos rfl, hread]
  unfold mgtRead
  rw [hup, show accBytes .w32 = 4 from rfl, hcause, hfabric]
  rfl

/-- Settles O18: a port's items join its queue of items, and the cluster's accesses reach the descriptor that they name, which does its
own work. -/
theorem queueCommandsComplete : Obligations.QueueCommandsComplete := by
  refine ⟨fun p tag q s hopen => ⟨fun eop poison v => ?push, fun upset => ?pop⟩,
    fun q s r hup hdom hrec => ⟨fun howner hreach v => ?pushHi, fun howner hposted upset => ?popLo, fun hreach hpush => ?flush⟩,
    fun q s r hrec => ⟨fun t htimer hdom hon hdue => ?stale, fun hpend hopn hresync hroom => ?gap⟩⟩
  case push => exact exec_after rfl (Data.mgqPut_of_open hopen _ _)
  case pop => exact exec_after rfl (Data.mgqPut_of_open hopen _ _)
  case pushHi =>
    refine exec_afterDM_data rfl ((State.trigger_reaches hreach v.bits 0xFFFFFFFF v.upset (by decide)).trans ?_)
    rw [DM.writeAlone_que _ _ _ _ _ _ (by simp only [Reg.quedPushHi]; omega)]
    exact congrArg (fun d => { s.begun with d := d }) (Data.writeQue_quedPushHi q.isLt hrec howner v.bits v.upset)
  case popLo =>
    have hread := DM.mgtRead_quedPopLo (x := s.begun) upset (State.mgtUp_begun hup) q.isLt hdom hposted
    exact exec_afterDM_data rfl hread
  case flush =>
    obtain ⟨head, hflush⟩ := Data.qFlush_of_unpushed (d := s.d.regWrite (Reg.quedCtl q.toNat) 1 1) (q := q.toNat) (r := r)
      (by rw [Data.qRec_regWrite, hrec]) (by rw [Data.que1_regWrite, Data.qCycle_regWrite]; exact hpush)
    rw [Data.qCycle_regWrite] at hflush
    refine ⟨head, exec_afterDM_data rfl (State.trigger_data hreach (by decide)
      (DM.writeAlone_que _ _ _ _ _ _ (by simp only [Reg.quedCtl]; omega)) ((Data.writeQue_flush hrec).trans hflush))⟩
  case stale => exact exec_after rfl (Data.qStale_of_due hrec htimer hdom hon hdue)
  case gap =>
    refine exec_after rfl ((Data.qGap_of_room hrec hpend hopn hresync hroom).trans ?_)
    rw [at_, Nat.shiftLeft_eq]

end Sys2Proof.Machine
end

section
/-!
PROOFS. Registers of the events and the counters: what writes leave in them, and the sampling LFSRs.
-/

namespace Sys2Proof.Machine

/-! ## Fields that are written whole (R9, R338) -/

namespace Data

variable {d : Data} {a : Nat} {row : RegRow} {f : Fld}

/-- A field of a writable type whose bits are all enabled takes the value written. -/
theorem fld_regWrite_enabled (hrow : regRow a = some row) (hf : f ∈ row.flds) (hacc : f.acc = .rw ∨ f.acc = .wo) {v en : Word}
    (hen : ∀ i < f.n, en.getLsbD (f.lo + i) = true) : (d.regWrite a v en).fld a f.lo f.n = bits v.toNat f.lo f.n := by
  have hmask (p : Acc → Bool) (i : Nat) (hi : i < f.n) : (accMask row p).getLsbD (f.lo + i) = p f.acc :=
    accMask_of_covers (regRow_mem hrow) hf p (BitVec.lt_of_getLsbD (hen i hi)) ⟨Nat.le_add_right _ _, Nat.add_lt_add_left hi _⟩
  refine d.fld_regWrite_rw a v en f.lo f.n hrow fun i hi => ?_
  rw [hmask _ i hi, hmask _ i hi, hmask _ i hi]
  rcases hacc with h | h <;> rw [h] <;> exact ⟨rfl, rfl, rfl, hen i hi⟩

/-- A register of one writable field of 32 bits takes a whole write. -/
theorem reg_regWrite_whole {acc : Acc} (hrow : regRow a = some row) (hf : ⟨0, 32, acc⟩ ∈ row.flds) (hacc : acc = .rw ∨ acc = .wo)
    (v : Word) : (d.regWrite a v 0xFFFFFFFF).reg a = v := by
  have hbits (x : Word) : bits x.toNat 0 32 = x.toNat := by rw [bits_eq_extract, BitVec.extractLsb'_eq_self]
  have hfld := d.fld_regWrite_enabled hrow hf hacc (v := v) (en := 0xFFFFFFFF) fun i hi => by
    rw [show (0xFFFFFFFF : Word) = BitVec.allOnes 32 from rfl, BitVec.getLsbD_allOnes, Nat.zero_add, decide_eq_true hi]
  rw [fld, hbits, hbits] at hfld
  exact BitVec.eq_of_toNat_eq hfld

theorem cycNow_regWrite (a : Nat) (v en : Word) : (d.regWrite a v en).cycNow = d.cycNow := by
  obtain ⟨regs, h⟩ := d.regWrite_eq a v en
  rw [h]
  rfl

theorem pmc_regWrite (a : Nat) (v en : Word) : (d.regWrite a v en).pmc = d.pmc := by
  obtain ⟨regs, h⟩ := d.regWrite_eq a v en
  rw [h]

theorem evt_regWrite (a : Nat) (v en : Word) : (d.regWrite a v en).evt = d.evt := by
  obtain ⟨regs, h⟩ := d.regWrite_eq a v en
  rw [h]

end Data

/-! ## What a write of each register does (R321, R325, R327, R329, R330) -/

namespace DM

variable (x : DM) (r : Requester) (v en : Word)

theorem writeAlone_evtForce (src : BitVec 10) :
    x.writeAlone r Reg.evtForce (src.setWidth 32 ||| 0x400) 0x7FF 0 =
      { x with d := (x.d.regWrite Reg.evtForce (src.setWidth 32 ||| 0x400) 0x7FF).evForce src } := by
  have hrow : ∃ row, regRow Reg.evtForce = some row ∧ (⟨0, 10, .rw⟩ : Fld) ∈ row.flds := by decide +kernel
  obtain ⟨row, hrow, hf⟩ := hrow
  have hfld := x.d.fld_regWrite_enabled hrow hf (.inl rfl) (v := src.setWidth 32 ||| 0x400) (en := 0x7FF) (by decide)
  have hgo : hit (src.setWidth 32 ||| 0x400) 0x7FF 10 = true := by simp [hit]
  have hsrc : (src.setWidth 32 ||| 0x400 : Word).extractLsb' 0 10 = src := by
    rw [BitVec.extractLsb'_or, show (0x400 : Word).extractLsb' 0 10 = 0 from rfl]
    ext i hi
    simp [hi, show i < 32 by omega]
  have hnum : BitVec.ofNat 10 ((x.d.regWrite Reg.evtForce (src.setWidth 32 ||| 0x400) 0x7FF).fld Reg.evtForce 0 10) = src := by
    rw [hfld, bits_eq_extract, hsrc, BitVec.ofNat_toNat, BitVec.setWidth_eq]
  rw [writeAlone_evt _ _ _ _ _ _ (by decide), writeEvt, if_pos rfl, hgo, if_pos rfl, hnum]

theorem writeAlone_pmcCtl : x.writeAlone r Reg.pmcCtl v en 0 = { x with d := (x.d.regWrite Reg.pmcCtl v en).modPmc fun p =>
    { p with snap := p.snap || hit v en 0, clr := p.clr || hit v en 1 } } := by
  rw [writeAlone_evt _ _ _ _ _ _ (by decide), writeEvt, if_neg (by decide), if_neg (by decide), if_pos rfl]

theorem writeAlone_pmcChain {k : Nat} (hk : k < 8) : x.writeAlone r (Reg.pmcChain k) v en 0 =
    { x with d := (x.d.regWrite (Reg.pmcChain k) v en).modPmc fun p => { p with chainNew := widePut p.chainNew k v en } } := by
  have ha : Reg.pmcChain k = 0x40050 + 4 * k := rfl
  have hforce : Reg.evtForce = 0x30008 := rfl
  have hctl : Reg.pmcCtl = 0x40000 := rfl
  have hstat : Reg.pmcStat = 0x40004 := rfl
  have hcfg : Reg.pmcSmpCfg = 0x40080 := rfl
  have hindex : (Reg.pmcChain k - 0x40050) / 4 = k := by omega
  rw [writeAlone_evt _ _ _ _ _ _ (by omega), writeEvt, if_neg (by omega), if_neg (by omega), if_neg (by omega), if_neg (by omega),
    if_neg (by omega), if_pos (by omega), hindex]

theorem writeAlone_pmcWvalHi : x.writeAlone r Reg.pmcWvalHi v en 0 = { x with d := (x.d.regWrite Reg.pmcWvalHi v en).pmcLoad } := by
  rw [writeAlone_evt _ _ _ _ _ _ (by decide), writeEvt, if_neg (by decide), if_neg (by decide), if_neg (by decide), if_neg (by decide),
    if_neg (by decide), if_neg (by decide), if_pos rfl]

theorem writeAlone_pmcSmpSeed : x.writeAlone r Reg.pmcSmpSeed v en 0 = { x with d := (x.d.regWrite Reg.pmcSmpSeed v en).lfsrSeed } := by
  rw [writeAlone_evt _ _ _ _ _ _ (by decide), writeEvt, if_neg (by decide), if_neg (by decide), if_neg (by decide), if_neg (by decide),
    if_neg (by decide), if_neg (by decide), if_neg (by decide), if_pos rfl]

theorem writeAlone_aptSwev (p : Agent) (v : Byte) : x.writeAlone r (Reg.aptSwev p.val) (v.setWidth 32) 0xFF 0 =
    { x with d := (x.d.regWrite (Reg.aptSwev p.val) (v.setWidth 32) 0xFF).swev p v } := by
  have ha : Reg.aptSwev p.val = 0x200020 + 0x10000 * p.val := rfl
  have hp : (Fin.ofNat 16 ((Reg.aptSwev p.val - 0x200000) / 0x10000) : Agent) = p := Fin.ext (by simp only [Fin.val_ofNat]; omega)
  have ho : Reg.aptSwev p.val % 0x10000 = 0x20 := by omega
  have hv : ((v.setWidth 32 &&& 0xFF : Word).truncate 8 : Byte) = v := by
    rw [BitVec.truncate_eq_setWidth, BitVec.setWidth_and, show (0xFF : Word).setWidth 8 = BitVec.allOnes 8 from rfl, BitVec.and_allOnes]
    ext i hi
    simp
  rw [writeAlone_apt _ _ _ _ _ _ (by omega), writeApt]
  simp only [hp, ho, hv]
  rfl

end DM

/-! ## The sampling LFSRs (R330) -/

/-- A start value is never 0. -/
theorem lfsrLoad_ne_zero (seed : Word) (p : Agent) : lfsrLoad seed p ≠ 0 := by
  unfold lfsrLoad
  dsimp only
  split
  · decide
  · assumption

/-- The bit that a step shifts in. -/
def lfsrFeed (x : Word) : Bool := x.getLsbD 31 ^^ x.getLsbD 21 ^^ x.getLsbD 1 ^^ x.getLsbD 0

/-- A step moves every bit up by one and shifts the feedback in at bit 0. -/
theorem lfsrNext_getLsbD (x : Word) {i : Nat} (hi : i < 32) :
    (lfsrNext x).getLsbD i = if i = 0 then lfsrFeed x else x.getLsbD (i - 1) := by
  have hone (b : Bool) : (if b then (1 : Word) else 0).getLsbD i = (decide (i = 0) && b) := by
    cases b <;> simp [BitVec.getLsbD_one]
  rw [lfsrNext, BitVec.getLsbD_or, BitVec.getLsbD_shiftLeft, hone, lfsrFeed]
  by_cases h0 : i = 0
  · simp [h0]
  · simp [h0, hi]

/-- The bits that have moved up give 31 bits of the state back, and with them the feedback gives the one that has left. -/
theorem lfsrNext_injective {x y : Word} (h : lfsrNext x = lfsrNext y) : x = y := by
  have hbit (i : Nat) (hi : i < 32) := congrArg (·.getLsbD i) h
  have hlow (i : Nat) (hi : i < 31) : x.getLsbD i = y.getLsbD i := by
    have := hbit (i + 1) (by omega)
    simpa only [lfsrNext_getLsbD _ (show i + 1 < 32 by omega), Nat.succ_ne_zero, if_false, Nat.add_sub_cancel] using this
  have htop : x.getLsbD 31 = y.getLsbD 31 := by
    have := hbit 0 (by decide)
    simpa only [lfsrNext_getLsbD _ (show 0 < 32 by decide), if_true, lfsrFeed, hlow 21 (by decide), hlow 1 (by decide),
      hlow 0 (by decide), Bool.xor_left_inj] using this
  refine BitVec.eq_of_getLsbD_eq fun i hi => ?_
  rcases Nat.lt_or_ge i 31 with h31 | h31
  · exact hlow i h31
  · rw [show i = 31 by omega, htop]

/-- Only the state 0 steps to 0. -/
theorem lfsrNext_ne_zero {x : Word} (h : x ≠ 0) : lfsrNext x ≠ 0 := fun h0 => h (lfsrNext_injective (h0.trans (by decide)))

/-- Work on each port of a list without repetitions reaches each of them once. -/
theorem Data.foldl_modPort_ports (g : Agent → Port → Port) (l : List Agent) (d : Data) (hnodup : l.Nodup) (p : Agent) :
    (l.foldl (fun (d : Data) q => d.modPort q (g q)) d).ports[p] = if p ∈ l then g p d.ports[p] else d.ports[p] := by
  induction l generalizing d with
  | nil => simp
  | cons q l ih =>
    obtain ⟨hq, hl⟩ := List.nodup_cons.mp hnodup
    rw [List.foldl_cons, ih _ hl, modPort_ports]
    by_cases hpq : p = q
    · subst hpq
      simp [hq]
    · rw [vmod_other _ _ hpq]
      simp [hpq]

/-- Every port takes the start value of the seed. -/
theorem Data.lfsrSeed_lfsr (d : Data) (p : Agent) : d.lfsrSeed.ports[p].lfsr = lfsrLoad (d.reg Reg.pmcSmpSeed) p := by
  have hports := Data.foldl_modPort_ports (fun q x => { x with lfsr := lfsrLoad (d.reg Reg.pmcSmpSeed) q }) allAgents d
    (List.nodup_finRange 16) p
  exact congrArg Port.lfsr (hports.trans (if_pos (List.mem_finRange p)))

/-- Settles O58: a step is undone bit by bit, so that 0 comes from 0 alone, and a seed that would load 0 loads 1. -/
theorem samplingNeverSticks : Obligations.SamplingNeverSticks := by
  refine ⟨fun seed p => ⟨lfsrLoad_ne_zero seed p, rfl⟩, by decide, fun x => lfsrNext_ne_zero, fun x y => lfsrNext_injective,
    fun x r v p hquiet => ?_⟩
  have hrow : ∃ row, regRow Reg.pmcSmpSeed = some row ∧ (⟨0, 32, .rw⟩ : Fld) ∈ row.flds := by decide +kernel
  obtain ⟨row, hrow, hf⟩ := hrow
  rw [x.writeReg_quiet r _ v _ 0 (by decide) hquiet, x.writeAlone_pmcSmpSeed r v, Data.lfsrSeed_lfsr,
    Data.reg_regWrite_whole hrow hf (.inl rfl)]

end Sys2Proof.Machine
end

section
/-!
PROOFS. Counters: what an addition, a load, a clear and the tick edge leave in them (R323 to R327).
-/

namespace Sys2Proof.Machine

/-! ## One addition (R325, R326) -/

namespace Pmc

/-- The counter is the even one of a chained pair: its wraps go to the odd one. -/
def carries (p : Pmc) (c : Nat) : Bool := decide (c % 2 = 0) && p.chain.getLsbD (c / 2)

/-- An addition passes 2^48 - 1 in a counter that no load of the cycle has set. -/
def passes (p : Pmc) (c n : Nat) (loaded : Bool) : Bool := decide (2 ^ 48 ≤ SMap.get 0 p.cnt c + n) && !loaded

/-- The counters with a sum in counter `c`, and its overflow bit where the sum sets it. -/
def added (p : Pmc) (c n : Nat) (loaded : Bool) : Pmc :=
  { p with
    cnt := SMap.set 0 p.cnt c ((SMap.get 0 p.cnt c + n) % 2 ^ 48)
    ovf := if p.passes c n loaded && !p.carries c then setBit p.ovf c true else p.ovf }

theorem carries_of_unchained {p : Pmc} {c : Nat} (h : p.chain.getLsbD (c / 2) = false) : p.carries c = false := by
  rw [carries, h, Bool.and_false]

theorem carries_of_odd_unchained {p : Pmc} {c : Nat} (h : c % 2 = 1 → p.chain.getLsbD (c / 2) = false) :
    p.carries c = p.chain.getLsbD (c / 2) := by
  rcases Nat.mod_two_eq_zero_or_one c with h0 | h1
  · rw [carries, decide_eq_true h0, Bool.true_and]
  · rw [carries, h h1, Bool.and_false]

@[simp] theorem passes_loaded (p : Pmc) (c n : Nat) : p.passes c n true = false := Bool.and_false _

theorem passes_unloaded (p : Pmc) (c n : Nat) : p.passes c n false = decide (2 ^ 48 ≤ SMap.get 0 p.cnt c + n) := Bool.and_true _

end Pmc

namespace Pmc

variable {p : Pmc} {c n : Nat} {l : Bool}

theorem cnt_added_self : SMap.get 0 (p.added c n l).cnt c = (SMap.get 0 p.cnt c + n) % 2 ^ 48 := SMap.get_set_self ..

theorem cnt_added_other {k : Nat} (h : k ≠ c) : SMap.get 0 (p.added c n l).cnt k = SMap.get 0 p.cnt k := SMap.get_set_other _ _ _ h

theorem ovf_added_self (hc : c < 512) :
    (p.added c n l).ovf.getLsbD c = (p.ovf.getLsbD c || (p.passes c n l && !p.carries c)) := by
  unfold added
  cases h : p.passes c n l && !p.carries c
  · simp
  · simp [setBit_true_get _ _ _ hc]

theorem ovf_added_other (hc : c < 512) {k : Nat} (h : k ≠ c) : (p.added c n l).ovf.getLsbD k = p.ovf.getLsbD k := by
  unfold added
  dsimp only
  split
  · rw [setBit_true_get _ _ _ hc, decide_eq_false h, Bool.false_or]
  · rfl

theorem ovf_added_of_not_passes (h : p.passes c n l = false) : (p.added c n l).ovf = p.ovf := by rw [added, h]; rfl

end Pmc

namespace Data

/-- An addition: the sum, whether it goes to the odd counter of a pair, and whether it sets a new overflow bit. -/
theorem tallyRaw_eq (p : Pmc) (c n : Nat) (l : Bool) : tallyRaw p c n l =
    (p.added c n l, p.passes c n l && p.carries c, p.passes c n l && !p.carries c && !p.ovf.getLsbD c) := by
  have hstays : (SMap.get 0 p.cnt c + n < 2 ^ 48 ∨ l = true) ↔ p.passes c n l = false := by
    rw [Pmc.passes, Bool.and_eq_false_iff, decide_eq_false_iff_not, Nat.not_le, Bool.not_eq_false']
  have hpair : (decide (c % 2 = 0) && p.chain.getLsbD (c / 2)) = p.carries c := rfl
  unfold tallyRaw Pmc.added
  simp only [hstays, hpair]
  cases p.passes c n l
  · rfl
  · cases p.carries c <;> rfl

variable {d : Data} {c n : Nat}

@[simp] theorem ovfSet_pmc (b : Bool) : (d.ovfSet c b).pmc = d.pmc := by
  unfold ovfSet
  split <;> rfl

/-- Of the record of the cycle, an overflow adds the bit that it sets. -/
theorem ovfSet_cycNow (b : Bool) : ∃ s, (d.ovfSet c b).cycNow = { d.cycNow with set := s } := by
  unfold ovfSet
  split
  · exact ⟨_, d.cycNow_stamp _ _⟩
  · exact ⟨_, rfl⟩

theorem ovfSet_latch (b : Bool) (i : Nat) :
    (d.ovfSet c b).evt.latch.getLsbD i = (d.evt.latch.getLsbD i || (decide (i = 100) && b)) := by
  unfold ovfSet
  cases b
  · simp
  · rw [if_pos rfl, ev_latch _ _ _ (by decide), stamp_evt, Bool.and_true, Bool.or_comm]

/-- An addition to one counter alone, and the event of a new overflow bit. -/
def cntOne (d : Data) (c n : Nat) : Data :=
  ({ d with pmc := d.pmc.added c n (d.cycNow.loads.contains c) } : Data).ovfSet c
    (d.pmc.passes c n (d.cycNow.loads.contains c) && !d.pmc.carries c && !d.pmc.ovf.getLsbD c)

@[simp] theorem cntOne_pmc : (d.cntOne c n).pmc = d.pmc.added c n (d.cycNow.loads.contains c) := ovfSet_pmc _

theorem cntOne_cycNow : ∃ s, (d.cntOne c n).cycNow = { d.cycNow with set := s } := ovfSet_cycNow _

/-- An addition goes on to the odd counter of a chained pair where it passes the even one. -/
theorem cntAdd_eq : d.cntAdd c n =
    if d.pmc.passes c n (d.cycNow.loads.contains c) && d.pmc.carries c then (d.cntOne c n).cntOne (c + 1) 1 else d.cntOne c n := by
  unfold cntAdd
  simp only [tallyRaw_eq]
  rfl

/-- An addition that does not pass the even counter of a chained pair stays in its own counter. -/
theorem cntAdd_of_no_carry (h : (d.pmc.passes c n (d.cycNow.loads.contains c) && d.pmc.carries c) = false) :
    d.cntAdd c n = d.cntOne c n := by
  rw [cntAdd_eq, h, if_neg (by decide)]

/-- An addition adds to the record of the cycle the overflow bits that it sets. -/
theorem cntAdd_cycNow : ∃ s, (d.cntAdd c n).cycNow = { d.cycNow with set := s } := by
  obtain ⟨s, hone⟩ := d.cntOne_cycNow (c := c) (n := n)
  rw [cntAdd_eq]
  split
  · obtain ⟨t, hnext⟩ := (d.cntOne c n).cntOne_cycNow (c := c + 1) (n := 1)
    exact ⟨t, by rw [hnext, hone]⟩
  · exact ⟨s, hone⟩

/-- The counters after both additions. -/
theorem cntAdd_pmc_of_carry (h : (d.pmc.passes c n (d.cycNow.loads.contains c) && d.pmc.carries c) = true) :
    ∃ l, (d.cntAdd c n).pmc = (d.pmc.added c n (d.cycNow.loads.contains c)).added (c + 1) 1 l := by
  rw [cntAdd_eq, if_pos h, cntOne_pmc, cntOne_pmc]
  exact ⟨_, rfl⟩

/-- The counter holds the remainder of the sum. -/
theorem cnt_cntAdd_self : SMap.get 0 (d.cntAdd c n).pmc.cnt c = (SMap.get 0 d.pmc.cnt c + n) % 2 ^ 48 := by
  cases h : d.pmc.passes c n (d.cycNow.loads.contains c) && d.pmc.carries c
  · rw [cntAdd_of_no_carry h, cntOne_pmc, Pmc.cnt_added_self]
  · obtain ⟨l, hpmc⟩ := cntAdd_pmc_of_carry h
    rw [hpmc, Pmc.cnt_added_other (Nat.ne_of_lt (Nat.lt_succ_self c)), Pmc.cnt_added_self]

/-- The odd counter of a chained pair adds 1 where the even one wraps. -/
theorem cnt_cntAdd_next (hc : d.pmc.carries c = true) : SMap.get 0 (d.cntAdd c n).pmc.cnt (c + 1) =
    if d.pmc.passes c n (d.cycNow.loads.contains c) = true then (SMap.get 0 d.pmc.cnt (c + 1) + 1) % 2 ^ 48
    else SMap.get 0 d.pmc.cnt (c + 1) := by
  cases h : d.pmc.passes c n (d.cycNow.loads.contains c)
  · rw [cntAdd_of_no_carry (by rw [h, Bool.false_and]), cntOne_pmc, Pmc.cnt_added_other (Nat.succ_ne_self c), if_neg (by decide)]
  · obtain ⟨l, hpmc⟩ := cntAdd_pmc_of_carry (by rw [h, hc, Bool.true_and])
    rw [hpmc, Pmc.cnt_added_self, Pmc.cnt_added_other (Nat.succ_ne_self c), if_pos rfl]

/-- The overflow bit of the counter: an addition sets it where it passes a counter that carries nothing on. -/
theorem ovf_cntAdd_self (hc : c < 512) : (d.cntAdd c n).pmc.ovf.getLsbD c =
    (d.pmc.ovf.getLsbD c || (d.pmc.passes c n (d.cycNow.loads.contains c) && !d.pmc.carries c)) := by
  cases h : d.pmc.passes c n (d.cycNow.loads.contains c) && d.pmc.carries c
  · rw [cntAdd_of_no_carry h, cntOne_pmc, Pmc.ovf_added_self hc]
  · obtain ⟨l, hpmc⟩ := cntAdd_pmc_of_carry h
    have heven : c % 2 = 0 := by
      rw [Bool.and_eq_true, Pmc.carries, Bool.and_eq_true, decide_eq_true_eq] at h
      exact h.2.1
    rw [hpmc, Pmc.ovf_added_other (by omega) (Nat.ne_of_lt (Nat.lt_succ_self c)), Pmc.ovf_added_self hc]

/-! ## A happening (R322 to R324) -/

/-- The record that a happening leaves for a load of its cycle. -/
theorem cycNow_cntKeep : (d.cntKeep c n).cycNow = { d.cycNow with
    base := some (d.cycNow.base.getD (d.pmc.cnt, d.pmc.ovf, d.evt.latch.getLsbD 100)), adds := SMap.upd 0 d.cycNow.adds c (· + n) } :=
  if_pos d.cycNow_at

theorem loads_cntKeep : (d.cntKeep c n).cycNow.loads = d.cycNow.loads := by rw [cycNow_cntKeep]

theorem passes_cntKeep (hload : c ∉ d.cycNow.loads) : (d.cntKeep c n).pmc.passes c n ((d.cntKeep c n).cycNow.loads.contains c) =
    decide (2 ^ 48 ≤ SMap.get 0 d.pmc.cnt c + n) := by
  rw [loads_cntKeep, List.contains_eq_mem, decide_eq_false hload, Pmc.passes_unloaded]
  rfl

/-- A happening within the limit of 64 is one addition. -/
theorem tally_adds (hup : d.domUp 2 = true) (hn : 0 < n) (hle : n ≤ 64) (hodd : c % 2 = 1 → d.pmc.chain.getLsbD (c / 2) = false) :
    d.tally c n = (d.cntKeep c n).cntAdd c n := by
  rw [d.tally_counts c n hup hn hodd, Nat.min_eq_left hle]

/-- In a counter of no chained pair it is an addition to that counter alone. -/
theorem tally_unchained (hup : d.domUp 2 = true) (hn : 0 < n) (hle : n ≤ 64) (hchain : d.pmc.chain.getLsbD (c / 2) = false) :
    d.tally c n = (d.cntKeep c n).cntOne c n := by
  rw [tally_adds hup hn hle fun _ => hchain]
  exact cntAdd_of_no_carry ((congrArg (_ && ·) (Pmc.carries_of_unchained hchain)).trans (Bool.and_false _))

end Data

/-- PMC_OVFk is one field of 32 bits, which a read shows. -/
theorem regRow_pmcOvf : ∀ k : Fin 16, ∃ row, regRow (Reg.pmcOvf k.val) = some row ∧ DM.readMask row = 2 ^ 32 - 1 := by decide +kernel

theorem DM.live_pmcOvf (x : DM) (r : Requester) (k : Fin 16) : x.live r (Reg.pmcOvf k.val) = some (allBits, word x.d.pmc.ovf k.val) := by
  have ha : Reg.pmcOvf k.val = 0x40010 + 4 * k.val := rfl
  have hstat : Reg.evtStat = 0x30000 := rfl
  have hforce : Reg.evtForce = 0x30008 := rfl
  have hctl : Reg.pmcCtl = 0x40000 := rfl
  have hpstat : Reg.pmcStat = 0x40004 := rfl
  have hindex : (Reg.pmcOvf k.val - 0x40010) / 4 = k.val := by omega
  rw [live, if_neg (by omega), if_neg (by omega), if_pos (by omega), Data.liveEvt, if_neg (by omega), if_neg (by omega),
    if_neg (by omega), if_neg (by omega), if_neg (by omega), if_pos (by omega), hindex]

/-- PMC_OVFk shows the overflow bits of counters 32k to 32k + 31. -/
theorem DM.view_pmcOvf (x : DM) (r : Requester) (k : Fin 16) {b : Nat} (hb : b < 32) :
    (x.view r (Reg.pmcOvf k.val)).getLsbD b = x.d.pmc.ovf.getLsbD (32 * k.val + b) := by
  obtain ⟨row, hrow, hmask⟩ := regRow_pmcOvf k
  rw [view_of_computed hrow (x.live_pmcOvf r k), hmask, show allBits = 2 ^ 32 - 1 from rfl, Nat.and_assoc, Nat.and_self,
    Nat.and_two_pow_sub_one_eq_mod, word, BitVec.getLsbD_ofNat, Nat.testBit_mod_two_pow, BitVec.testBit_toNat,
    BitVec.getLsbD_extractLsb', decide_eq_true hb, Bool.true_and, Bool.true_and, Bool.true_and]

/-- Settles O39: an addition writes its counter and, where it passes, its overflow bit, and only the odd counter of a chained pair
may follow. -/
theorem counterOverflow : Obligations.CounterOverflow := by
  refine ⟨fun d c n hup hn hle hload hodd => ⟨?sum, ?bit, fun hchain => ⟨fun k hk => ?others, fun i => ?event⟩⟩,
    fun d c n hn => ?limit, fun x r k b => x.view_pmcOvf r k b.isLt⟩
  case sum =>
    rw [Data.tally_adds hup hn hle hodd]
    exact Data.cnt_cntAdd_self
  case bit =>
    rw [Data.tally_adds hup hn hle hodd, Data.ovf_cntAdd_self c.isLt, Data.passes_cntKeep hload]
    exact congrArg (fun b => _ || (_ && !b)) (Pmc.carries_of_odd_unchained hodd)
  case others =>
    rw [Data.tally_unchained hup hn hle hchain, Data.cntOne_pmc]
    exact ⟨Pmc.cnt_added_other hk, Pmc.ovf_added_other c.isLt hk⟩
  case event =>
    have hcarries : (d.cntKeep c n).pmc.carries c = false := Pmc.carries_of_unchained hchain
    rw [Data.tally_unchained hup hn hle hchain, Data.cntOne, Data.ovfSet_latch, Data.passes_cntKeep hload, hcarries, Bool.not_false,
      Bool.and_true, Bool.and_assoc]
    rfl
  case limit => rw [Data.tally, Data.tally, Nat.min_eq_right hn, Nat.min_self]

end Sys2Proof.Machine
end

section
/-!
PROOFS. Chained pairs, loads and clears of the counters, and the tick edge (R325, R327, R328).
-/

namespace Sys2Proof.Machine

/-! ## Sets of flags and of keys -/

/-- A write of 32 bits of a wide set of flags: the enabled bits of that word take the value. -/
theorem DM.getLsbD_widePut {w : Nat} (x : BitVec w) (k : Nat) (v en : Word) {i : Nat} (hi : i < w) :
    (DM.widePut x k v en).getLsbD i =
      if 32 * k ≤ i ∧ i < 32 * k + 32 ∧ en.getLsbD (i - 32 * k) = true then v.getLsbD (i - 32 * k) else x.getLsbD i := by
  simp only [DM.widePut, BitVec.getLsbD_or, BitVec.getLsbD_and, BitVec.getLsbD_not, BitVec.getLsbD_shiftLeft, BitVec.getLsbD_setWidth, hi,
    show i - 32 * k < w by omega, decide_true, Bool.true_and]
  rcases Nat.lt_or_ge i (32 * k) with hlow | hlow
  · simp [hlow, Nat.not_le.mpr hlow]
  · rcases Nat.lt_or_ge (i - 32 * k) 32 with hhigh | hhigh
    · have hin : i < 32 * k + 32 := by omega
      cases en.getLsbD (i - 32 * k) <;> simp [hlow, Nat.not_lt.mpr hlow, hin]
    · simp [BitVec.getLsbD_of_ge _ _ hhigh]

/-- A bit set to what it is. -/
theorem setBit_getLsbD {w : Nat} (x : BitVec w) (i : Nat) : setBit x i (x.getLsbD i) = x := by
  refine BitVec.eq_of_getLsbD_eq fun j hj => ?_
  cases h : x.getLsbD i
  · rw [setBit, if_neg (by decide), BitVec.getLsbD_and, BitVec.getLsbD_not, BitVec.getLsbD_twoPow]
    by_cases hij : i = j
    · rw [← hij, h, Bool.false_and]
    · rw [decide_eq_false hij, decide_eq_true hj, Bool.and_false, Bool.not_false, Bool.and_true, Bool.and_true]
  · rw [setBit_true_get x i j (BitVec.lt_of_getLsbD h)]
    by_cases hji : j = i
    · rw [hji, h, Bool.or_true]
    · rw [decide_eq_false hji, Bool.false_or]

theorem mem_insNat (c : Nat) (l : List Nat) : c ∈ insNat c l := by
  induction l with
  | nil => exact List.mem_singleton_self c
  | cons x l ih =>
    unfold insNat
    split_ifs with hlt heq
    · exact List.mem_cons_self
    · exact heq ▸ List.mem_cons_self
    · exact List.mem_cons_of_mem x ih

namespace Data

variable {d : Data} {c n : Nat}

/-! ## The tick edge (R325, R327 to R329) -/

/-- The counters that a tick edge leaves: a clear spares those that were loaded in its cycle. -/
def edgeCnt (d : Data) : SMap Nat := if d.pmc.clr then d.pmc.cnt.filter fun x => d.cycNow.loads.contains x.1 else d.pmc.cnt

theorem get_edgeCnt (d : Data) (c : Nat) :
    SMap.get 0 d.edgeCnt c = if d.pmc.clr = true ∧ c ∉ d.cycNow.loads then 0 else SMap.get 0 d.pmc.cnt c := by
  unfold edgeCnt
  cases d.pmc.clr
  · simp
  · rw [if_pos rfl, SMap.get_filter 0 d.pmc.cnt (fun k => d.cycNow.loads.contains k) c]
    by_cases h : c ∈ d.cycNow.loads <;> simp [h]

/-- A snapshot of a tick edge copies the counters and raises EV0101: counters, overflow bits, a pending clear and the pending chain bits
stay as they are. -/
theorem snapEdge_frame (d : Data) : ∃ (p : Pmc) (l : BitVec 1024), d.snapEdge = { d with
    pmc := { p with cnt := d.pmc.cnt, ovf := d.pmc.ovf, clr := d.pmc.clr, chainNew := d.pmc.chainNew }
    evt := { d.evt with latch := l } } := by
  unfold snapEdge
  split
  · exact ⟨d.snapTake.pmc, d.snapTake.evt.latch, rfl⟩
  · exact ⟨d.pmc, d.evt.latch, rfl⟩

/-- A tick edge changes counters, the record of the cycle and the latches alone. -/
theorem pmcEdge_frame (d : Data) : ∃ (p : Pmc) (y : Cyc) (l : BitVec 1024), d.pmcEdge =
    { d with pmc := p, cyc := y, evt := { d.evt with latch := l } } := by
  obtain ⟨p, l, hsnap⟩ := d.snapEdge_frame
  unfold pmcEdge
  rw [hsnap]
  split
  · exact ⟨d.pmc, d.cyc, d.evt.latch, rfl⟩
  · dsimp only
    split
    · exact ⟨_, _, l, rfl⟩
    · exact ⟨_, d.cyc, l, rfl⟩

/-- A tick edge does a pending clear and puts the pending chain bits in force. -/
theorem pmcEdge_counts (hup : d.domUp 2 = true) : d.pmcEdge.pmc.cnt = d.edgeCnt ∧
    d.pmcEdge.pmc.ovf = (if d.pmc.clr then 0 else d.pmc.ovf) ∧ d.pmcEdge.pmc.clr = false ∧ d.pmcEdge.pmc.chain = d.pmc.chainNew := by
  obtain ⟨p, l, hsnap⟩ := d.snapEdge_frame
  unfold pmcEdge edgeCnt
  rw [hup, hsnap]
  cases d.pmc.clr <;> exact ⟨rfl, rfl, rfl, rfl⟩

/-! ## Loads (R327) -/

/-- The counters as they stood before the cycle, with the loaded value in counter `c`: the additions of the cycle come on top. -/
def loaded (d : Data) (c v : Nat) (was : SMap Nat × BitVec 512 × Bool) : Data :=
  ((d.modCyc fun y => { y with base := some (SMap.set 0 was.1 c v, was.2.1, was.2.2), loads := insNat c y.loads }).modPmc fun p =>
    { p with cnt := SMap.set 0 was.1 c v, ovf := was.2.1 }).modEvt fun e =>
      { e with latch := setBit e.latch 100 (was.2.2 && e.latch.getLsbD 100) }

theorem pmcRedo_eq (c v : Nat) : d.pmcRedo c v = d.cycNow.adds.foldl (fun (d : Data) x => d.cntAdd x.1 x.2)
    (d.loaded c v (d.cycNow.base.getD (d.pmc.cnt, d.pmc.ovf, d.evt.latch.getLsbD 100))) := rfl

theorem loads_loaded (c v : Nat) (was : SMap Nat × BitVec 512 × Bool) : (d.loaded c v was).cycNow.loads = insNat c d.cycNow.loads :=
  congrArg Cyc.loads (if_pos d.cycNow_at : (d.loaded c v was).cycNow = _)

/-- A load in a cycle that has counted nothing sets its counter and nothing else. -/
theorem pmcRedo_of_no_adds (c v : Nat) (hbase : d.cycNow.base = none) (hadds : d.cycNow.adds = []) :
    (d.pmcRedo c v).pmc = { d.pmc with cnt := SMap.set 0 d.pmc.cnt c v } ∧ (d.pmcRedo c v).evt = d.evt := by
  rw [pmcRedo_eq, hbase, hadds, Option.getD_none, List.foldl_nil]
  refine ⟨rfl, ?_⟩
  simp only [loaded, modEvt_evt, modPmc_evt, modCyc_eq, Bool.and_self, setBit_getLsbD]

/-- The addition of the cycle comes on top of a load of its counter, and sets no overflow bit. -/
theorem pmcRedo_of_add (v : Nat) {was : SMap Nat × BitVec 512 × Bool} (hbase : d.cycNow.base = some was)
    (hadds : d.cycNow.adds = [(c, n)]) :
    SMap.get 0 (d.pmcRedo c v).pmc.cnt c = (v + n) % 2 ^ 48 ∧ (d.pmcRedo c v).pmc.ovf = was.2.1 := by
  have hload : (d.loaded c v was).cycNow.loads.contains c = true := by
    rw [loads_loaded, List.contains_eq_mem, decide_eq_true (mem_insNat c _)]
  have hcnt : SMap.get 0 (d.loaded c v was).pmc.cnt c = v := SMap.get_set_self ..
  rw [pmcRedo_eq, hbase, hadds, Option.getD_some, List.foldl_cons, List.foldl_nil,
    cntAdd_of_no_carry (by rw [hload, Pmc.passes_loaded, Bool.false_and]), cntOne_pmc, hload, Pmc.cnt_added_self,
    Pmc.ovf_added_of_not_passes (Pmc.passes_loaded _ _ _), hcnt]
  exact ⟨rfl, rfl⟩

/-- A happening of the even counter of a chained pair: its sum, 1 more in the odd counter where it wraps, and no overflow bit. -/
theorem tally_chained (hup : d.domUp 2 = true) (hle : n ≤ 64) (hcarries : d.pmc.carries c = true) (hc : c < 512)
    (hload : c ∉ d.cycNow.loads) (hcnt : SMap.get 0 d.pmc.cnt c < 2 ^ 48) :
    SMap.get 0 (d.tally c n).pmc.cnt c = (SMap.get 0 d.pmc.cnt c + n) % 2 ^ 48 ∧
    SMap.get 0 (d.tally c n).pmc.cnt (c + 1) = (if 2 ^ 48 ≤ SMap.get 0 d.pmc.cnt c + n then (SMap.get 0 d.pmc.cnt (c + 1) + 1) % 2 ^ 48
      else SMap.get 0 d.pmc.cnt (c + 1)) ∧
    (d.tally c n).pmc.ovf.getLsbD c = d.pmc.ovf.getLsbD c := by
  rcases Nat.eq_zero_or_pos n with rfl | hn
  · have hnone : d.tally c 0 = d := by rw [tally, Nat.zero_min, tallySum, if_pos (.inl rfl)]
    rw [hnone, Nat.add_zero, Nat.mod_eq_of_lt hcnt, if_neg (Nat.not_le.mpr hcnt)]
    exact ⟨rfl, rfl, rfl⟩
  · have heven : c % 2 = 0 := by
      rw [Pmc.carries, Bool.and_eq_true, decide_eq_true_eq] at hcarries
      exact hcarries.1
    have hkept : (d.cntKeep c n).pmc.carries c = true := hcarries
    rw [tally_adds hup hn hle fun hodd => absurd hodd (by omega), cnt_cntAdd_self, cnt_cntAdd_next hkept, ovf_cntAdd_self hc,
      passes_cntKeep hload, hkept, Bool.not_true, Bool.and_false, Bool.or_false]
    exact ⟨rfl, if_congr decide_eq_true_iff rfl rfl, rfl⟩

/-- A happening in a cycle that has counted nothing is recorded as its only addition. -/
theorem cycNow_tally_first (hup : d.domUp 2 = true) (hn : 0 < n) (hle : n ≤ 64) (hodd : c % 2 = 1 → d.pmc.chain.getLsbD (c / 2) = false)
    (hbase : d.cycNow.base = none) (hadds : d.cycNow.adds = []) : (d.tally c n).cycNow.adds = [(c, n)] ∧
    (d.tally c n).cycNow.base = some (d.pmc.cnt, d.pmc.ovf, d.evt.latch.getLsbD 100) := by
  obtain ⟨s, hcyc⟩ := (d.cntKeep c n).cntAdd_cycNow (c := c) (n := n)
  have hset : SMap.upd 0 ([] : SMap Nat) c (· + n) = [(c, n)] := by
    rw [SMap.upd, SMap.get_nil, Nat.zero_add, SMap.set, if_neg (by omega), SMap.ins]
  rw [tally_adds hup hn hle hodd, hcyc, cycNow_cntKeep, hbase, hadds]
  exact ⟨hset, rfl⟩

end Data

/-! ## What the registers of the counters do -/

/-- VAL of PMC_WVAL_HI as a write leaves it. -/
theorem Data.fld_regWrite_pmcWvalHi (d : Data) (v en : Word) : (d.regWrite Reg.pmcWvalHi v en).fld Reg.pmcWvalHi 0 16 =
    bits (((d.reg Reg.pmcWvalHi) &&& ~~~(en &&& 0xFFFF)) ||| (v &&& (en &&& 0xFFFF))).toNat 0 16 := by
  have hrow : ∃ row, regRow Reg.pmcWvalHi = some row ∧ (⟨0, 16, .wo⟩ : Fld) ∈ row.flds := by decide +kernel
  obtain ⟨row, hrow, hf⟩ := hrow
  have hlow (i : Nat) (hi : i < 16) : (0xFFFF : Word).getLsbD i = true := by
    rw [show (0xFFFF : Word) = (BitVec.allOnes 16).setWidth 32 from rfl, BitVec.getLsbD_setWidth, BitVec.getLsbD_allOnes]
    simp [hi, show i < 32 by omega]
  rw [Data.fld, d.reg_regWrite_self v en hrow]
  refine bits_congr fun i hi => ?_
  rw [accApply_fld (regRow_mem hrow) hf _ _ _ ⟨Nat.le_add_right 0 i, Nat.add_lt_add_left hi 0⟩, Nat.zero_add, Acc.written]
  have hi32 : i < 32 := by omega
  simp only [BitVec.getLsbD_or, BitVec.getLsbD_and, BitVec.getLsbD_not, hlow i hi, hi32, decide_true, Bool.and_true, Bool.true_and]
  cases en.getLsbD i <;> simp

/-- Settles O40: pending bits alone take a write of PMC_CHAINr and the tick edge puts them in force; a wrap of the even counter is
1 more in the odd one. -/
theorem chainedPairs : Obligations.ChainedPairs := by
  refine ⟨fun x r k v en hen hquiet => ?write, fun d hup => ?edge, fun d m n hup hchain => ⟨?odd, fun heven hodd hle hloads => ?sum⟩⟩
  case write =>
    rw [x.writeReg_quiet r _ v en 0 hen hquiet, x.writeAlone_pmcChain r v en k.isLt, Data.modPmc_pmc, Data.pmc_regWrite]
    exact ⟨rfl, rfl, fun i hi => DM.getLsbD_widePut _ _ _ _ hi⟩
  case edge =>
    obtain ⟨hcnt, -, -, hchain⟩ := Data.pmcEdge_counts hup
    refine ⟨hchain, fun hclr c => ?_⟩
    rw [hcnt, Data.edgeCnt, hclr, if_neg (by decide)]
  case odd =>
    have hpair : d.pmc.chain.getLsbD ((2 * m.val + 1) / 2) = true := by rwa [show (2 * m.val + 1) / 2 = m.val by omega]
    rw [Data.tally, Data.tallySum, if_pos (.inr ⟨by omega, hpair⟩)]
  case sum =>
    have hcarries : d.pmc.carries (2 * m.val) = true := by
      rw [Pmc.carries, Nat.mul_mod_right, Nat.mul_div_cancel_left _ (by decide), hchain, Bool.and_true, decide_eq_true rfl]
    obtain ⟨hlow, hhigh, hovf⟩ := Data.tally_chained hup hle hcarries (by omega) (by rw [hloads]; exact List.not_mem_nil) heven
    rw [hlow, hhigh]
    refine ⟨?_, by omega, by split <;> omega, hovf⟩
    split <;> omega

/-- Settles O41: a load in a quiet cycle sets its counter alone, one after an addition takes it on top, and a clear waits for the tick
edge. -/
theorem counterLoad : Obligations.CounterLoad := by
  refine ⟨fun x r v en c hen hquiet hbase hadds hc => ?load, fun d c n hup hn hle hc hbase hadds hchain => ?add,
    fun x r v en hv he hquiet => ?clear, fun d hup hclr => ?edge⟩
  case load =>
    rw [x.writeReg_quiet r _ v en 0 hen hquiet, x.writeAlone_pmcWvalHi r v en, Data.pmcLoad]
    have hsel : (x.d.regWrite Reg.pmcWvalHi v en).fld Reg.pmcWsel 0 9 = c :=
      (congrArg (fun w : Word => bits w.toNat 0 9) (x.d.reg_regWrite_other v en (by decide))).trans hc.symm
    obtain ⟨hpmc, hevt⟩ := Data.pmcRedo_of_no_adds (d := x.d.regWrite Reg.pmcWvalHi v en) c
      ((x.d.reg Reg.pmcWvalLo).toNat + (x.d.regWrite Reg.pmcWvalHi v en).fld Reg.pmcWvalHi 0 16 * 2 ^ 32)
      (by rw [Data.cycNow_regWrite, hbase]) (by rw [Data.cycNow_regWrite, hadds])
    rw [hsel, x.d.reg_regWrite_other v en (by decide)]
    dsimp only
    rw [hpmc, hevt, Data.pmc_regWrite, Data.evt_regWrite]
    refine ⟨rfl, rfl, ?_, fun k hk => SMap.get_set_other _ _ _ hk⟩
    rw [SMap.get_set_self, x.d.fld_regWrite_pmcWvalHi, Nat.mul_comm]
  case add =>
    obtain ⟨hone, hwas⟩ := Data.cycNow_tally_first hup hn hle (fun _ => hchain) hbase hadds
    have hreg (a : Nat) : (d.tally c n).reg a = d.reg a := by rw [Data.reg, Data.tally_regs, Data.reg]
    have hfld (a lo w : Nat) : (d.tally c n).fld a lo w = d.fld a lo w := by rw [Data.fld, hreg, Data.fld]
    rw [Data.pmcLoad, hfld, hfld, hreg, ← hc]
    exact Data.pmcRedo_of_add _ hwas hone
  case clear =>
    have hen : en ≠ 0 := fun h0 => by simp [h0] at he
    rw [x.writeReg_quiet r _ v en 0 hen hquiet, x.writeAlone_pmcCtl r v en, Data.modPmc_pmc, Data.pmc_regWrite]
    dsimp only
    rw [DM.hit, hv, he]
    exact ⟨Bool.or_true _, rfl⟩
  case edge =>
    obtain ⟨hcnt, hovf, hwaits, -⟩ := Data.pmcEdge_counts hup
    refine ⟨hwaits, by rw [hovf, hclr, if_pos rfl], fun c => ?_⟩
    rw [hcnt, Data.get_edgeCnt, hclr]
    by_cases h : c ∈ d.cycNow.loads <;> simp [h]

end Sys2Proof.Machine
end

section
/-!
PROOFS. The tick: what it samples and delivers (R315 to R320), and the commands of events and counters.
-/

namespace Sys2Proof.Machine

namespace Data

/-- The sources of an order of precedence are those that are set and have a severity. -/
theorem mem_evOrder {x : BitVec 1024} {s : Nat} : s ∈ evOrder x ↔ s < 1024 ∧ x.getLsbD s = true ∧ severity s ≤ 4 := by
  unfold evOrder
  split
  · next h => simp [h]
  · simp only [List.mem_flatMap, List.mem_range, List.mem_filter, beq_iff_eq]
    constructor
    · rintro ⟨v, hv, ⟨hs, hx⟩, rfl⟩
      exact ⟨hs, hx, by omega⟩
    · rintro ⟨hs, hx, hsev⟩
      exact ⟨severity s, by omega, ⟨hs, hx⟩, rfl⟩

/-- The deliveries that set a bit of EVT_PEND: to the management cores and to ALERT_N (R320). -/
def setsPend (d : Data) (s : Nat) : Bool := d.evCores s || d.evAlert s

/-- What the delivery of events and their counting leave alone: the number of the tick, the hold of EVT_FORCE, and the routes of the
sources; bits of EVT_PEND of the sources of a list join those that are set. -/
structure Delivers (l : List Nat) (d e : Data) : Prop where
  tick : e.evt.tick = d.evt.tick
  goUntil : e.evt.goUntil = d.evt.goUntil
  rig : e.rig = d.rig
  pend : ∀ s, e.evt.pend.getLsbD s = (d.evt.pend.getLsbD s || (decide (s ∈ l) && d.setsPend s))

theorem setsPend_congr {d e : Data} (h : e.rig = d.rig) (s : Nat) : e.setsPend s = d.setsPend s := by
  simp only [setsPend, evCores, evAlert, evEntry, h]

namespace Delivers

theorem refl (d : Data) : Delivers [] d d := ⟨rfl, rfl, rfl, fun s => by simp⟩

variable {l : List Nat} {d e : Data} (h : Delivers l d e)
include h

/-- Most of the device stands apart from what is delivered. -/
theorem congr {f : Data} (htick : f.evt.tick = e.evt.tick) (hgo : f.evt.goUntil = e.evt.goUntil) (hpend : f.evt.pend = e.evt.pend)
    (hrig : f.rig = e.rig) : Delivers l d f :=
  ⟨htick.trans h.tick, hgo.trans h.goUntil, hrig.trans h.rig, fun s => hpend ▸ h.pend s⟩

theorem ev {s : Nat} : Delivers l d (e.ev s) := h.congr rfl rfl rfl rfl

theorem tally {c n : Nat} : Delivers l d (e.tally c n) := by
  obtain ⟨m, rs, y, latch, p, ports, hrest⟩ := (KeepsOthers.refl 0 e).tally (c := c) (n := n) |>.rest
  rw [hrest]
  exact h.congr rfl rfl rfl rfl

theorem pmcEdge : Delivers l d e.pmcEdge := by
  obtain ⟨p, y, latch, hedge⟩ := e.pmcEdge_frame
  rw [hedge]
  exact h.congr rfl rfl rfl rfl

theorem domWake_ite {c : Prop} [Decidable c] {i : Fin 30} : Delivers l d (if c then e.domWake i else e) := by
  obtain ⟨p, hwake⟩ := e.domWake_frame i
  rw [hwake]
  split
  · exact h.congr rfl rfl rfl rfl
  · exact h

/-- A push joins the delivery list, where it may wake D2, or is lost and counted. -/
theorem evList_ite {c : Prop} [Decidable c] {q : Nat} {item : Dword} : Delivers l d (if c then e.evList q item else e) := by
  have hjoin : Delivers l d (e.modEvt fun x => { x with list := x.list.concat (q, item) }) := h.congr rfl rfl rfl rfl
  have hlost : Delivers l d ((e.fldCnt Reg.evtDlossCnt 0 32 1).raise Reg.evtStat 1) := h.congr rfl rfl rfl rfl
  have hpush : Delivers l d (e.evList q item) := by
    unfold Data.evList
    dsimp only
    generalize (if e.domUp 2 = true then 2048 else 64) = cap
    split
    · rw [← ite_not]
      exact hjoin.domWake_ite
    · exact hlost.tally.ev
  split
  · exact hpush
  · exact h

/-- A source that is delivered to the cores or to ALERT_N sets its bit, and another sets none. -/
theorem pend_ite {s : Nat} (hs : s < 1024) {a : Nat} {m : Word} :
    Delivers (l ++ [s]) d (if e.setsPend s then (e.modEvt fun x => { x with pend := setBit x.pend s true }).stamp a m else e) := by
  have hsets := setsPend_congr h.rig s
  have hjoin (b : Bool) (i : Nat) (hb : d.setsPend s = b) : (d.evt.pend.getLsbD i || (decide (i ∈ l ++ [s]) && d.setsPend i)) =
      (decide (i = s) && b || e.evt.pend.getLsbD i) := by
    rw [h.pend i]
    by_cases his : i = s
    · subst his
      rw [hb]
      cases b <;> simp
    · simp [his]
  rw [hsets]
  split
  · next hb =>
    refine ⟨h.tick, h.goUntil, h.rig, fun i => ?_⟩
    rw [hjoin true i hb, Bool.and_true, stamp_evt, modEvt_evt, setBit_true_get _ _ _ hs]
  · next hb =>
    refine ⟨h.tick, h.goUntil, h.rig, fun i => ?_⟩
    rw [hjoin false i (Bool.not_eq_true _ ▸ hb), Bool.and_false, Bool.false_or]

theorem evDeliver {s : Nat} (hs : s < 1024) : Delivers (l ++ [s]) d (e.evDeliver s) := by
  have hseen : Delivers l d (if severity s = 0 then e.modEvt fun x => { x with fatalSeen := true } else e) := by
    split
    · exact h.congr rfl rfl rfl rfl
    · exact h
  exact (hseen.pend_ite hs).domWake_ite.evList_ite.evList_ite

theorem foldl_evDeliver {m : List Nat} (hm : ∀ s ∈ m, s < 1024) :
    Delivers (l ++ m) d (m.foldl (fun (f : Data) s => f.evDeliver s) e) := by
  induction m generalizing l e with
  | nil => rwa [List.append_nil]
  | cons s m ih =>
    have hnext := ih (h.evDeliver (hm s List.mem_cons_self)) fun t ht => hm t (List.mem_cons_of_mem s ht)
    rwa [List.append_assoc] at hnext

end Delivers

/-- What a tick samples: the latches are clear, and the number of the tick has advanced. -/
def sampledAt (d : Data) : Data :=
  d.modEvt fun e => { e with latch := 0, goUntil := false, tick := e.tick + BitVec.ofNat 64 (if d.domUp 2 then 1 else 100) }

/-- A tick delivers the sources whose latch was set. -/
theorem eventTick_delivers {d : Data} (hboot : d.pwr.boot ≠ .off) : Delivers (evOrder d.evt.latch) d.sampledAt d.eventTick := by
  have hedge := (Delivers.refl d.sampledAt).pmcEdge
  have hcount : Delivers [] d.sampledAt (if d.sampledAt.pmcEdge.domUp 2 then d.sampledAt.pmcEdge.tally 0 else d.sampledAt.pmcEdge) := by
    split
    · exact hedge.tally
    · exact hedge
  unfold eventTick
  rw [if_neg hboot]
  exact (List.foldlRecOn (List.range 5) _ (motive := Delivers [] d.sampledAt) hcount fun e he v _ => he.tally).foldl_evDeliver
    fun s hs => (mem_evOrder.mp hs).1

end Data

/-- Settles O57: of the sampled sources, those delivered to the cores or to ALERT_N set their bits, and nothing clears one. -/
theorem tickSamplesTheEvents : Obligations.TickSamplesTheEvents := by
  intro d hboot
  obtain ⟨htick, hgo, -, hpend⟩ := Data.eventTick_delivers hboot
  have hnumber : d.sampledAt.evt.tick = d.evt.tick + if d.domUp 2 then 1 else 100 := by
    rw [Data.sampledAt, Data.modEvt_evt]
    cases d.domUp 2 <;> rfl
  refine ⟨htick.trans hnumber, hgo, fun s hs => ⟨fun hset => ?_, fun hnot => ?_, fun hset hsev => ?_⟩⟩
  · rw [hpend s, show d.sampledAt.evt.pend = d.evt.pend from rfl, hset, Bool.true_or]
  · have hout : s ∉ Data.evOrder d.evt.latch := fun hin => by
      obtain ⟨-, hset, -⟩ := Data.mem_evOrder.mp hin
      exact absurd (hset.symm.trans hnot) (by decide)
    rw [hpend s, decide_eq_false hout, Bool.false_and, Bool.or_false]
    rfl
  · rw [hpend s, decide_eq_true (Data.mem_evOrder.mpr ⟨hs, hset, hsev⟩), Bool.true_and, Bool.or_assoc]
    rfl

end Sys2Proof.Machine
end

section
/-!
PROOFS. The commands of the events and the counters (R313, R315, R319, R321, R327 to R330).
-/

namespace Sys2Proof.Machine

namespace Data

variable {d : Data}

/-- The counts of ports without credit leave the power state. -/
theorem creditTick_pwr (d : Data) : d.creditTick.pwr = d.pwr := by
  refine List.foldlRecOn allAgents _ (motive := fun e : Data => e.pwr = d.pwr) rfl fun e he p _ => ?_
  split
  · rw [pmcApt_eq, tally_pwr, he]
  · exact he

theorem evPush_of_up (hup : d.domUp 2 = true) : d.evPush = (d.evt.list.take 32).foldl (fun (d : Data) x => (d.qItem x.1 [x.2]).1)
    (d.modEvt fun e => { e with list := e.list.drop 32 }) := by
  rw [evPush, hup, if_neg (by decide)]

theorem snapshot_at_edge (hup : d.domUp 2 = true) (hsnap : d.pmc.snap = true) (hedge : d.pmc.edgeAt = some d.now) : d.snapshot =
    (({ d with pmc := { d.pmc with cnt := d.pmc.edge } } : Data).snapTake).modPmc fun p => { p with cnt := d.pmc.cnt } := by
  unfold snapshot
  rw [hsnap, hup, hedge, beq_self_eq_true]
  rfl

theorem snapExpiry_of_due (hup : d.domUp 2 = true) (hon : d.fld Reg.pmcCtl 16 16 ≠ 0)
    (hdue : d.pmc.lastSnap.toNat + d.fld Reg.pmcCtl 16 16 * 1024 ≤ d.evt.tick.toNat) :
    d.snapExpiry = d.modPmc fun p => { p with snap := true } := if_pos ⟨hon, hup, hdue⟩

end Data

/-- EVENT_TICK after power good. -/
theorem DM.tickAll_of_on {x : DM} (hboot : x.d.pwr.boot ≠ .off) : x.tickAll =
    ({ x with d := x.d.creditTick.eventTick } : DM).logTick x.d.creditTick.evt.latch x.d.creditTick.eventTick.evt.tick.toNat := by
  unfold DM.tickAll
  dsimp only
  rw [x.d.creditTick_pwr, if_neg hboot]

/-- Settles O16: a tick, a push, a snapshot and its period find their own conditions met, and each of the other commands is a write that
reaches its register. -/
theorem eventAndCounterCommandsComplete : Obligations.EventAndCounterCommandsComplete := by
  refine ⟨fun s hboot => ?tick, fun s hup => ⟨?push, fun hsnap hedge => ?snapshot, fun hon hdue => ?expiry⟩,
    fun s => ⟨fun hreach src => ?force, fun hreach => ⟨?snap, ?clear⟩, fun v => ⟨fun hreach => ?load, fun hreach => ?seed⟩⟩,
    fun p v s hreach => ?swev⟩
  case tick =>
    have htick := DM.tickAll_of_on (x := s.begun) hboot
    rw [State.begun_d] at htick
    exact exec_afterDM rfl htick
  case push => exact exec_after rfl (Data.evPush_of_up hup)
  case snapshot => exact exec_after rfl (Data.snapshot_at_edge hup hsnap hedge)
  case expiry => exact exec_after rfl (Data.snapExpiry_of_due hup hon hdue)
  case force => exact exec_afterDM_data rfl (State.trigger_data hreach (by decide) (DM.writeAlone_evtForce _ _ src) rfl)
  case snap =>
    refine exec_afterDM_data rfl (State.trigger_data hreach (by decide) (DM.writeAlone_pmcCtl _ _ 1 1) ?_)
    simp [DM.hit]
  case clear =>
    refine exec_afterDM_data rfl (State.trigger_data hreach (by decide) (DM.writeAlone_pmcCtl _ _ 2 2) ?_)
    simp [DM.hit]
  case load => exact exec_afterDM_data rfl (State.trigger_data hreach (by decide) (DM.writeAlone_pmcWvalHi _ _ v _) rfl)
  case seed => exact exec_afterDM_data rfl (State.trigger_data hreach (by decide) (DM.writeAlone_pmcSmpSeed _ _ v _) rfl)
  case swev => exact exec_afterDM_data rfl (State.trigger_data hreach (by decide) (DM.writeAlone_aptSwev _ _ p v) rfl)

end Sys2Proof.Machine
end

section
/-!
PROOFS. A step, its completion, and the test access port (R403): what every command leaves of the queue and the TAP.
-/

namespace Sys2Proof.Machine

/-! ## The test access port between edges of TCK -/

/-- A falling edge leaves IDCODE in Test-Logic-Reset, and drives TDO in the shift states alone. -/
theorem tapFall_kept (t : Tap) (e tms tdi : Bool) (v : BitVec 64) : (tapFall t e tms tdi v).kept := fun _ => by
  cases t with | mk st => cases st <;> simp [tapFall]

theorem tapReset_kept (t : Tap) : (tapReset t).kept := fun _ => by simp [tapReset]

/-- No change of level, no effect. -/
theorem tapEdge_same {t : Tap} {rise : Bool} (h : t.tck = rise) (d : Data) (tms tdi : Bool) : tapEdge d t rise tms tdi = (d, t) := if_pos h

/-- A rising edge moves the controller. -/
theorem tapEdge_rise {t : Tap} (h : t.tck = false) (d : Data) (tms tdi : Bool) : (tapEdge d t true tms tdi).2 =
    tapRise t d.pwr.scanEn d.fuses.maker tms tdi (Config.freeValue d.free) := by
  rw [tapEdge, if_neg (by simp [h])]
  rfl

/-- An edge may draw a free value, and changes nothing else of the device. -/
theorem tapEdge_free (d : Data) (t : Tap) (rise tms tdi : Bool) : ∃ n, (tapEdge d t rise tms tdi).1 = { d with free := n } := by
  unfold tapEdge
  split
  · exact ⟨d.free, rfl⟩
  · dsimp only
    split
    · exact ⟨d.free + 1, rfl⟩
    · exact ⟨d.free, rfl⟩

/-- With TCK high after it, an edge has nothing to keep; a falling edge leaves what is kept. -/
theorem tapEdge_kept {t : Tap} (h : t.kept) (d : Data) (rise tms tdi : Bool) : (tapEdge d t rise tms tdi).2.kept := by
  unfold tapEdge
  split
  · exact h
  · cases rise
    · exact tapFall_kept t d.pwr.scanEn tms tdi (Config.freeValue d.free)
    · exact fun hlow => by simp at hlow

/-- Settles O5: the controller is in Test-Logic-Reset with IDCODE, and TDO is not driven. -/
theorem tapKeptAtReset : Obligations.TapKeptAtReset := tapReset_kept {}

/-- Settles O7: a path of five edges from each of the sixteen states. -/
theorem fiveEdgesResetTheTap : Obligations.FiveEdgesResetTheTap := fun st => ⟨by cases st <;> rfl, rfl⟩

/-- Settles O4: an edge by its level, TRST_N by its definition. -/
theorem testPortCommandsTouchTheTapAlone : Obligations.TestPortCommandsTouchTheTapAlone := by
  refine ⟨fun rise tms tdi s => ⟨rfl, tapEdge_free _ _ _ _ _, fun hsame => tapEdge_same hsame _ _ _, fun hlow hrise => ?_⟩, fun s => rfl⟩
  subst hrise
  rw [tapEdge_rise hlow, tapRise_st, tapRise_ir]
  exact ⟨rfl, rfl⟩

/-- Every command answers a next state, with the same commands waiting, and keeps what the TAP keeps. -/
theorem exec_kept {c : Instr} {s t : State} (h : s.tap.kept) (hexec : exec c s = .next t) : t.tap.kept := by
  rcases exec_shape c s with ⟨f, he⟩ | ⟨f, he⟩ | ⟨rise, tms, tdi, -, he⟩ | ⟨-, he⟩ <;>
    obtain rfl := Host.Outcome.next.inj (he.symm.trans hexec)
  · rw [State.onData_tap]; exact h
  · rw [State.onDM_tap]; exact h
  · exact tapEdge_kept h s.d rise tms tdi
  · exact tapReset_kept s.tap

/-- Settles O6: a cycle keeps the TAP, and each command keeps what it keeps. -/
theorem everyStepKeepsTheTap : Obligations.EveryStepKeepsTheTap := by
  intro s t h hstep
  cases hq : s.pending with
  | nil =>
    obtain rfl := Host.Outcome.next.inj ((step_nil s hq).symm.trans hstep)
    rw [State.idle, State.onData_tap]
    exact h
  | cons c rest => exact exec_kept (s := { s with pending := rest }) h ((step_cons s c rest hq).symm.trans hstep)

/-- Settles O3: a command works on the device, or on the device and the cluster, or it is one of the two of the TAP. -/
theorem everyCommandCompletes : Obligations.EveryCommandCompletes := by
  intro c s
  rcases exec_shape c s with ⟨f, he⟩ | ⟨f, he⟩ | ⟨rise, tms, tdi, rfl, he⟩ | ⟨rfl, he⟩
  · exact ⟨_, he, s.onData_pending f, fun _ _ => s.onData_tap f⟩
  · exact ⟨_, he, s.onDM_pending f, fun _ _ => s.onDM_tap f⟩
  · exact ⟨_, he, rfl, fun hne => absurd rfl (hne rise tms tdi)⟩
  · exact ⟨_, he, rfl, fun _ hne => absurd rfl hne⟩

/-! ## A step -/

/-- Settles O1: the command at the front of the queue is executed with the rest waiting. -/
theorem stepTakesTheFrontCommand : Obligations.StepTakesTheFrontCommand := fun c rest s => step_cons s c rest

namespace Data

/-- Bringing the clock of a count of idle scrub cycles forward leaves the clock. -/
theorem scrubIdle_now (d : Data) : d.scrubIdle.now = d.now := by
  unfold scrubIdle
  split <;> rfl

/-- A cycle of a slice counts in its counters alone. -/
theorem cycleSlice_now (d : Data) (n : SliceId) : (d.cycleSlice n).now = d.now := by
  unfold cycleSlice
  split
  · simp only [pmcSlc_eq, tally_now]
  · rfl

theorem cycle_now (d : Data) : d.cycle.now = d.now + 1 := by
  unfold cycle
  dsimp only
  split
  · rfl
  · have hslices : (List.foldl (fun (d : Data) n => d.cycleSlice n) ({ d with now := d.now + 1 } : Data).scrubIdle
        ({ d with now := d.now + 1 } : Data).scrubIdle.activeSlices).now = d.now + 1 :=
      List.foldlRecOn _ _ (motive := fun e : Data => e.now = d.now + 1) (scrubIdle_now _) fun e he n _ => (cycleSlice_now e n).trans he
    rw [when]
    split
    · rw [tally_now, hslices]
    · exact hslices

end Data

/-- Settles O2: a cycle advances the clock by one, and no command comes to wait. -/
theorem emptyQueuePassesACycle : Obligations.EmptyQueuePassesACycle := fun s hq =>
  ⟨step_nil s hq, s.d.cycle_now, by rw [State.after_pending, hq]⟩

end Sys2Proof.Machine
end

section
/-!
PROOFS. The flash (R367, R372): what a copy of a block leaves in each byte.
-/

namespace Sys2Proof.Machine

variable {β : Type}

/-- A map that does not list a key reads as its default there. -/
theorem SMap.get_of_unlisted {d : β} {m : SMap β} {k : Nat} (h : ∀ x ∈ m, x.1 ≠ k) : SMap.get d m k = d := by
  induction m with
  | nil => rfl
  | cons x m ih =>
    rw [SMap.get, if_neg (h x List.mem_cons_self)]
    exact ih fun y hy => h y (List.mem_cons_of_mem x hy)

theorem SMap.get_append_of_unlisted {d : β} {l : SMap β} (m : SMap β) {k : Nat} (h : ∀ x ∈ l, x.1 ≠ k) :
    SMap.get d (l ++ m) k = SMap.get d m k := by
  induction l with
  | nil => rfl
  | cons x l ih =>
    rw [List.cons_append, SMap.get, if_neg (h x List.mem_cons_self)]
    exact ih fun y hy => h y (List.mem_cons_of_mem x hy)

theorem SMap.get_append_unlisted {d : β} (l : SMap β) {m : SMap β} {k : Nat} (h : ∀ x ∈ m, x.1 ≠ k) :
    SMap.get d (l ++ m) k = SMap.get d l k := by
  induction l with
  | nil => exact SMap.get_of_unlisted h
  | cons x l ih => rw [List.cons_append, SMap.get, SMap.get, ih]

/-- Moved keys read as they read before, where no other listed key falls on the one that is read. -/
theorem SMap.get_map_keys {d : β} {m : SMap β} {k : Nat} (f : Nat → Nat) (h : ∀ x ∈ m, f x.1 = f k → x.1 = k) :
    SMap.get d (m.map fun x => (f x.1, x.2)) (f k) = SMap.get d m k := by
  induction m with
  | nil => rfl
  | cons x m ih =>
    have htail := ih fun y hy => h y (List.mem_cons_of_mem x hy)
    rw [List.map_cons, SMap.get, SMap.get, htail]
    by_cases hk : x.1 = k
    · rw [if_pos hk, if_pos (congrArg f hk)]
    · rw [if_neg hk, if_neg fun he => hk (h x List.mem_cons_self he)]

/-- A byte of the target block of a copy is that of the source block, and every other byte stands. -/
theorem flashGet_copy (f : List Host.Cell) (src dst b a : Nat) : flashGet (flashCopy f src dst b) a =
    if dst + b * flBlock ≤ a ∧ a < dst + b * flBlock + flBlock then flashGet f (a - (dst + b * flBlock) + (src + b * flBlock))
    else flashGet f a := by
  unfold flashCopy flashGet
  dsimp only
  generalize src + b * flBlock = lo
  generalize dst + b * flBlock = dest
  have hbelow {m : List Host.Cell} (ha : dest ≤ a) : ∀ x ∈ m.filter fun c => decide (c.1 < dest), x.1 ≠ a := fun x hx => by
    have := of_decide_eq_true (List.mem_filter.mp hx).2
    omega
  have habove {m : List Host.Cell} (ha : a < dest + flBlock) : ∀ x ∈ m.filter fun c => decide (dest + flBlock ≤ c.1), x.1 ≠ a := fun x hx => by
    have := of_decide_eq_true (List.mem_filter.mp hx).2
    omega
  have hin : ∀ x ∈ (f.filter fun c => decide (lo ≤ c.1 ∧ c.1 < lo + flBlock)).map (fun c => (c.1 - lo + dest, c.2)),
      dest ≤ x.1 ∧ x.1 < dest + flBlock := fun x hx => by
    obtain ⟨y, hy, rfl⟩ := List.mem_map.mp hx
    have := of_decide_eq_true (List.mem_filter.mp hy).2
    dsimp only
    omega
  split
  · next ha =>
    rw [SMap.get_append_unlisted _ (habove ha.2), SMap.get_append_of_unlisted _ (hbelow ha.1)]
    have hmove := SMap.get_map_keys (d := (0xFF : Byte)) (m := f.filter fun c => decide (lo ≤ c.1 ∧ c.1 < lo + flBlock))
      (k := a - dest + lo) (fun k => k - lo + dest) fun x hx he => by
        have := of_decide_eq_true (List.mem_filter.mp hx).2
        omega
    rw [show a - dest + lo - lo + dest = a by omega] at hmove
    rw [hmove, SMap.get_filter _ _ (fun k => decide (lo ≤ k ∧ k < lo + flBlock)), if_pos (by rw [decide_eq_true_eq]; omega)]
  · next ha =>
    by_cases hlt : a < dest
    · rw [SMap.get_append_unlisted _ (habove (by omega)), SMap.get_append_unlisted _ fun x hx => by have := hin x hx; omega,
        SMap.get_filter _ _ (fun k => decide (k < dest)), if_pos (decide_eq_true hlt)]
    · rw [List.append_assoc, SMap.get_append_of_unlisted _ (hbelow (by omega)), SMap.get_append_of_unlisted _ fun x hx => by have := hin x hx; omega,
        SMap.get_filter _ _ (fun k => decide (dest + flBlock ≤ k)), if_pos (by rw [decide_eq_true_eq]; omega)]

/-- Settles O52: what a byte reads as after each operation, and that each keeps the canonical form. -/
theorem flashProgramming : Obligations.FlashProgramming := by
  refine fun f h => ⟨fun o l a => ⟨flashProg_wf h o l, flashGet_prog f o l a⟩, fun o n a => ⟨flashErase_wf h o n, flashGet_erase f o n a⟩,
    fun src dst b i hi => ⟨flashCopy_wf h src dst b, ?_, fun a ha => ?_⟩⟩
  · rw [flashGet_copy, if_pos (by omega), Nat.add_sub_cancel_left, Nat.add_comm i]
  · rw [flashGet_copy, if_neg (by omega)]

end Sys2Proof.Machine
end

section
/-!
PROOFS. The flash stays in its canonical form (R367 to R377): every operation of the management cluster goes through programming,
erasing and copying, which keep it.
-/

namespace Sys2Proof.Machine

/-- The flash is in its canonical form. -/
@[irreducible] def Mgmt.FlashWf (m : Mgmt) : Prop := SMap.wf (0xFF : Byte) m.flash

theorem Mgmt.flashWf_iff {m : Mgmt} : m.FlashWf ↔ SMap.wf (0xFF : Byte) m.flash := by
  unfold Mgmt.FlashWf
  exact Iff.rfl

/-! ## The flash, the settings, the log, the records and the copies -/

namespace Mgmt.FlashWf

variable {m : Mgmt} (h : m.FlashWf)

theorem fst {α : Type} {a : α} (h : m.FlashWf) : (m, a).1.FlashWf := h

theorem ite {c : Prop} [Decidable c] {n k : Mgmt} (hn : n.FlashWf) (hk : k.FlashWf) : (if c then n else k).FlashWf := by
  split <;> assumption

include h

/-- The flash alone counts. -/
theorem congr {n : Mgmt} (hn : n.flash = m.flash) : n.FlashWf := by
  rw [Mgmt.flashWf_iff] at h ⊢
  rwa [hn]

theorem flashOp {f : List Host.Cell → List Host.Cell} (hf : ∀ l, SMap.wf (0xFF : Byte) l → SMap.wf (0xFF : Byte) (f l)) (o n : Nat) :
    (m.flashOp o n f).FlashWf := by
  unfold Mgmt.flashOp
  split
  · exact Mgmt.flashWf_iff.mpr (hf _ (Mgmt.flashWf_iff.mp h))
  · exact h.congr rfl

theorem prog (o : Nat) (l : List Byte) : (m.prog o l).FlashWf := h.flashOp (fun _ hl => flashProg_wf hl o l) _ _
theorem erase (o n : Nat) : (m.erase o n).FlashWf := h.flashOp (fun _ hl => flashErase_wf hl o n) _ _

theorem setStore (s : Bool) (gen : Nat) (b : List Byte) : (m.setStore s gen b).FlashWf :=
  ((h.erase _ _).prog _ _).congr rfl
theorem setWrites (vs : List (Nat × List Byte)) : (m.setWrites vs).FlashWf := h.setStore _ _ _
theorem setWrite (t : Nat) (v : List Byte) : (m.setWrite t v).FlashWf := h.setWrites _

theorem setStart : m.setStart.1.FlashWf := by
  unfold Mgmt.setStart
  dsimp only
  split
  · exact fst (h.congr rfl)
  · split
    · split
      · exact fst ((h.setStore _ _ _).congr rfl)
      · exact fst (h.congr rfl)
    · exact fst (h.congr rfl)

theorem logAdd (e : Dword) : (m.logAdd e).FlashWf := by
  unfold Mgmt.logAdd
  extract_lets p full y len
  have hy : y.FlashWf := ite (h.erase _ _) h
  exact (hy.prog _ _).congr rfl

theorem recWrite (g : ActRec → ActRec) : (m.recWrite g).FlashWf := by
  unfold Mgmt.recWrite
  extract_lets r i j y
  have hy : y.FlashWf := ite h (h.erase _ _)
  exact (hy.prog _ _).congr rfl

theorem copyRun (src dst start : Nat) : (m.copyRun src dst start).1.FlashWf := by
  refine List.foldlRecOn _ _ (motive := fun x : Mgmt × Bool => x.1.FlashWf) h fun x hx i _ => ?_
  have hcopy := hx.flashOp (fun l hl => flashCopy_wf hl src dst (start + i)) (dst + (start + i) * flBlock) flBlock
  dsimp only
  split
  · exact hx
  · split
    · exact hcopy
    · exact ite (hcopy.recWrite _) hcopy

omit h in
theorem copyEnd {x : Mgmt × Bool} (hx : x.1.FlashWf) (g : ActRec → ActRec) : (Mgmt.copyEnd x g).1.FlashWf := hx.recWrite g

theorem copyActive (g : ActRec → ActRec) : (m.copyActive g).1.FlashWf := ((h.recWrite _).copyRun _ _ _).recWrite _

/-- The boot ROM copies images and ends the copies with records. -/
theorem bootCopies (fu : Fuses) : (m.bootCopies fu).1.FlashWf := by
  unfold Mgmt.bootCopies
  extract_lets r ok
  split
  · have hrun := h.copyRun flActive flBackup r.blk
    generalize m.copyRun flActive flBackup r.blk = x at hrun ⊢
    obtain ⟨n, whole⟩ := x
    dsimp only at hrun ⊢
    split
    · exact hrun.copyActive _
    · exact fst (hrun.recWrite _)
  split
  · exact copyEnd (h.copyRun _ _ _) _
  split
  · exact copyEnd (h.copyRun _ _ _) _
  split
  · split
    · exact fst (h.recWrite _)
    split
    · have hrun := (h.recWrite fun r => { r with copy := 1, blk := 0 }).copyRun flActive flBackup 0
      generalize (m.recWrite fun r => { r with copy := 1, blk := 0 }).copyRun flActive flBackup 0 = x at hrun ⊢
      exact hrun.copyActive _
    · exact h.copyActive _
  split
  · exact h.copyActive _
  · exact h

theorem bootTrial (fu : Fuses) : (m.bootTrial fu).1.FlashWf := by
  unfold Mgmt.bootTrial
  split
  · exact h
  split
  · split
    · have hrun := copyEnd ((h.recWrite fun r => { r with copy := 3, blk := 0 }).copyRun flBackup flActive 0) Mgmt.rolledRec
      generalize Mgmt.copyEnd ((m.recWrite fun r => { r with copy := 3, blk := 0 }).copyRun flBackup flActive 0) Mgmt.rolledRec = x at hrun ⊢
      exact hrun
    · exact fst ((h.erase _ _).recWrite _)
  · exact fst (h.recWrite _)

theorem bootRom (fu : Fuses) : (m.bootRom fu).1.FlashWf := by
  have hcopies := (h.congr (n := { m with act := actNewest m.flash }) rfl).bootCopies fu
  unfold Mgmt.bootRom
  extract_lets n back
  split
  next k whole hk =>
  rw [show n.bootCopies fu = _ from hk] at hcopies
  split
  next l rolled whole2 hl =>
  have htrial := hcopies.bootTrial fu
  rw [hl] at htrial
  extract_lets evs y z
  split
  · exact (ite (htrial.recWrite _) htrial).congr rfl
  · exact (ite htrial (htrial.recWrite _)).congr rfl

theorem stopped : m.stopped.FlashWf := h.congr rfl

theorem modChain (down : Bool) (f : ChainPort → ChainPort) : (m.modChain down f).FlashWf := ite (h.congr rfl) (h.congr rfl)

theorem chainPump (down : Bool) : (m.chainPump down).FlashWf := (h.modChain _ _).congr rfl

end Mgmt.FlashWf

/-- The flash of the cluster is in its canonical form, whatever the device is. -/
@[irreducible] def DM.FlashWf (x : DM) : Prop := x.m.FlashWf

theorem DM.flashWf_iff {x : DM} : x.FlashWf ↔ x.m.FlashWf := by
  unfold DM.FlashWf
  exact Iff.rfl

namespace DM.FlashWf

variable {x : DM}

theorem mk {m : Mgmt} (h : m.FlashWf) (d : Data) : DM.FlashWf ⟨d, m⟩ := DM.flashWf_iff.mpr h

theorem ite {c : Prop} [Decidable c] {y z : DM} (hy : y.FlashWf) (hz : z.FlashWf) : (if c then y else z).FlashWf := by
  split <;> assumption

/-- Steps that keep the form keep it together. -/
theorem foldl {α : Type} {f : DM → α → DM} (hf : ∀ {y : DM}, y.FlashWf → ∀ a, (f y a).FlashWf) (l : List α) (h : x.FlashWf) :
    (l.foldl f x).FlashWf := List.foldlRecOn l f (motive := DM.FlashWf) h fun _ hy a _ => hf hy a

variable (h : x.FlashWf)
include h

theorem mgmt : x.m.FlashWf := DM.flashWf_iff.mp h

/-- The device does not count. -/
theorem data (d : Data) : DM.FlashWf ⟨d, x.m⟩ := mk h.mgmt d

/-- Of the cluster, the flash alone counts. -/
theorem congr {n : Mgmt} (d : Data) (hn : n.flash = x.m.flash) : DM.FlashWf ⟨d, n⟩ := mk (h.mgmt.congr hn) d

theorem modD (f : Data → Data) : (x.modD f).FlashWf := h.data _

omit h in
theorem modM {f : Mgmt → Mgmt} (hf : (f x.m).FlashWf) : (x.modM f).FlashWf := mk hf _

theorem modM_flash {f : Mgmt → Mgmt} (hf : ∀ m, (f m).flash = m.flash := by exact fun _ => rfl) : (x.modM f).FlashWf := h.congr _ (hf _)

/-! ## Starts and resets -/

theorem mgtEvents (l : List Nat) : (x.mgtEvents l).FlashWf := h.data _

/-- What Hormal does as it starts: a record of an interrupted verification, and the settings. -/
theorem mgtStart : x.mgtStart.FlashWf := by
  have hrom := h.mgmt.stopped.bootRom x.d.fuses
  unfold DM.mgtStart
  split
  next m img evs hm =>
  rw [hm] at hrom
  split
  · exact (mk hrom _).mgtEvents _
  · split
    next v d _ =>
    extract_lets head n again bad k y
    have hn : n.FlashWf := hrom.congr rfl
    have hk : k.FlashWf := hn.recWrite _
    have hy : y.FlashWf := .ite (hk.congr rfl) hn
    have hstart := hy.setStart
    split
    next z mig invalid hz =>
    rw [hz] at hstart
    exact (mk hstart _).mgtEvents _

theorem confirm : x.confirm.FlashWf := by
  unfold DM.confirm
  extract_lets m fu
  have hm : m.FlashWf := h.mgmt.recWrite _
  exact (mk hm x.d).congr _ rfl

theorem crystalFail : x.crystalFail.FlashWf := ite h (mk h.mgmt.stopped _)
theorem stepFail (k : Nat) : (x.stepFail k).FlashWf := h.data _
theorem startHeld (k : Nat) : (x.startHeld k).FlashWf := (h.data _).stepFail k

theorem startTail (e : StartEnv) : (x.startTail e).FlashWf := by
  unfold DM.startTail
  extract_lets restored doms ports failed y z seeded paired started w
  have hz : z.FlashWf := ite ((h.data _).stepFail 4) (h.data _)
  exact ite ((hz.data _).stepFail 7) (hz.data _)

theorem startRest (e : StartEnv) : (x.startRest e).FlashWf := by
  unfold DM.startRest
  exact ite (h.data _) (ite ((h.data _).startHeld 3) (ite ((h.data _).startHeld 4) ((h.data _).startTail e)))

theorem startUp (e : StartEnv) : (x.startUp e).FlashWf := ((h.data _).mgtStart).startRest e

theorem coldStart (e : StartEnv) (cause : BitVec 3) : (x.coldStart e cause).FlashWf := by
  unfold DM.coldStart
  exact ite ((h.data _).startUp e) ((h.data _).crystalFail.stepFail 1)

theorem powerGood (e : StartEnv) : (x.powerGood e).FlashWf := ite (h.coldStart e 0) h

theorem coldMgmt (d : Data) : DM.FlashWf ⟨d, DM.coldMgmt x.m⟩ := h.congr d rfl

theorem doneRestart (e : StartEnv) : (x.doneRestart e).FlashWf := by
  unfold DM.doneRestart
  split
  · exact ite ((h.coldMgmt _).coldStart e 1) h
  · exact h

theorem warmEffect (e : StartEnv) : (x.warmEffect e).FlashWf := by
  unfold DM.warmEffect
  split
  · exact h
  · extract_lets due d
    exact ite h ((mk (h.mgmt.stopped.congr rfl) d).startUp e)

theorem mgtReset : x.mgtReset.FlashWf := (h.data _).mgtStart.mgtEvents _
theorem mgtRestart (cause : BitVec 3) : (x.mgtRestart cause).FlashWf := (h.data _).mgtReset
theorem watchdog : x.watchdog.FlashWf := ite ((h.data _).mgtRestart 4) h

theorem domRefuse : x.domRefuse.FlashWf := h.data _

theorem domUnreef (i : Nat) : (x.domUnreef i).FlashWf := by
  unfold DM.domUnreef
  split
  · exact ite (h.data _) h.domRefuse
  · exact h.domRefuse

theorem domReefOp (i : Nat) : (x.domReefOp i).FlashWf := by
  unfold DM.domReefOp
  split
  · exact ite (h.data _) h.domRefuse
  · exact h.domRefuse

theorem domResetOp (i : Nat) : (x.domResetOp i).FlashWf := by
  unfold DM.domResetOp
  split
  · exact ite h.domRefuse (ite ((h.data _).mgtRestart _) (h.data _))
  · exact h.domRefuse

theorem onDom (i : BitVec 5) {f : DM → Fin 30 → DM} (hf : ∀ i, (f x i).FlashWf) : (x.onDom i f).FlashWf := by
  unfold DM.onDom
  split
  · exact hf _
  · exact h

/-! ## The chain -/

theorem chainSend (down : Bool) (f : List Byte) : (x.chainSend down f).FlashWf := by
  unfold DM.chainSend
  exact ite (mk ((h.mgmt.modChain _ _).chainPump _) _) (h.data _)

theorem hopSend (down : Bool) (ty : Byte) (p : List Byte) : (x.hopSend down ty p).FlashWf := h.chainSend _ _
/-- The address of the unit does not count. -/
theorem addr (a : Option (BitVec 6)) : DM.FlashWf ⟨x.d, { x.m with addr := a }⟩ := h.congr _ rfl

theorem enumHead : x.enumHead.FlashWf := (h.addr _).hopSend _ _ _
theorem halEnum : x.halEnum.FlashWf := ite h.enumHead h

theorem enumDown : x.enumDown.FlashWf := by
  refine ite h.enumHead ?_
  split
  · exact h.hopSend _ _ _
  · exact h

theorem enumRecv (c : Nat) : (x.enumRecv c).FlashWf := by
  unfold DM.enumRecv
  extract_lets m y a
  have hy : y.FlashWf := h.addr _
  exact ite (ite (hy.hopSend _ _ _) (hy.chainSend _ _)) (ite (h.congr _ rfl) h)

theorem enumDoneRecv (a : Nat) : (x.enumDoneRecv a).FlashWf := ite (h.congr _ rfl) h

theorem offerTo (down : Bool) : (x.offerTo down).FlashWf := by
  unfold DM.offerTo
  exact ite ((h.hopSend _ _ _).data _) h

theorem offerAll : x.offerAll.FlashWf := (h.offerTo false).offerTo true

/-! ## Register accesses -/

theorem readReg (r : Requester) (a : Nat) (u : BitVec 67) : (x.readReg r a u).1.FlashWf := by
  unfold DM.readReg
  split
  · exact h.data _
  · exact h.data _

theorem readPart (r : Requester) (a : Nat) (u : BitVec 67) : (x.readPart r a u).1.FlashWf := by
  unfold DM.readPart
  split
  · exact h.data _
  · exact h.readReg r a u

theorem writePwr (a : Nat) (v en : Word) : (x.writePwr a v en).FlashWf := by
  unfold DM.writePwr
  exact ite (ite (ite (h.domUnreef _) (ite (h.domReefOp _) (ite (h.domResetOp _) h.domRefuse))) h)
    (ite (ite (h.data _) h) (ite (h.data _) h))

theorem writeMgt (a : Nat) (v en : Word) : (x.writeMgt a v en).FlashWf := by
  unfold DM.writeMgt
  exact ite (ite (mk (h.mgmt.recWrite _) _) h) (ite (h.congr _ rfl) (ite (ite h.halEnum h) h))

/-- Of the registers, those of the power manager and of the management cluster alone do something outside the device. -/
theorem writeAlone (r : Requester) (a : Nat) (v en : Word) (u : BitVec 67) : (x.writeAlone r a v en u).FlashWf := by
  unfold DM.writeAlone
  extract_lets old y
  have hy : y.FlashWf := h.data _
  exact ite (h.data _) (ite (h.data _) (ite (hy.data _) (ite (hy.writePwr a v en) (ite (hy.data _) (ite (hy.data _)
    (ite (hy.writeMgt a v en) (ite (hy.data _) (ite hy (ite (hy.data _) (ite (hy.data _) (ite (hy.data _) (ite (hy.data _)
      (ite (hy.data _) (hy.data _))))))))))))))

theorem writeReg (r : Requester) (a : Nat) (v en : Word) (u : BitVec 67) : (x.writeReg r a v en u).FlashWf := by
  unfold DM.writeReg
  exact ite h ((h.writeAlone r a v _ u).data _)

theorem writePart (r : Requester) (a : Nat) (v en : Word) (u : BitVec 67) : (x.writePart r a v en u).FlashWf :=
  ite (h.data _) (h.writeReg r a v en u)

theorem writeNow (r : Requester) (a w be : Nat) (v : Dword) : (x.writeNow r a w be v).FlashWf := by
  unfold DM.writeNow
  exact ite ((h.writePart ..).writePart ..) (h.writePart ..)

theorem postedRun (r : Requester) : (x.postedRun r).FlashWf := by
  unfold DM.postedRun
  split
  · exact h
  · exact (h.data _).writeNow ..

theorem postedAll (r : Requester) : (x.postedAll r).FlashWf := h.foldl (fun hy _ => hy.postedRun r) _

theorem postedTimeout (r : Requester) : (x.postedTimeout r).FlashWf := by
  unfold DM.postedTimeout
  split
  · exact h
  · exact ite (h.data _) h

omit h in
theorem readKeep {y : DM × Dword} (hy : y.1.FlashWf) (r : Requester) : (DM.readKeep y r).1.FlashWf := hy.data _

theorem farLost (r : Requester) (l : FarAcc) : (x.farLost r l).FlashWf := by
  unfold DM.farLost
  split
  · exact h
  · extract_lets y z w
    have hz : z.FlashWf := (h.postedAll r).data _
    have hw : w.FlashWf := ite hz (readKeep hz r)
    split
    · exact hw.data _
    · exact hw

/-- A far access follows the requester's posted writes. -/
theorem nearOr (r : Requester) {c : Prop} [Decidable c] : (if c then x else x.postedAll r).FlashWf := ite h (h.postedAll r)

theorem fabricRead (r : Requester) (a w : Nat) (u : BitVec 67) : (x.fabricRead r a w u).1.FlashWf := by
  unfold DM.fabricRead
  extract_lets y
  have hy : y.FlashWf := h.nearOr r
  split
  · exact (hy.readPart r a u).readPart r (a + 4) 0
  · split
    · exact hy.readPart r a u
    · split
      · exact hy.data _
      · exact hy

theorem fabricWrite (r : Requester) (a : Nat) (width : AccWidth) (be : Byte) (v : Dword) : (x.fabricWrite r a width be v).FlashWf := by
  unfold DM.fabricWrite
  refine ite (h.writeNow ..) ?_
  extract_lets z y
  have hy : y.FlashWf := ite h ((h.postedAll r).data _)
  exact ite (hy.data _) (hy.data _)

theorem trigger (a : Nat) (v en : Word) (u : BitVec 67) : (x.trigger a v en u).FlashWf := ite ((h.nearOr 16).writePart ..) h

theorem mgtRead (a : Nat) (width : AccWidth) (u : BitVec 67) : (x.mgtRead a width u).1.FlashWf := by
  unfold DM.mgtRead
  split
  · exact h
  · split
    · exact readKeep (h.data _) 16
    · exact readKeep (h.fabricRead ..) 16

theorem mgtWrite (a : Nat) (width : AccWidth) (be : Byte) (v : Dword) : (x.mgtWrite a width be v).FlashWf := by
  unfold DM.mgtWrite
  refine ite h ?_
  split
  · exact h.data _
  · exact h.fabricWrite ..

theorem agentRead (p : Agent) (a : Nat) (w64 ok : Bool) : (x.agentRead p a w64 ok).1.FlashWf := by
  unfold DM.agentRead
  extract_lets r w y
  have hy : y.FlashWf := h.data _
  split
  · exact readKeep (hy.data _) r
  · split
    · exact readKeep (hy.data _) r
    · exact readKeep (hy.fabricRead ..) r

theorem agentWrite (p : Agent) (a : Nat) (w64 : Bool) (be : Byte) (v : Dword) (ok : Bool) : (x.agentWrite p a w64 be v ok).1.FlashWf := by
  unfold DM.agentWrite
  extract_lets r width y
  have hy : y.FlashWf := h.data _
  split
  · exact hy.data _
  · split
    · exact hy.data _
    · exact hy.fabricWrite ..

theorem accWrite (r : Requester) (a : Nat) (width : AccWidth) (be : Byte) (v : Dword) : (x.accWrite r a width be v).FlashWf := by
  unfold DM.accWrite
  split
  · exact h.mgtWrite ..
  · exact ite h (ite (h.agentWrite ..) (h.data _))

theorem accRead (r : Requester) (a : Nat) (width : AccWidth) : (x.accRead r a width).FlashWf := by
  unfold DM.accRead
  split
  · exact h.mgtRead ..
  · exact ite h (ite (h.agentRead ..) (h.data _))

theorem mbxFill (m : Fin 8) : (x.mbxFill m).FlashWf := by
  unfold DM.mbxFill
  extract_lets b
  exact ite h (h.data _)

/-! ## MGQ items -/

theorem mgqDo (p : Agent) (i : MgqItem) : (x.mgqDo p i).1.FlashWf := by
  cases i
  case regRd => exact h.agentRead ..
  case regWr => exact h.agentWrite ..
  case push => exact h.data _
  case pop => exact h.data _
  case acc => exact ite (h.agentWrite ..) (h.agentRead ..)

theorem mgqStep (p : Agent) : (x.mgqStep p).FlashWf := by
  unfold DM.mgqStep
  split
  · exact h
  next i cred rest _ =>
  extract_lets dom d d'
  refine ite h (ite (h.data _) (ite (h.data _) ?_))
  have hdo := (h.data d').mgqDo p i
  split
  next y ans hy =>
  rw [hy] at hdo
  split
  · exact hdo.data _
  · exact hdo

theorem mgqRun (p : Agent) : (x.mgqRun p).FlashWf := h.foldl (fun hy _ => hy.mgqStep p) _
theorem mgqSettle : x.mgqSettle.FlashWf := h.foldl (fun hy p => hy.mgqRun p) _

/-! ## Messages -/

theorem tmpSend (src : TmpSrc) (b : List Byte) : (x.tmpSend src b).FlashWf := by
  cases src
  case host => exact h.congr _ rfl
  case chainUp => exact h.chainSend _ _
  case chainDown => exact h.chainSend _ _

theorem tmpOut (src : TmpSrc) (k : Fin 4) (unit : Byte) (ty status rseq : Nat) (keep more unsol : Bool) (p : List Byte) :
    (x.tmpOut src k unit ty status rseq keep more unsol p).FlashWf := by
  unfold DM.tmpOut
  split
  · exact h
  · extract_lets seq b y
    have hy : y.FlashWf := h.congr _ rfl
    exact hy.tmpSend _ _

theorem reply (r : TmpReq) (status : Nat) (p : List Byte) : (x.reply r status p).FlashWf := h.tmpOut ..
theorem tell (s : EvtSub) (ty : Nat) (more : Bool) (p : List Byte) : (x.tell s ty more p).FlashWf := h.tmpOut ..

omit h in
/-- Pops change the device alone. -/
theorem popItem {q n : Nat} : ∀ {y : DM}, y.FlashWf → ∀ l, (DM.popItem q n y l).1.FlashWf := by
  induction n with
  | zero => exact fun hy l => hy
  | succ n ih =>
    intro y hy l
    unfold DM.popItem
    extract_lets z w acc
    have hz : z.FlashWf := hy.modD _
    split
    · exact hz
    · exact ih hz acc

omit h in
theorem tellItem {s : EvtSub} {q n : Nat} : ∀ {y : DM}, y.FlashWf → ∀ l, (y.tellItem s q n l).FlashWf := by
  induction n with
  | zero => exact fun hy l => hy
  | succ n ih => exact fun hy l => ite (hy.tell ..) (ih (hy.tell ..) _)

theorem logAdd (w : Dword) : (x.modM fun m => m.logAdd w).FlashWf := modM (h.mgmt.logAdd w)

theorem eventOut (w : Dword) : (x.eventOut w).FlashWf := (h.logAdd w).foldl (fun hy _ => hy.tell ..) _

theorem hormalItem (mgtq q : Nat) : (x.hormalItem mgtq q).FlashWf := by
  have hpop := h.popItem (q := q) (n := (x.d.que1 q).words.length) []
  unfold DM.hormalItem
  split
  next y l hy =>
  rw [hy] at hpop
  split
  · exact foldl (fun hz w => hz.eventOut w.1) _ hpop
  · split
    · exact tellItem hpop _
    · exact hpop

theorem hormalRun : x.hormalRun.FlashWf := by
  unfold DM.hormalRun
  refine ite h (h.foldl (fun hy q => ite hy (hy.foldl (fun hz _ => hz.hormalItem _ _) _)) _)

theorem logTick (latch : BitVec 1024) (tick : Nat) : (x.logTick latch tick).FlashWf :=
  ite h (h.foldl (fun hy _ => hy.logAdd _) _)

theorem tickAll : x.tickAll.FlashWf := by
  unfold DM.tickAll
  exact ite h ((h.data _).logTick _ _)

/-! ## Updates -/

theorem recWrite (g : ActRec → ActRec) : (x.modM fun m => m.recWrite g).FlashWf := modM (h.mgmt.recWrite g)

theorem lockTake (by_ : LockBy) (total : Nat) (ver : Word) : (x.lockTake by_ total ver).FlashWf := by
  unfold DM.lockTake
  extract_lets y
  have hy : y.FlashWf := (h.recWrite fun r => { r with cru := 1, cruVer := ver }).congr _ rfl
  exact hy.modD _

theorem lockFree : x.lockFree.FlashWf := h.congr _ rfl
theorem lockDrop : x.lockDrop.FlashWf := (h.recWrite _).lockFree
theorem lockBusy : x.lockBusy.FlashWf := h.modD _

theorem cruVerify : x.cruVerify.1.FlashWf := by
  unfold DM.cruVerify
  extract_lets m code n
  have hm : m.FlashWf := h.mgmt.recWrite _
  have hn : n.FlashWf := hm.recWrite _
  exact mk hn _

theorem activate : x.activate.FlashWf := by
  unfold DM.activate
  exact mk (h.mgmt.recWrite _) _

theorem chunkWrite (c : Nat × List Byte × Option TmpReq) : (x.chunkWrite c).FlashWf := by
  unfold DM.chunkWrite
  extract_lets o ok y
  have hy : y.FlashWf := modM (h.mgmt.prog _ _)
  split
  · exact hy.reply ..
  · exact hy

theorem chunkIn (c : Nat × List Byte × Option TmpReq) : (x.chunkIn c).FlashWf := by
  unfold DM.chunkIn
  extract_lets y
  have hy : y.FlashWf := h.congr _ rfl
  exact ite (hy.chunkWrite c) (hy.congr _ rfl)

theorem imgAsk : x.imgAsk.FlashWf := by
  unfold DM.imgAsk
  split
  · extract_lets y
    have hy : y.FlashWf := h.congr _ rfl
    exact ite (hy.hopSend ..) hy
  · exact h

/-- The end of a transfer, once its image is verified with code `code`. -/
theorem imgEnd : x.imgEnd.FlashWf := by
  unfold DM.imgEnd
  split
  · refine ite h ?_
    have hver := h.cruVerify
    split
    next y code hy =>
    rw [hy] at hver
    extract_lets z w
    have hz : z.FlashWf := (lockFree hver).hopSend ..
    have hw : w.FlashWf := hz.modM_flash.offerAll
    exact ite hz (ite hw.activate hw)
  · exact h

theorem imgOfferRecv (down : Bool) (p : List Byte) : (x.imgOfferRecv down p).FlashWf := by
  unfold DM.imgOfferRecv
  extract_lets ver total refuse y
  have hy : y.FlashWf := h.lockTake ..
  exact ite (h.lockBusy.hopSend ..) (ite (h.hopSend ..) (hy.modM_flash.imgAsk))

theorem imgReqRecv (down : Bool) (p : List Byte) : (x.imgReqRecv down p).FlashWf := by
  unfold DM.imgReqRecv
  exact ite (h.hopSend ..) h

theorem imgDataRecv (down : Bool) (p : List Byte) : (x.imgDataRecv down p).FlashWf := by
  unfold DM.imgDataRecv
  split
  · extract_lets b y
    have hy : y.FlashWf := h.chunkIn _
    exact ite hy.modM_flash.imgAsk.imgEnd h
  · exact h

theorem imgResend (down : Bool) : (x.imgResend down).FlashWf := by
  unfold DM.imgResend
  split
  · exact ite (ite (h.modM_flash.imgAsk) h.lockDrop) h
  · exact h

theorem blockErased : x.blockErased.FlashWf := by
  unfold DM.blockErased
  refine ite h ?_
  extract_lets o ok y z go w
  have herase : (x.m.erase o flBlock).FlashWf := h.mgmt.erase _ _
  have hy : y.FlashWf := (mk herase x.d).congr _ rfl
  have hz : z.FlashWf := by
    unfold z
    split
    · exact hy.modM_flash.reply ..
    · exact hy
  have hw : w.FlashWf := hz.congr _ rfl
  exact (hw.foldl (fun hu c => hu.chunkWrite c) _).imgEnd

theorem lockTimeout : x.lockTimeout.FlashWf := ite h.lockDrop h

theorem trialTimer : x.trialTimer.FlashWf := by
  unfold DM.trialTimer
  extract_lets y
  have hy : y.FlashWf := (h.recWrite fun r => { r with trialSec := r.trialSec + 60 }).congr _ rfl
  exact ite (ite (hy.mgtRestart 5) hy) h

theorem autoConfirm : x.autoConfirm.FlashWf := ite h.confirm h

/-! ## Requests of the management host and of the chain -/

theorem actMbxRd (r : TmpReq) (p : List Byte) : (x.actMbxRd r p).FlashWf := by
  unfold DM.actMbxRd
  exact (((h.mgtWrite ..).mbxFill _).mgtWrite ..).reply ..

theorem actQSub (r : TmpReq) (p : List Byte) : (x.actQSub r p).FlashWf := by
  unfold DM.actQSub
  extract_lets q sub
  exact ite (h.reply ..) (h.modM_flash.reply ..)

theorem actQPush (r : TmpReq) (p : List Byte) : (x.actQPush r p).FlashWf := by
  unfold DM.actQPush
  exact ite (h.reply ..) ((h.data _).reply ..)

theorem actEvtSub (r : TmpReq) (p : List Byte) : (x.actEvtSub r p).FlashWf := by
  unfold DM.actEvtSub
  extract_lets l new
  refine ite (h.modM_flash.reply ..) ?_
  split
  · exact h.modM_flash.reply ..
  · exact h.modM_flash.reply ..
  · exact h.reply ..

theorem actSnap (r : TmpReq) (p : List Byte) : (x.actSnap r p).FlashWf := ite ((h.modD _).reply ..) (h.reply ..)

theorem updStart (r : TmpReq) (p : List Byte) : (x.updStart r p).FlashWf := by
  unfold DM.updStart
  exact ite (h.lockBusy.reply ..) (ite (h.reply ..) (ite (h.reply ..) (h.lockTake ..).modM_flash))

theorem updData (r : TmpReq) (p : List Byte) : (x.updData r p).FlashWf := by
  unfold DM.updData
  exact ite (h.reply ..) (ite (h.modM_flash.reply ..) (h.chunkIn _))

theorem updEnd (r : TmpReq) (p : List Byte) : (x.updEnd r p).FlashWf := by
  unfold DM.updEnd
  refine ite (h.reply ..) ?_
  have hver := h.cruVerify
  split
  next y code hy =>
  rw [hy] at hver
  extract_lets z
  have hz : z.FlashWf := (lockFree hver).reply ..
  exact ite hz.offerAll hz

theorem updActivate (r : TmpReq) (p : List Byte) : (x.updActivate r p).FlashWf := ite (h.activate.reply ..) (h.reply ..)
theorem updConfirm (r : TmpReq) (p : List Byte) : (x.updConfirm r p).FlashWf := ite (h.confirm.reply ..) (h.reply ..)
theorem updAbort (r : TmpReq) (p : List Byte) : (x.updAbort r p).FlashWf := ite (h.lockDrop.reply ..) (h.reply ..)

theorem actRigWrite (r : TmpReq) (p : List Byte) : (x.actRigWrite r p).FlashWf := by
  unfold DM.actRigWrite
  exact ite (h.reply ..) (reply (modM (h.mgmt.prog _ _)) ..)

theorem actRigErase (r : TmpReq) (p : List Byte) : (x.actRigErase r p).FlashWf := by
  unfold DM.actRigErase
  exact ite (h.reply ..) (reply (modM (h.mgmt.erase _ _)) ..)

theorem actSetWr (r : TmpReq) (p : List Byte) : (x.actSetWr r p).FlashWf := by
  unfold DM.actSetWr
  exact ite (h.reply ..) (reply (modM (h.mgmt.setWrite _ _)) ..)

theorem actRestart (r : TmpReq) (p : List Byte) : (x.actRestart r p).FlashWf := by
  unfold DM.actRestart
  extract_lets y z
  have hy : y.FlashWf := h.reply ..
  exact ite (hy.data _) ((hy.mgtRestart 3).modM_flash)

/-- An operation keeps the form. -/
def Op (o : DM.TmpOp) : Prop := ∀ (y : DM) (r : TmpReq) (p : List Byte), y.FlashWf → (o.act y r p).FlashWf

omit h in
theorem Op.row {c : Prop} [Decidable c] {a : DM.TmpOp} {b : Option DM.TmpOp} (ha : Op a) (hb : ∀ o, b = some o → Op o) :
    ∀ o, (if c then some a else b) = some o → Op o := fun o ho => by
  split at ho
  · exact Option.some.inj ho ▸ ha
  · exact hb o ho

omit h in
/-- Every operation of the table of R359 keeps the form. -/
theorem tmpOp (ty : Nat) : ∀ o, DM.tmpOp ty = some o → Op o := by
  unfold DM.tmpOp
  exact Op.row (fun y r p hy => hy.reply ..) <| Op.row (fun y r p hy => (hy.mgtRead ..).reply ..) <|
    Op.row (fun y r p hy => (hy.mgtWrite ..).reply ..) <| Op.row (fun y r p hy => hy.actMbxRd r p) <|
    Op.row (fun y r p hy => hy.actQSub r p) <| Op.row (fun y r p hy => hy.actQPush r p) <|
    Op.row (fun y r p hy => hy.actEvtSub r p) <| Op.row (fun y r p hy => hy.reply ..) <| Op.row (fun y r p hy => hy.reply ..) <|
    Op.row (fun y r p hy => hy.actSnap r p) <| Op.row (fun y r p hy => hy.updStart r p) <|
    Op.row (fun y r p hy => hy.updData r p) <| Op.row (fun y r p hy => hy.updEnd r p) <|
    Op.row (fun y r p hy => hy.updActivate r p) <| Op.row (fun y r p hy => hy.updConfirm r p) <|
    Op.row (fun y r p hy => hy.updAbort r p) <| Op.row (fun y r p hy => hy.reply ..) <|
    Op.row (fun y r p hy => hy.actRigWrite r p) <| Op.row (fun y r p hy => hy.actRigErase r p) <|
    Op.row (fun y r p hy => hy.reply ..) <| Op.row (fun y r p hy => hy.actSetWr r p) <|
    Op.row (fun y r p hy => hy.actRestart r p) fun o ho => by cases ho

theorem tmpPerform (r : TmpReq) (p : List Byte) : (x.tmpPerform r p).FlashWf := by
  unfold DM.tmpPerform
  extract_lets y
  have hy : y.FlashWf := h.modM_flash
  split
  · exact hy.reply ..
  · next o ho => exact ite (hy.reply ..) (ite (hy.reply ..) (tmpOp _ o ho y r p hy))

theorem tmpServe (src : TmpSrc) (b : List Byte) : (x.tmpServe src b).FlashWf := by
  unfold DM.tmpServe
  extract_lets k n y r plain
  have hy : y.FlashWf := h.modD _
  split
  · exact h
  · refine ite (h.modD _) (ite (hy.tmpOut ..) (ite (hy.tmpPerform _ _) ?_))
    split
    · exact hy.tmpSend _ _
    · exact (hy.modD _).tmpOut ..

theorem relay (src : TmpSrc) (b : List Byte) : (x.relay src b).FlashWf := by
  unfold DM.relay
  extract_lets u r
  refine ite h ?_
  split
  · exact h.tmpOut ..
  · extract_lets y down
    have hy : y.FlashWf := h.modM_flash
    exact ite (hy.hopSend ..) (hy.chainSend _ _)

theorem relayExpiry (i : Nat) : (x.relayExpiry i).FlashWf := by
  unfold DM.relayExpiry
  split
  · exact h
  · extract_lets y
    have hy : y.FlashWf := h.modM_flash
    exact ite (hy.tmpOut ..) h

theorem relayBack (b : List Byte) : (x.relayBack b).FlashWf := by
  unfold DM.relayBack
  split
  · exact h
  · extract_lets y
    have hy : y.FlashWf := h.tmpSend _ _
    exact ite hy (hy.modM_flash)

theorem tmpArrive (src : TmpSrc) (b : List Byte) : (x.tmpArrive src b).FlashWf := by
  unfold DM.tmpArrive
  extract_lets y
  have hy : y.FlashWf := h.modM_flash
  refine ite (h.modD _) (ite hy ?_)
  split
  · exact ite (hy.tmpServe _ _) (ite (hy.relay _ _) hy)
  · exact hy.tmpServe _ _

theorem tmpRow (ty : Nat) (src : TmpSrc) (b : List Byte) : (DM.tmpRow ty x src b).FlashWf := ite (h.tmpArrive src b) h
theorem restartRow (scope : Bool) (src : TmpSrc) (b : List Byte) : (DM.restartRow scope x src b).FlashWf := ite (h.tmpRow 0x1F src b) h

theorem subLapse (i : Nat) : (x.subLapse i).FlashWf := by
  unfold DM.subLapse
  split
  · exact ite (h.modM_flash) h
  · exact h

theorem frameTake (down : Bool) (f : List Byte) : (x.frameTake down f).FlashWf := by
  unfold DM.frameTake
  extract_lets p ty dst src
  exact ite (ite h (h.enumRecv _)) (ite (h.enumDoneRecv _) (ite (ite h (ite (h.relayBack p) (h.tmpServe _ p)))
    (ite h (ite (h.imgOfferRecv down p) (ite (h.imgReqRecv down p) (ite (h.imgDataRecv down p) h))))))

theorem frameRoute (down : Bool) (f : List Byte) : (x.frameRoute down f).FlashWf := by
  unfold DM.frameRoute
  extract_lets dst
  refine ite (h.frameTake down f) (ite h ?_)
  split
  · exact ite (h.frameTake down f) (h.chainSend _ _)
  · exact h.chainSend _ _

theorem frameFree (down : Bool) (f : List Byte) : (x.frameFree down f).FlashWf := by
  unfold DM.frameFree
  extract_lets y
  have hy : y.FlashWf := h.modM_flash
  exact ite (hy.frameRoute down f) (hy.modD _)

/-- Of the cluster, a change of a chain port leaves the flash. -/
theorem modChain (down : Bool) (f : ChainPort → ChainPort) : (x.modM fun m => m.modChain down f).FlashWf := modM (h.mgmt.modChain down f)

theorem frameRecv (down : Bool) (f : List Byte) : (x.frameRecv down f).FlashWf := by
  unfold DM.frameRecv
  exact ite h (ite (h.frameFree down f) ((h.modChain _ _).modD _))

theorem frameRow (ty : Nat) (down : Bool) (f : List Byte) : (DM.frameRow ty x down f).FlashWf := ite (h.frameRecv down f) h

theorem heldFrames (down : Bool) : (x.heldFrames down).FlashWf := by
  unfold DM.heldFrames
  exact ite h ((h.modChain _ _).foldl (fun hy f => hy.frameFree down f) _)

theorem frameCredit (down : Bool) : (x.frameCredit down).FlashWf := ite (modM ((h.mgmt.modChain _ _).chainPump _)) h

theorem portUp (down : Bool) : (x.portUp down).FlashWf := by
  unfold DM.portUp
  extract_lets y
  have hy : y.FlashWf := mk (h.mgmt.modChain _ _) _
  exact ite h (ite hy ((ite hy.enumDown hy).offerTo down))

theorem portDown (down : Bool) : (x.portDown down).FlashWf := by
  unfold DM.portDown
  exact ite (mk (h.mgmt.modChain _ _) _) h

theorem ethSet (up : Bool) : (x.ethSet up).FlashWf := by
  unfold DM.ethSet
  exact ite h (h.congr _ rfl)

/-! ## What follows of itself -/

theorem flashSettle : x.flashSettle.FlashWf := ite (h.congr _ rfl) h

theorem mgtSettle : x.mgtSettle.FlashWf := by
  have hheld := (h.heldFrames false).heldFrames true
  exact (ite (hheld.modM_flash.offerAll) hheld).hormalRun.flashSettle

theorem keptSettle : x.keptSettle.FlashWf := by
  unfold DM.keptSettle
  exact ite (mk (h.mgmt.setWrites _) _) h

theorem settle : x.settle.FlashWf := by
  unfold DM.settle
  extract_lets y d
  exact (h.mgqSettle.mgtSettle.data _).keptSettle

end DM.FlashWf

/-! ## Commands -/

namespace State

variable {s : State} (h : s.m.FlashWf)
include h

theorem flashWf_begun : s.begun.FlashWf := by
  unfold State.begun
  exact (DM.FlashWf.mk h s.d).congr _ rfl

theorem flashWf_onDM {f : DM → DM} (hf : ∀ {x : DM}, x.FlashWf → (f x).FlashWf) : (s.onDM f).m.FlashWf := by
  have hsettle := (hf (flashWf_begun h)).settle
  rw [State.onDM_eq, State.afterDM]
  generalize (f s.begun).settle = x at hsettle ⊢
  exact hsettle.mgmt

theorem flashWf_onData (f : Data → Data) : (s.onData f).m.FlashWf := by
  rw [State.onData_eq, State.after, ← State.onDM_eq s fun x => { x with d := f s.d }]
  exact flashWf_onDM h fun hx => hx.data _

end State

/-- A command of the cluster whose operation keeps the form. -/
theorem exec_flashWf_of {c : Instr} {s t : State} {f : DM → DM} (he : exec c s = .next (s.onDM f))
    (hf : ∀ {x : DM}, x.FlashWf → (f x).FlashWf) (h : s.m.FlashWf) (ht : exec c s = .next t) : t.m.FlashWf := by
  obtain rfl := Host.Outcome.next.inj (he.symm.trans ht)
  exact State.flashWf_onDM h hf

/-- A command of the device alone. -/
theorem exec_flashWf_data {c : Instr} {s t : State} {f : Data → Data} (he : exec c s = .next (s.onData f)) (h : s.m.FlashWf)
    (ht : exec c s = .next t) : t.m.FlashWf := by
  obtain rfl := Host.Outcome.next.inj (he.symm.trans ht)
  exact State.flashWf_onData h f

/-- Every command keeps the form: one of the TAP does nothing to the cluster, one of the cluster keeps it by its operation, and the others
work on the device alone. -/
theorem exec_flashWf {c : Instr} {s t : State} (h : s.m.FlashWf) (ht : exec c s = .next t) : t.m.FlashWf := by
  cases c
  case tck | trstN =>
    obtain rfl := Host.Outcome.next.inj ht
    exact h
  case durBudget | arm | quePushHi | flush | go | slcDisGo | slcEnGo | cbypDisGo | cbypEnGo | evtForce | snap | clrAll | pmcWvalHi |
      pmcSmpSeed | aptSwev | dis | retrain | drain | returnSlc | artsGo | assay | bkpReturn | bkpFail | handover | handback |
      halCtlEnum | unreef | reef | reset | kick =>
    exact exec_flashWf_of rfl (fun hx => hx.trigger ..) h ht
  case registerWrite | mbxSel | mbxAck => exact exec_flashWf_of rfl (fun hx => hx.accWrite ..) h ht
  case rcFieldRead | mbxDataRead => exact exec_flashWf_of rfl (fun hx => hx.accRead ..) h ht
  case domainIdleReef | domainWake | domainWakeComplete | domainWakeTimeout | pllLockFailure | domainReefComplete =>
    exact exec_flashWf_of rfl (fun hx => hx.onDom _ fun _ => hx.data _) h ht
  case hello | tmpRegRd | tmpRegWr | mbxRd | qSub | tmpQPush | evtSub | logRd | time | tmpSnap | updStart | updData |
      updEnd | updActivate | updConfirm | updAbort | updStat | rigWrite | rigErase | setRd | setWr =>
    exact exec_flashWf_of rfl (fun hx => hx.tmpRow ..) h ht
  case restartDevice | restartManagementCluster => exact exec_flashWf_of rfl (fun hx => hx.restartRow ..) h ht
  case enum | enumDone | tmpFrame | imgOffer | imgReq | imgData | imgRsp => exact exec_flashWf_of rfl (fun hx => hx.frameRow ..) h ht
  case doneRestart e => exact exec_flashWf_of rfl (fun hx => hx.doneRestart e) h ht
  case quePopLo => exact exec_flashWf_of rfl (fun hx => hx.mgtRead ..) h ht
  case postedWriteEffect r => exact exec_flashWf_of rfl (fun hx => hx.postedRun r) h ht
  case farAccessTimeout r =>
    obtain ⟨who, lost⟩ := r
    cases lost with
    | none => exact exec_flashWf_of (f := fun x => x.postedTimeout who) rfl (fun hx => hx.postedTimeout who) h ht
    | some a => exact exec_flashWf_of (f := fun x => x.farLost who a) rfl (fun hx => hx.farLost who a) h ht
  case mbxFillComplete m => exact exec_flashWf_of rfl (fun hx => hx.mbxFill m) h ht
  case eventTick => exact exec_flashWf_of rfl (fun hx => hx.tickAll) h ht
  case powerGood e => exact exec_flashWf_of rfl (fun hx => hx.powerGood e) h ht
  case pwrgdLow => exact exec_flashWf_of rfl (fun hx => hx.coldMgmt _) h ht
  case warmResetEffect e => exact exec_flashWf_of rfl (fun hx => hx.warmEffect e) h ht
  case crystalFailure => exact exec_flashWf_of rfl (fun hx => hx.crystalFail) h ht
  case watchdogExpiry => exact exec_flashWf_of rfl (fun hx => hx.watchdog) h ht
  case evtSubLapse i => exact exec_flashWf_of rfl (fun hx => hx.subLapse _) h ht
  case relayExpiry i => exact exec_flashWf_of rfl (fun hx => hx.relayExpiry _) h ht
  case chainPortUp down => exact exec_flashWf_of rfl (fun hx => hx.portUp down) h ht
  case chainPortDown down => exact exec_flashWf_of rfl (fun hx => hx.portDown down) h ht
  case imgReqResendTimeout down => exact exec_flashWf_of rfl (fun hx => hx.imgResend down) h ht
  case crucibleLockTimeout => exact exec_flashWf_of rfl (fun hx => hx.lockTimeout) h ht
  case trialRecordTimer => exact exec_flashWf_of rfl (fun hx => hx.trialTimer) h ht
  case autoConfirmExpiry => exact exec_flashWf_of rfl (fun hx => hx.autoConfirm) h ht
  case ethernetLinkUp => exact exec_flashWf_of rfl (fun hx => hx.ethSet true) h ht
  case ethernetLinkDown => exact exec_flashWf_of rfl (fun hx => hx.ethSet false) h ht
  case flashBlockErased => exact exec_flashWf_of rfl (fun hx => hx.blockErased) h ht
  case frameBufferCredit down => exact exec_flashWf_of rfl (fun hx => hx.frameCredit down) h ht
  all_goals exact exec_flashWf_data rfl h ht

/-- Settles O51: a cycle is a change of the device, and every command keeps the form. -/
theorem everyStepKeepsTheFlash : Obligations.EveryStepKeepsTheFlash := by
  intro s t h hstep
  rw [flashOk_iff, ← Mgmt.flashWf_iff] at h ⊢
  cases hq : s.pending with
  | nil =>
    obtain rfl := Host.Outcome.next.inj ((step_nil s hq).symm.trans hstep)
    exact State.flashWf_onData h Data.cycle
  | cons c rest => exact exec_flashWf (s := { s with pending := rest }) h ((step_cons s c rest hq).symm.trans hstep)

end Sys2Proof.Machine
end

section
/-!
PROOFS. Accesses that get the error response (R336, R345), and what a mailbox fill samples (R347, R348).
-/

namespace Sys2Proof.Machine

/-! ## The error response -/

/-- No error response: the access is aligned, lies in a block, and is not reserved. -/
theorem accCause_none_iff {a w : Nat} {write mgq : Bool} : accCause a w write mgq = none ↔
    accAligned a w = true ∧ (regDom a).isSome = true ∧
      (mgq = true → accMgtOnly (a / 4 * 4) write = false ∧ (w = 8 → accMgtOnly (a + 4) write = false)) := by
  unfold accCause
  cases accAligned a w
  · simp
  cases regDom a
  · simp
  cases mgq
  · simp
  by_cases hw : w = 8 <;> simp [hw]

theorem accAligned_iff {a w : Nat} : accAligned a w = true ↔ a % w = 0 ∨ w = 8 ∧ (a = Reg.topCbypLo ∨ a = Reg.topCbypStaleLo) := by
  simp [accAligned]

namespace DM

/-- A refused access of an agent: nothing but the error response, and STATUS ACC_ERR. -/
theorem agentWrite_refused (x : DM) {p : Agent} {a : Nat} {w64 : Bool} {c : BitVec 3} (be : Byte) (v : Dword) (ok : Bool)
    (hc : accCause a (if w64 then 8 else 4) true true = some c) : x.agentWrite p a w64 be v ok =
      ({ x with d := (x.d.tally 23).accError (Fin.castLE (by decide : 16 ≤ 17) p) c a }, 1) := by
  have hbytes : accBytes (if w64 then .w64 else .w32) = if w64 then 8 else 4 := by cases w64 <;> rfl
  simp only [agentWrite, hbytes, hc]

theorem agentRead_refused (x : DM) {p : Agent} {a : Nat} {w64 : Bool} {c : BitVec 3} (ok : Bool)
    (hc : accCause a (if w64 then 8 else 4) false true = some c) :
    (x.agentRead p a w64 ok).2 = (1, allOnes (if w64 then 8 else 4)) := by
  simp only [agentRead, hc]
  rfl

/-- A refused access of the cluster. -/
theorem mgtWrite_refused {x : DM} {a : Nat} {w : AccWidth} {c : BitVec 3} (be : Byte) (v : Dword) (hup : x.mgtUp = true)
    (hc : accCause a (accBytes w) true false = some c) : x.mgtWrite a w be v = { x with d := x.d.accError 16 c a } := by
  simp only [mgtWrite, hup, hc, Bool.not_true, Bool.false_eq_true, if_false]

theorem mgtRead_refused {x : DM} {a : Nat} {w : AccWidth} {c : BitVec 3} (u : BitVec 67) (hup : x.mgtUp = true)
    (hc : accCause a (accBytes w) false false = some c) :
    x.mgtRead a w u = readKeep ({ x with d := x.d.accError 16 c a }, allOnes (accBytes w)) 16 := by
  simp only [mgtRead, hup, hc, Bool.not_true, Bool.false_eq_true, if_false]

end DM

/-- Settles O47: each access by its cause, and the error response by what it records. -/
theorem refusedAccesses : Obligations.RefusedAccesses := by
  refine ⟨fun x a w be v u c hup => ⟨fun hc => DM.mgtWrite_refused be v hup hc, fun hc => ?clusterRead⟩,
    fun x p a w64 ok be v c r hr => ⟨fun hc => ?agentWrite, fun hc => x.agentRead_refused ok hc⟩,
    fun d r k c a => ?record, fun a w write mgq hw => ?cause, rfl, rfl⟩
  case clusterRead =>
    rw [DM.mgtRead_refused u hup hc]
    exact ⟨rfl, rfl⟩
  case agentWrite =>
    obtain rfl : r = Fin.castLE (by decide : 16 ≤ 17) p := Fin.ext hr
    exact x.agentWrite_refused be v ok hc
  case record =>
    obtain ⟨y, h⟩ := d.accError_eq r c a
    rw [h]
    simp only [Data.modBank_banks, Data.modBank_regs]
    rw [vmod_self]
    exact ⟨rfl, rfl, rfl, fun hk => vmod_other _ _ hk, trivial⟩
  case cause => rw [accCause_none_iff, accAligned_iff]

/-! ## The mailbox fill -/

/-- What a fill writes: the words of the object and ERR. -/
def fillOf : Option (Option (List Nat)) → List Nat × BitVec 2
  | none => ([], 1)
  | some none => ([], 2)
  | some (some ws) => (ws, 0)

namespace DM

/-- A write of any bits of SEL starts a fill of that mailbox. -/
theorem writeMbx_sel_part (d : Data) (r : Requester) (m : Fin 8) (v en : Word) : writeMbx d r (Reg.mbxSel m.val) v en =
    d.modMbx m fun y => { y with sel := (y.sel &&& ~~~en) ||| (v &&& en), owner := r, valid := false, pend := true, start := d.now } := by
  have hm : (Fin.ofNat 8 ((Reg.mbxSel m.val - 0x60000) / 0x40) : Fin 8) = m := mbx_index 0 rfl (by decide)
  have ho : Reg.mbxSel m.val % 0x40 = 0 := by simp only [Reg.mbxSel]; omega
  unfold writeMbx
  dsimp only
  rw [if_neg (by simp only [Reg.mbxSel]; omega), if_pos ho, hm]

/-- The cluster's or an agent's write of SEL, and the mailboxes after it. -/
theorem mbx_writeReg_sel (x : DM) (r : Requester) (m : Fin 8) (v : Word) {en : Word} (hen : en ≠ 0) (hquiet : x.d.quiet r (Reg.mbxSel m.val)) :
    (x.writeReg r (Reg.mbxSel m.val) v en).d.mbx = vmod x.d.mbx m fun y =>
      { y with sel := (y.sel &&& ~~~en) ||| (v &&& en), owner := r, valid := false, pend := true, start := x.d.now } := by
  obtain ⟨regs, hwrite⟩ := x.d.regWrite_eq (Reg.mbxSel m.val) v en
  rw [x.writeReg_quiet r _ v en 0 hen hquiet, writeAlone_mbx _ _ _ _ _ _ (by simp only [Reg.mbxSel]; omega), hwrite, writeMbx_sel_part]
  rfl

theorem mbxFill_eq (x : DM) (m : Fin 8) (hpend : x.d.mbx[m].pend = true) :
    let o := fillOf (x.mbxObject (bits x.d.mbx[m].sel.toNat 24 8) (bits x.d.mbx[m].sel.toNat 0 24))
    (x.mbxFill m).d.mbx = vmod x.d.mbx m fun y => { y with
      pend := false, valid := true, doneAt := some x.d.now, err := o.2, data := Vector.ofFn fun k : Fin 12 => BitVec.ofNat 32 (o.1.getD k.val 0) } := by
  intro o
  have hfills : ¬(!x.d.mbx[m].pend) = true := by rw [hpend]; decide
  unfold mbxFill
  extract_lets b
  rw [if_neg hfills]
  unfold o b
  generalize x.mbxObject (bits x.d.mbx[m].sel.toNat 24 8) (bits x.d.mbx[m].sel.toNat 0 24) = o
  rcases o with _ | _ | ws <;> rfl

variable {x : DM} {cls i : Nat}

/-- An unknown class, or an index beyond the objects of its class. -/
theorem mbxObject_unknown (h : cls ∉ [0x01, 0x02, 0x03, 0x04, 0x10, 0x11, 0x12, 0x13, 0x20, 0x30] ∨ (cls = 0x01 ∧ 512 ≤ i) ∨
    (cls = 0x20 ∧ 256 ≤ i) ∨ (cls = 0x10 ∧ 8 ≤ i) ∨ (cls = 0x12 ∧ 16 ≤ i) ∨ (cls = 0x03 ∧ 1 ≤ i)) : x.mbxObject cls i = none := by
  simp only [List.mem_cons, List.not_mem_nil, or_false, not_or] at h
  unfold mbxObject
  dsimp only
  repeat rw [if_neg (by omega)]

theorem mbxObject_counter (hcls : cls = 0x01) (hi : i < 512) :
    x.mbxObject cls i = some (if x.d.domUp 2 then some (counterObj x.d.pmc.edge x.d.pmc.chain i []) else none) := by
  unfold mbxObject
  exact if_pos ⟨hcls, hi⟩

/-- The objects of D2 that are read here: live counters and chain heads. -/
theorem mbxObject_reefed (h : cls = 0x01 ∧ i < 512 ∨ cls = 0x20 ∧ i < 256) (hdown : x.d.domUp 2 = false) :
    x.mbxObject cls i = some none := by
  rcases h with ⟨hcls, hi⟩ | h
  · rw [mbxObject_counter hcls hi, hdown]
    rfl
  · unfold mbxObject
    dsimp only
    repeat rw [if_neg (by omega)]
    rw [if_pos h, hdown]
    rfl

theorem mbxObject_tick (hcls : cls = 0x03) (hi : i = 0) : x.mbxObject cls i = some (some (addrWords x.d.evt.tick.toNat)) := by
  unfold mbxObject
  dsimp only
  rw [if_neg (by omega), if_neg (by omega), if_pos ⟨hcls, hi⟩]

end DM

/-- Two words of 32 bits are a number of 64. -/
theorem words_append (v : Dword) : BitVec.ofNat 32 (bits v.toNat 32 32) ++ BitVec.ofNat 32 (bits v.toNat 0 32) = v := by
  apply BitVec.eq_of_toNat_eq
  have hv := v.isLt
  simp only [bits, BitVec.toNat_append, BitVec.toNat_ofNat]
  rw [Nat.shiftLeft_eq, Nat.mul_comm, ← Nat.two_pow_add_eq_or_of_lt (by omega)]
  omega

/-- The two words of a counter below 2^48 are its value. -/
theorem counterWords_toNat {v : Nat} (hv : v < 2 ^ 48) :
    (BitVec.ofNat 32 (bits v 0 32)).toNat + 2 ^ 32 * (BitVec.ofNat 32 (bits v 32 16)).toNat = v := by
  simp only [bits, BitVec.toNat_ofNat]
  omega

/-- Word 4 of a counter object holds the chain bit of its pair. -/
theorem counterObj_chained (cnt : SMap Nat) (chain : BitVec 256) (c : Nat) :
    (BitVec.ofNat 32 ((DM.counterObj cnt chain c []).getD 4 0)).getLsbD 0 = chain.getLsbD (c / 2) := by
  unfold DM.counterObj
  dsimp only
  cases chain.getLsbD (c / 2) <;> simp [DM.counterWords]

/-- Settles O48: a write of SEL and a fill change their own mailbox alone; the fill by the object that SEL names. -/
theorem mailboxFill : Obligations.MailboxFill := by
  refine ⟨fun x r m v en hen hquiet => ?sel, fun x m hpend => ?fill⟩
  case sel =>
    rw [x.mbx_writeReg_sel r m v hen hquiet, vmod_self]
    exact ⟨rfl, rfl, rfl, rfl, fun k hk => vmod_other _ _ hk⟩
  case fill =>
    have hfill := x.mbxFill_eq m hpend
    dsimp only at hfill
    rw [hfill, vmod_self]
    refine ⟨rfl, rfl, fun k hk => vmod_other _ _ hk, ?_⟩
    rintro cls i rfl rfl
    refine ⟨fun h => ?unknown, fun h hdown => ?reefed, fun hcls hi => ?tick, fun hcls hi hup hlt => ?counter⟩
    case unknown => rw [DM.mbxObject_unknown h]; exact ⟨rfl, fun k => by simp [fillOf]⟩
    case reefed => rw [DM.mbxObject_reefed h hdown]; exact ⟨rfl, fun k => by simp [fillOf]⟩
    case tick => rw [DM.mbxObject_tick hcls hi]; exact ⟨rfl, words_append _⟩
    case counter =>
      rw [DM.mbxObject_counter hcls hi, hup, if_pos rfl]
      exact ⟨rfl, counterWords_toNat hlt, counterObj_chained _ _ _⟩

end Sys2Proof.Machine
end

section
/-!
PROOFS. The service controls (R365, R400, R401, R402): each write triggers its own control, whose checks read nothing that the write
of the fields has changed.
-/

namespace Sys2Proof.Machine

/-! ## Writes of an index field with a trigger bit above it -/

/-- The fields of TOP_SLC_CTL, TST_ASSAY_CTL and TOP_ARTS that name what GO acts on. -/
theorem regRow_topSlcCtl_fields : ∃ row, regRow Reg.topSlcCtl = some row ∧ (⟨0, 3, .rw⟩ : Fld) ∈ row.flds ∧ (⟨3, 1, .rw⟩ : Fld) ∈ row.flds := by
  decide +kernel

theorem regRow_tstAssayCtl_slice : ∃ row, regRow Reg.tstAssayCtl = some row ∧ (⟨0, 3, .rw⟩ : Fld) ∈ row.flds := by decide +kernel

theorem regRow_topArts_agent : ∃ row, regRow Reg.topArts = some row ∧ (⟨0, 4, .rw⟩ : Fld) ∈ row.flds := by decide +kernel

section Writes

variable (d : Data) (n : Fin 8)

theorem Data.fld_regWrite_topSlcCtl {op : Word} (h : ∀ n : Fin 8, bits (BitVec.ofNat 32 n.val ||| op).toNat 0 3 = n.val) :
    (d.regWrite Reg.topSlcCtl (BitVec.ofNat 32 n.val ||| op) 0x1F).fld Reg.topSlcCtl 0 3 = n.val := by
  obtain ⟨row, hrow, hf, -⟩ := regRow_topSlcCtl_fields
  exact (d.fld_regWrite_enabled hrow hf (.inl rfl) (by decide)).trans (h n)

/-- OP of TOP_SLC_CTL takes the bit that the write gives it. -/
theorem Data.flag_regWrite_topSlcCtl (v : Word) : (d.regWrite Reg.topSlcCtl v 0x1F).flag Reg.topSlcCtl 3 = v.getLsbD 3 := by
  obtain ⟨row, hrow, -, hf⟩ := regRow_topSlcCtl_fields
  have hmask (p : Acc → Bool) : (accMask row p).getLsbD 3 = p .rw :=
    accMask_of_covers (regRow_mem hrow) hf p (by decide) ⟨Nat.le_refl _, Nat.lt_succ_self _⟩
  exact d.flag_regWrite_rw _ _ _ 3 hrow (hmask _) (hmask _) (hmask _) rfl

end Writes

namespace DM

variable (x : DM) (r : Requester) (m : BitVec 67)

theorem writeAlone_topSlcCtl_drain (n : Fin 8) : x.writeAlone r Reg.topSlcCtl (BitVec.ofNat 32 n.val ||| 0x10) 0x1F m =
    { x with d := (x.d.regWrite Reg.topSlcCtl (BitVec.ofNat 32 n.val ||| 0x10) 0x1F).slcDrain n } := by
  have hgo : ∀ n : Fin 8, hit (BitVec.ofNat 32 n.val ||| 0x10) 0x1F 4 = true := by decide
  have hop : ∀ n : Fin 8, (BitVec.ofNat 32 n.val ||| 0x10 : Word).getLsbD 3 = false := by decide
  rw [writeAlone_top _ _ _ _ _ _ (by decide), writeTop, if_neg (by decide), if_neg (by decide), if_neg (by decide), if_neg (by decide),
    if_pos rfl, if_pos (hgo n), Data.flag_regWrite_topSlcCtl, hop n, if_neg (by decide), x.d.fld_regWrite_topSlcCtl n (by decide)]
  congr 2
  exact Fin.ext (Nat.mod_eq_of_lt n.isLt)

theorem writeAlone_topSlcCtl_return (n : Fin 8) : x.writeAlone r Reg.topSlcCtl (BitVec.ofNat 32 n.val ||| 0x18) 0x1F m =
    { x with d := (x.d.regWrite Reg.topSlcCtl (BitVec.ofNat 32 n.val ||| 0x18) 0x1F).slcReturn n } := by
  have hgo : ∀ n : Fin 8, hit (BitVec.ofNat 32 n.val ||| 0x18) 0x1F 4 = true := by decide
  have hop : ∀ n : Fin 8, (BitVec.ofNat 32 n.val ||| 0x18 : Word).getLsbD 3 = true := by decide
  rw [writeAlone_top _ _ _ _ _ _ (by decide), writeTop, if_neg (by decide), if_neg (by decide), if_neg (by decide), if_neg (by decide),
    if_pos rfl, if_pos (hgo n), Data.flag_regWrite_topSlcCtl, hop n, if_pos rfl, x.d.fld_regWrite_topSlcCtl n (by decide)]
  congr 2
  exact Fin.ext (Nat.mod_eq_of_lt n.isLt)

theorem writeAlone_tstAssayCtl (n : Fin 8) : x.writeAlone r Reg.tstAssayCtl (BitVec.ofNat 32 n.val ||| 0x8) 0xF m =
    { x with d := (x.d.regWrite Reg.tstAssayCtl (BitVec.ofNat 32 n.val ||| 0x8) 0xF).assayGo n } := by
  obtain ⟨row, hrow, hf⟩ := regRow_tstAssayCtl_slice
  have hgo : ∀ n : Fin 8, hit (BitVec.ofNat 32 n.val ||| 0x8) 0xF 3 = true := by decide
  have hbits : ∀ n : Fin 8, bits (BitVec.ofNat 32 n.val ||| 0x8 : Word).toNat 0 3 = n.val := by decide
  have hfld := (x.d.fld_regWrite_enabled hrow hf (.inl rfl) (v := BitVec.ofNat 32 n.val ||| 0x8) (en := 0xF) (by decide)).trans (hbits n)
  rw [writeAlone_sto _ _ _ _ _ _ (by decide), writeSto, if_neg (by decide), if_pos rfl, if_pos (hgo n), hfld]
  congr 2
  exact Fin.ext (Nat.mod_eq_of_lt n.isLt)

theorem writeAlone_topArts (p : Fin 16) : x.writeAlone r Reg.topArts (BitVec.ofNat 32 p.val ||| 0x10) 0x1F m =
    { x with d := (x.d.regWrite Reg.topArts (BitVec.ofNat 32 p.val ||| 0x10) 0x1F).artsGo p } := by
  obtain ⟨row, hrow, hf⟩ := regRow_topArts_agent
  have hgo : ∀ p : Fin 16, hit (BitVec.ofNat 32 p.val ||| 0x10) 0x1F 4 = true := by decide
  have hbits : ∀ p : Fin 16, bits (BitVec.ofNat 32 p.val ||| 0x10 : Word).toNat 0 4 = p.val := by decide
  have hfld := (x.d.fld_regWrite_enabled hrow hf (.inl rfl) (v := BitVec.ofNat 32 p.val ||| 0x10) (en := 0x1F) (by decide)).trans (hbits p)
  rw [writeAlone_top _ _ _ _ _ _ (by decide), writeTop, if_neg (by decide), if_neg (by decide), if_neg (by decide), if_neg (by decide),
    if_neg (by decide), if_pos rfl, if_pos (hgo p), hfld]
  congr 2
  exact Fin.ext (Nat.mod_eq_of_lt p.isLt)

/-- What a write of BKPn_CTL triggers, beside the fields that it writes. -/
theorem writeAlone_bkpCtl (b : Fin 4) (v en : Word) : x.writeAlone r (Reg.bkpCtl b.val) v en m =
    { x with d := ((x.d.regWrite (Reg.bkpCtl b.val) v en).when (hit v en 1) (Data.bkpFailPort · b)).when (hit v en 0) (Data.bkpReturn · b) } := by
  have ho : Reg.bkpCtl b.val % 0x10000 = 0x20 := by simp only [Reg.bkpCtl]; omega
  have hb : (Fin.ofNat 4 ((Reg.bkpCtl b.val - 0x300000) / 0x10000) : BkpId) = b :=
    bkp_index 0x20 (by simp only [Reg.bkpCtl]; omega) (by decide)
  rw [writeAlone_bkp _ _ _ _ _ _ (by simp only [Reg.bkpCtl]; omega), writeBkp, if_pos ho, hb]

theorem writeAlone_halCtl_enum : x.writeAlone r Reg.halCtl 1 1 m = ({ x with d := x.d.regWrite Reg.halCtl 1 1 } : DM).halEnum := by
  rw [writeAlone_mgt _ _ _ _ _ _ (by decide), writeMgt, if_neg (by decide), if_neg (by decide), if_pos rfl, if_pos (by decide)]

theorem halEnum_of_head (hup : x.mgtUp = true) (hhead : x.d.pwr.chainHead = true) : x.halEnum = x.enumHead := if_pos ⟨hhead, hup⟩

end DM

/-! ## What the controls do -/

namespace Data

variable (d : Data)

theorem slcDrain_of_ready {n : SliceId} (hproc : d.svc.proc = none) (htr : d.dur.tr = none) (hact : d.active n = true)
    (hout : d.svc.out.getLsbD n.val = false) (hfault : d.svc.fault.getLsbD n.val = false) (hrest : d.serving.filter (· != n) ≠ [])
    (hready : d.ready = true) :
    d.slcDrain n = ((((((d.fldSet Reg.topSlcCtl 0 3 n.val).flagSet Reg.topSlcCtl 3 false).mntDrop n).reloadCut.ilvMod
      (fun b _ => ((List.range 256).filter fun b => (d.ilvAt b).toNat % 8 = n.val).contains b) fun _ e => e ||| 0x10).modSvc fun x =>
        { x with proc := some (false, n), share := vmod x.share n fun _ => (List.range 256).filter fun b => (d.ilvAt b).toNat % 8 = n.val })) := by
  refine if_neg fun h => ?_
  change (!d.active n) = true ∨ d.svc.out.getLsbD n.val = true ∨ d.svc.proc.isSome = true ∨
    (!(!d.svc.fault.getLsbD n.val || _)) = true ∨ (d.serving.filter (· != n)).isEmpty = true ∨ d.dur.tr.isSome = true ∨ (!d.ready) = true at h
  rw [hact, hout, hproc, hfault, List.isEmpty_iff, htr, hready] at h
  simp [hrest] at h

theorem slcReturn_of_passed {n : SliceId} {r : Rig} (hrig : d.rig = some r) (hproc : d.svc.proc = none) (htr : d.dur.tr = none)
    (hout : d.svc.out.getLsbD n.val = true) (hpass : d.svc.passed.getLsbD n.val = true) (hassay : d.svc.assay ≠ some n) :
    d.slcReturn n = ((((d.fldSet Reg.topSlcCtl 0 3 n.val).flagSet Reg.topSlcCtl 3 true).ilvMod
      (fun b _ => ((List.range 256).filter fun b => (r.ilv.getD b 0).toNat % 8 = n.val).contains b) fun _ e => e ||| 0x10).modSvc fun x =>
        { x with proc := some (true, n), share := vmod x.share n fun _ => (List.range 256).filter fun b => (r.ilv.getD b 0).toNat % 8 = n.val }).domWake
          (slcDom n) := by
  have hfree : ¬((!d.svc.out.getLsbD n.val) = true ∨ (!d.svc.passed.getLsbD n.val) = true ∨ d.svc.proc.isSome = true ∨
      d.svc.assay = some n ∨ d.dur.tr.isSome = true) := by
    rw [hout, hpass, hproc, htr]
    simp [hassay]
  refine (if_neg hfree).trans ?_
  have hrig' : ((d.fldSet Reg.topSlcCtl 0 3 n.val).flagSet Reg.topSlcCtl 3 true).rig = some r := hrig
  rw [hrig']

theorem assayGo_of_out {n : SliceId} (hproc : d.svc.proc = none) (hout : d.svc.out.getLsbD n.val = true) (hassay : d.svc.assay = none) :
    d.assayGo n = (d.fldSet Reg.tstAssayCtl 0 3 n.val).modSvc fun x => { x with assay := some n, struct := 0 } := by
  have hfree : d.svc.out.getLsbD n.val = true ∧ d.svc.assay.isNone = true ∧ d.svc.proc.isNone = true := by
    rw [hout, hassay, hproc]
    decide
  exact if_pos hfree

theorem artsGo_of_isolated {p : Agent} (hiso : d.ports[p].iso = true) (harts : d.svc.arts = none) :
    d.artsGo p = d.serving.foldl (fun (d : Data) n => d.modSlice n fun x => { x with arts := some (p, 0) })
      ((d.fldSet Reg.topArts 0 4 p.val).modSvc fun x => { x with arts := some p }) := by
  have hfree : d.ports[p].iso = true ∧ d.svc.arts.isNone = true := by
    rw [hiso, harts]
    decide
  exact if_pos hfree

section Assay

variable {n : SliceId} (hassay : d.svc.assay = some n)
include hassay

theorem assayDone_pass : d.assayDone 0 = ((d.modSvc fun x => { x with
    assay := none, assayPass := true, assayFail := false, struct := 0, passed := setBit x.passed n.val true }).modSlice n
      Slice.clean).sliceStoreClear n := by
  rw [assayDone, hassay]
  rfl

theorem assayDone_fail {k : BitVec 3} (hk : k ≠ 0) : d.assayDone k = (((d.modSvc fun x => { x with
    assay := none, assayPass := false, assayFail := true, struct := k, passed := setBit x.passed n.val false }).modSlice n
      Slice.clean).sliceStoreClear n).evSlc n 31 := by
  have hok : (k == 0) = false := beq_eq_false_iff_ne.mpr hk
  rw [assayDone, hassay]
  simp only [hok]
  rfl

end Assay

theorem bkpReturn_of_failed {b : BkpId} (hst : d.bkps[b].st = .failed) (hret : d.bkps[b].returning = none) :
    d.bkpReturn b = (d.modBkp b fun x => { x with returning := some d.now }).domWake (bkpDom b) :=
  if_pos ⟨hst, by rw [hret]; rfl⟩

/-- What a slice does for a returned port in a device with the rig of `k`: its writes for the port go out anew, and its sets for the
port are walked anew. -/
def sendAnew (k : Data) (b : BkpId) (n : SliceId) (x : Slice) : Slice :=
  { x with wb := x.wb.map fun w => if k.bkpOf w.ga = b then { w with sent := none, tries := 0 } else w
           redirty := if k.active n then x.redirty.filter (fun y => y.1 != b) ++ [(b, 0)] else [] }

theorem sendAnew_congr {d k : Data} (h : d.rig = k.rig) : d.sendAnew = k.sendAnew := by
  funext b n x
  have hport (ga : Nat) : d.bkpOf ga = k.bkpOf ga := by unfold bkpOf ways; rw [h]
  have hactive : d.active n = k.active n := by unfold active; rw [h]
  unfold sendAnew
  rw [hactive]
  simp only [hport]

/-- The slices may read the rig in any of the states between: none of them changes it. -/
theorem foldl_sendAnew {k : Data} (b : BkpId) (ns : List SliceId) : ∀ d : Data, d.rig = k.rig →
    ns.foldl (fun (d : Data) n => d.modSlice n (d.sendAnew b n)) d = ns.foldl (fun (d : Data) n => d.modSlice n (k.sendAnew b n)) d := by
  induction ns with
  | nil => exact fun _ _ => rfl
  | cons n ns ih =>
    intro d h
    rw [List.foldl_cons, List.foldl_cons, sendAnew_congr h]
    exact ih _ h

section Returned

variable {b : BkpId} {e : PortEnv} {t : Nat} {d' : Data} (hret : d.bkps[b].returning = some t)
  (hlink : (d.modBkp b fun x => { x with returning := none, st := .training }).bkpLink b e (d.bkpMhd b) = d')
include hret hlink

theorem bkpReturned_ready (hready : d'.bkps[b].st = .ready) : d.bkpReturned b e =
    allSlices.foldl (fun (y : Data) n => y.modSlice n fun x =>
      { x with wb := x.wb.map fun w => if d'.bkpOf w.ga = b then { w with sent := none, tries := 0 } else w
               redirty := if d'.active n then x.redirty.filter (fun y => y.1 != b) ++ [(b, 0)] else [] })
      (d'.modDur fun u => { u with portFailed := setBit u.portFailed b.val false }) := by
  have hopen : ¬d.bkps[b].returning.isNone = true := by rw [hret]; exact Bool.false_ne_true
  unfold bkpReturned
  rw [if_neg hopen]
  extract_lets trained linked open_
  have heq : linked = d' := hlink
  clear_value linked
  subst heq
  rw [if_pos hready]
  exact foldl_sendAnew b allSlices open_ rfl

theorem bkpReturned_failed (hready : d'.bkps[b].st ≠ .ready) : d.bkpReturned b e = d'.raise (Reg.bkpCtl b.val) 2 := by
  have hopen : ¬d.bkps[b].returning.isNone = true := by rw [hret]; exact Bool.false_ne_true
  unfold bkpReturned
  rw [if_neg hopen]
  extract_lets trained linked open_
  have heq : linked = d' := hlink
  clear_value linked
  subst heq
  exact if_neg hready

end Returned

end Data

/-! ## The commands -/

/-- Settles O30: each control finds what it acts on in order, and the write of its register leaves that as it was. -/
theorem serviceCommandsComplete : Obligations.ServiceCommandsComplete := by
  refine ⟨fun n s hproc htr => ⟨fun hreach hact hout hfault hrest hready => ?drain, fun hreach r hrig hout hpass hassay => ?ret,
      fun hreach hout hassay => ?assay⟩, fun p s hreach hiso harts => ?arts, fun n s hassay => ⟨?pass, fun k hk => ?fail⟩,
    fun b s hreach => ⟨fun hst hret => ?bkpReturn, fun hst => ?bkpFail⟩,
    fun b e s t d hret hlink => ⟨fun hready => ?ready, fun hready => ?failed⟩, fun s hreach hhead => ?enum⟩
  case drain =>
    refine exec_afterDM_data rfl (State.trigger_data hreach (by decide) (DM.writeAlone_topSlcCtl_drain _ _ _ n) ?_)
    obtain ⟨regs, hwrite⟩ := s.d.regWrite_eq Reg.topSlcCtl (BitVec.ofNat 32 n.val ||| 0x10) 0x1F
    rw [State.begun_d, hwrite]
    exact Data.slcDrain_of_ready { s.d with regs := regs } hproc htr hact hout hfault hrest hready
  case ret =>
    refine exec_afterDM_data rfl (State.trigger_data hreach (by decide) (DM.writeAlone_topSlcCtl_return _ _ _ n) ?_)
    obtain ⟨regs, hwrite⟩ := s.d.regWrite_eq Reg.topSlcCtl (BitVec.ofNat 32 n.val ||| 0x18) 0x1F
    rw [State.begun_d, hwrite]
    exact Data.slcReturn_of_passed { s.d with regs := regs } hrig hproc htr hout hpass hassay
  case assay =>
    refine exec_afterDM_data rfl (State.trigger_data hreach (by decide) (DM.writeAlone_tstAssayCtl _ _ _ n) ?_)
    obtain ⟨regs, hwrite⟩ := s.d.regWrite_eq Reg.tstAssayCtl (BitVec.ofNat 32 n.val ||| 0x8) 0xF
    rw [State.begun_d, hwrite]
    exact Data.assayGo_of_out { s.d with regs := regs } hproc hout hassay
  case arts =>
    refine exec_afterDM_data rfl (State.trigger_data hreach (by decide) (DM.writeAlone_topArts _ _ _ p) ?_)
    obtain ⟨regs, hwrite⟩ := s.d.regWrite_eq Reg.topArts (BitVec.ofNat 32 p.val ||| 0x10) 0x1F
    rw [State.begun_d, hwrite]
    exact Data.artsGo_of_isolated { s.d with regs := regs } hiso harts
  case pass => exact exec_after rfl (s.d.assayDone_pass hassay)
  case fail => exact exec_after rfl (s.d.assayDone_fail hassay hk)
  case bkpReturn =>
    refine exec_afterDM_data rfl (State.trigger_data hreach (by decide) (DM.writeAlone_bkpCtl _ _ _ b _ _) ?_)
    obtain ⟨regs, hwrite⟩ := s.d.regWrite_eq (Reg.bkpCtl b.val) 1 1
    rw [State.begun_d, hwrite]
    exact Data.bkpReturn_of_failed { s.d with regs := regs } hst hret
  case bkpFail =>
    exact exec_afterDM_data rfl (State.trigger_data hreach (by decide) (DM.writeAlone_bkpCtl _ _ _ b _ _) rfl)
  case ready => exact exec_after rfl (s.d.bkpReturned_ready hret hlink hready)
  case failed => exact exec_after rfl (s.d.bkpReturned_failed hret hlink hready)
  case enum =>
    refine exec_afterDM rfl ?_
    rw [State.trigger_reaches hreach _ _ _ (by decide), DM.writeAlone_halCtl_enum]
    refine DM.halEnum_of_head _ ?_ ?_
    all_goals
      obtain ⟨regs, hwrite⟩ := s.d.regWrite_eq Reg.halCtl 1 1
      rw [State.begun_d, hwrite]
    · exact State.mgtUp_begun hreach.up
    · exact hhead

end Sys2Proof.Machine
end

section
/-!
PROOFS. Requests of management hosts (R357 to R360, R366, R370, R373, R374): a message that passes every check of R357 is served by
the operation of its TYPE, which then finds what it acts on in order.
-/

namespace Sys2Proof.Machine

/-! ## An accepted message (R357) -/

/-- TYPE is the byte at offset 3. -/
theorem tmpType_eq (b : List Byte) : tmpType b = (b.getD 3 0).toNat := by
  unfold tmpType leAt sub
  rcases Nat.lt_or_ge 3 b.length with h | h
  · rw [List.drop_eq_getElem_cons h, List.getD_eq_getElem _ _ h]
    rfl
  · rw [List.drop_eq_nil_of_le h, List.getD_eq_default _ _ h]
    rfl

namespace DM

variable {x : DM} {src : TmpSrc} {b : List Byte} {o : TmpOp}

/-- The operation of a TYPE in the table of R359. -/
theorem Accepts.op_of_type (h : x.Accepts src b o) {ty : Nat} (hty : tmpType b = ty) : tmpOp ty = some o := by
  rw [← hty, tmpType_eq]
  exact h.op

theorem tmpPerform_of_admitted {r : TmpReq} {p : List Byte} (hop : tmpOp r.ty.toNat = some o)
    (hright : o.right p = 0 ∨ o.right p &&& x.m.rights r.key ≠ 0) (hform : o.form p = true) :
    x.tmpPerform r p = o.act (x.modM fun m => { m with slots := vmod m.slots r.key fun s => seqTake s r.seq }) r p := by
  have hadmits : ¬(o.right p ≠ 0 ∧ o.right p &&& x.m.rights r.key = 0) := fun ⟨hne, hz⟩ => hright.elim hne fun h => h hz
  unfold tmpPerform
  rw [hop]
  refine (if_neg hadmits).trans (if_neg ?_)
  rw [hform]
  decide

/-- A message with a good MAC, an acceptable BOOT_ID and an acceptable SEQ is counted and performed. -/
theorem tmpServe_of_fresh (x : DM) {k : List Byte} (hkey : x.m.key (tmpKey b) = some k)
    (hmac : tmpMac k (b.take (32 + leAt b 24 2)) = b.drop (32 + leAt b 24 2)) (hboot : tmpType b = 1 ∨ leAt b 28 4 = x.m.bootId.toNat)
    (hfresh : seqOk (x.slot (tmpKey b)) (tmpSeq b) = true) :
    x.tmpServe src b = (x.modD fun d => d.tally 43).tmpPerform (tmpReq src b) (tmpPayload b) := by
  have hcurrent : ¬(tmpType b ≠ 1 ∧ leAt b 28 4 ≠ x.m.bootId.toNat) := fun ⟨ht, hb⟩ => hboot.elim ht hb
  unfold tmpServe
  extract_lets slot
  rw [hkey]
  exact (if_neg (not_not.mpr hmac)).trans ((if_neg hcurrent).trans (if_pos hfresh))

/-- A message that passes every check is counted, its SEQ is taken, and the operation of its TYPE serves it. -/
theorem Accepts.tmpServe (h : x.Accepts src b o) :
    (x.modM fun m => { m with msgAt := x.d.now }).tmpServe src b = o.act (x.taken src b) (tmpReq src b) (tmpPayload b) := by
  obtain ⟨k, hkey, hmac⟩ := h.mac
  rw [tmpServe_of_fresh (x.modM fun m => { m with msgAt := x.d.now }) hkey hmac h.boot h.fresh]
  exact tmpPerform_of_admitted h.op h.right h.form

theorem Accepts.tmpArrive (h : x.Accepts src b o) : x.tmpArrive src b = o.act (x.taken src b) (tmpReq src b) (tmpPayload b) := by
  unfold DM.tmpArrive
  rw [h.up, if_neg (by decide), h.framed, if_neg (by decide)]
  cases src with
  | host ip port => exact (if_pos (h.here ip port rfl)).trans h.tmpServe
  | chainUp a => exact h.tmpServe
  | chainDown a => exact h.tmpServe

/-- An accepted message that comes with the TYPE of its row. -/
theorem Accepts.tmpRow (h : x.Accepts src b o) {ty : Nat} (hty : tmpType b = ty) :
    tmpRow ty x src b = o.act (x.taken src b) (tmpReq src b) (tmpPayload b) := by
  rw [DM.tmpRow, if_pos hty, h.tmpArrive]

theorem Accepts.act_of_type (h : x.Accepts src b o) {ty : Nat} {f : DM → TmpReq → List Byte → DM} (hty : tmpType b = ty)
    (hact : (tmpOp ty).map TmpOp.act = some f) : o.act = f := by
  rw [h.op_of_type hty, Option.map_some, Option.some_inj] at hact
  exact hact

/-- The command of a TYPE serves an accepted message by the operation `f` that the table names for the TYPE. -/
theorem Accepts.exec_row {s : State} {c : Instr} {ty : Nat} {f : DM → TmpReq → List Byte → DM} {y : DM} (h : s.begun.Accepts src b o)
    (hty : tmpType b = ty) (hexec : exec c s = .next (s.onDM fun x => DM.tmpRow ty x src b)) (hact : (tmpOp ty).map TmpOp.act = some f)
    (hf : f (s.begun.taken src b) (tmpReq src b) (tmpPayload b) = y) : exec c s = .next (s.afterDM y) := by
  subst hf
  rw [← h.act_of_type hty hact]
  exact exec_afterDM hexec (h.tmpRow hty)

end DM

/-- Settles O33: the command of a TYPE serves an accepted message by the operation of the TYPE. -/
theorem managementReadsComplete : Obligations.ManagementReadsComplete := by
  intro s src b o c ty f h hty hrow
  simp only [List.mem_cons, Prod.mk.injEq, List.not_mem_nil, or_false] at hrow
  rcases hrow with ⟨rfl, rfl, rfl⟩ | ⟨rfl, rfl, rfl⟩ | ⟨rfl, rfl, rfl⟩ | ⟨rfl, rfl, rfl⟩ | ⟨rfl, rfl, rfl⟩ | ⟨rfl, rfl, rfl⟩ |
    ⟨rfl, rfl, rfl⟩ | ⟨rfl, rfl, rfl⟩ | ⟨rfl, rfl, rfl⟩
  all_goals exact h.exec_row hty rfl rfl rfl

/-! ## The operations that are granted (R359, R366, R370, R373) -/

namespace DM

variable (x : DM) {r : TmpReq} {p : List Byte}

theorem now_taken (src : TmpSrc) (b : List Byte) : (x.taken src b).d.now = x.d.now := Data.tally_now x.d 43 1

theorem actQSub_of_owned (hq : (x.d.qMgt (leAt p 0 2)).isSome = true) (hon : leAt p 2 1 = 1) :
    x.actQSub r p = (x.modM fun m =>
      { m with qsubs := SMap.set none m.qsubs (leAt p 0 2) (some { src := r.src, key := r.key, since := x.d.now }) }).reply r stOk := by
  have hown : ¬(x.d.qMgt (leAt p 0 2)).isNone = true := by rw [Option.isNone_iff_eq_none, ← ne_eq, Option.ne_none_iff_isSome, hq]
  unfold actQSub
  extract_lets q sub
  rw [if_neg hown]
  simp only [sub, if_pos hon]
  rfl

theorem actEvtSub_of_renewed {i : Nat} (hon : leAt p 0 1 ≠ 0) (hi : x.m.esubs.findIdx? (subIs r) = some i) :
    x.actEvtSub r p = (x.modM fun m =>
      { m with esubs := m.esubs.set i (some { src := r.src, key := r.key, since := x.d.now }) }).reply r stOk := by
  unfold actEvtSub
  extract_lets l new
  rw [if_neg hon, show l.findIdx? (subIs r) = some i from hi]

theorem actSnap_of_up (hup : x.d.domUp 2 = true) :
    x.actSnap r p = (x.modD fun d => d.modPmc fun p => { p with snap := true }).reply r stOk (leBytes 2 (x.d.pmc.seq + 1).toNat) :=
  if_pos hup

theorem updStart_of_free (hlock : x.m.lock = .free) (hcru : x.m.act.cru ≠ 4) (hmin : 64 ≤ leAt p 0 4) (hmax : leAt p 0 4 ≤ flImage) :
    x.updStart r p = (x.lockTake (.host r.src) (leAt p 0 4) (BitVec.ofNat 32 (leAt p 4 4))).modM fun m => { m with startReq := some r } :=
  (if_neg (not_not.mpr hlock)).trans ((if_neg hcru).trans (if_neg (not_or.mpr ⟨Nat.not_lt.mpr hmin, Nat.not_lt.mpr hmax⟩)))

section Holder

variable (hholds : x.holds r = true)
include hholds

theorem updData_of_holder (hfits : leAt p 0 4 + (p.drop 4).length ≤ x.m.total) : x.updData r p = x.chunkIn (leAt p 0 4, p.drop 4, some r) := by
  unfold updData
  extract_lets offset bytes
  rw [hholds, if_neg (by decide)]
  exact if_neg (Nat.not_lt.mpr hfits)

theorem updEnd_of_verified {y : DM} (hver : x.cruVerify = (y, 0)) : x.updEnd r p = (y.lockFree.reply r stOk (leBytes 1 0)).offerAll := by
  unfold updEnd
  rw [hholds, if_neg (by decide), hver]
  rfl

theorem updAbort_of_holder : x.updAbort r p = x.lockDrop.reply r stOk := if_pos hholds

end Holder

theorem updActivate_of_verified (hcru : x.m.act.cru = 3) : x.updActivate r p = x.activate.reply r stOk := if_pos hcru

theorem updConfirm_of_trial (htrial : x.m.act.trial = true) (hsec : x.m.act.trialSec < 600) : x.updConfirm r p = x.confirm.reply r stOk :=
  if_pos ⟨htrial, hsec⟩

section RigArea

variable (hfree : x.rigInUse (leAt p 0 1) = false)
include hfree

theorem actRigWrite_of_free : x.actRigWrite r p = (x.modM fun m => m.prog (flRig (leAt p 0 1 == 1) + leAt p 1 4) (p.drop 5)).reply r
    (if x.m.flashSound (flRig (leAt p 0 1 == 1) + leAt p 1 4) (p.length - 5) then stOk else stFlash) := by
  unfold actRigWrite
  extract_lets offset
  rw [hfree, if_neg (by decide)]
  rfl

theorem actRigErase_of_free : x.actRigErase r p = (x.modM fun m => m.erase (flRig (leAt p 0 1 == 1)) 0x100000).reply r
    (if x.m.flashSound (flRig (leAt p 0 1 == 1)) 0x100000 then stOk else stFlash) := by
  unfold actRigErase
  extract_lets offset
  rw [hfree, if_neg (by decide)]
  rfl

end RigArea

theorem actSetWr_of_room (hroom : (setBytes ((x.m.settings.filter fun y => y.1 != leAt p 0 2) ++ [(leAt p 0 2, p.drop 2)])).length + 32 ≤ 0x100000) :
    x.actSetWr r p = (x.modM fun m => m.setWrite (leAt p 0 2) (p.drop 2)).reply r
      (if (x.modM fun m => m.setWrite (leAt p 0 2) (p.drop 2)).m.flashSound
          (flSettings ((x.modM fun m => m.setWrite (leAt p 0 2) (p.drop 2)).m.setSlot.getD false)) 0x100000 then stOk else stFlash) :=
  if_neg (Nat.not_lt.mpr hroom)

theorem actRestart_device (hscope : leAt p 0 1 = 0) : x.actRestart r p = { x.reply r stOk with d := warmGo (x.reply r stOk).d 6 } :=
  if_pos hscope

theorem actRestart_cluster (hscope : leAt p 0 1 = 1) : x.actRestart r p =
    ((x.reply r stOk).mgtRestart 3).modM fun m => { m with out := (x.reply r stOk).m.out ++ m.out } :=
  if_neg (by rw [hscope]; decide)

theorem restartRow_of_scope {src : TmpSrc} {b : List Byte} {scope : Bool} (h : (leAt (tmpPayload b) 0 1 == 1) = scope) :
    restartRow scope x src b = tmpRow 0x1F x src b := if_pos h

/-! ## The timers of subscriptions and relays -/

theorem subLapse_of_due {i : Nat} {e : EvtSub} (hsub : x.m.esubs[i]? = some (some e)) (hdue : e.since + ms 60000 ≤ x.d.now) :
    x.subLapse i = x.modM fun m => { m with esubs := m.esubs.set i none } := by
  unfold subLapse
  rw [hsub]
  exact if_pos hdue

theorem relayExpiry_of_due {i : Nat} {y : Relay} (hrelay : x.m.relays.find? (fun y => y.idx == i) = some y)
    (hdue : y.start + ms 100 ≤ x.d.now) (hup : x.mgtUp = true) :
    x.relayExpiry i = (x.modM fun m => { m with relays := m.relays.filter fun z => z.idx != i }).tmpOut
      y.req.src y.req.key y.req.unit y.req.ty.toNat stUnreach y.req.seq false false false [] := by
  unfold relayExpiry
  rw [hrelay]
  exact if_pos ⟨hdue, hup⟩

end DM

/-- Settles O34: an accepted message reaches the operation of its TYPE, and each condition selects the branch that grants it. -/
theorem managementRequestsComplete : Obligations.ManagementRequestsComplete := by
  refine ⟨?requests, fun s i => ⟨fun e hsub hdue => ?lapse, fun y hrelay hdue hup => ?relay⟩⟩
  case requests =>
    rintro s src b o x r p h rfl rfl rfl
    refine ⟨fun hty hon hq => ?qSub, fun i hty hon hi => ?evtSub, fun hty hup => ?snap, fun hty hlock hcru hmin hmax => ?updStart,
      fun hty hholds hfits => ?updData, fun y hty hholds hver => ?updEnd, fun hty hcru => ?updActivate, fun hty htrial hsec => ?updConfirm,
      fun hty hholds => ?updAbort, fun hty hfree => ?rigWrite, fun hty hfree => ?rigErase, fun y hty hy hroom => ?setWr,
      fun hty hscope => ?device, fun hty hscope => ?cluster⟩
    case qSub =>
      refine h.exec_row hty rfl rfl ((DM.actQSub_of_owned _ hq hon).trans ?_)
      rw [DM.now_taken]
      rfl
    case evtSub =>
      refine h.exec_row hty rfl rfl ((DM.actEvtSub_of_renewed _ hon hi).trans ?_)
      rw [DM.now_taken]
      rfl
    case snap => exact h.exec_row hty rfl rfl (DM.actSnap_of_up _ (p := tmpPayload b) hup)
    case updStart => exact h.exec_row hty rfl rfl (DM.updStart_of_free _ hlock hcru hmin hmax)
    case updData => exact h.exec_row hty rfl rfl (DM.updData_of_holder _ hholds hfits)
    case updEnd => exact h.exec_row hty rfl rfl (DM.updEnd_of_verified _ (p := tmpPayload b) hholds hver)
    case updActivate => exact h.exec_row hty rfl rfl (DM.updActivate_of_verified _ (p := tmpPayload b) hcru)
    case updConfirm => exact h.exec_row hty rfl rfl (DM.updConfirm_of_trial _ (p := tmpPayload b) htrial hsec)
    case updAbort => exact h.exec_row hty rfl rfl (DM.updAbort_of_holder _ (p := tmpPayload b) hholds)
    case rigWrite => exact h.exec_row hty rfl rfl (DM.actRigWrite_of_free _ hfree)
    case rigErase => exact h.exec_row hty rfl rfl (DM.actRigErase_of_free _ hfree)
    case setWr =>
      subst hy
      exact h.exec_row hty rfl rfl (DM.actSetWr_of_room _ hroom)
    case device =>
      have hrow : DM.restartRow false s.begun src b = DM.tmpRow 0x1F s.begun src b := DM.restartRow_of_scope _ (by rw [hscope]; rfl)
      refine exec_afterDM rfl (hrow.trans ((h.tmpRow hty).trans ?_))
      rw [h.act_of_type hty rfl]
      exact DM.actRestart_device _ hscope
    case cluster =>
      have hrow : DM.restartRow true s.begun src b = DM.tmpRow 0x1F s.begun src b := DM.restartRow_of_scope _ (by rw [hscope]; rfl)
      refine exec_afterDM rfl (hrow.trans ((h.tmpRow hty).trans ?_))
      rw [h.act_of_type hty rfl]
      exact DM.actRestart_cluster _ hscope
  case lapse => exact exec_afterDM rfl (DM.subLapse_of_due _ hsub hdue)
  case relay => exact exec_afterDM rfl (DM.relayExpiry_of_due _ hrelay hdue (State.mgtUp_begun hup))

end Sys2Proof.Machine
end

section
/-!
PROOFS. The halyard chain (R363 to R366, R371): its ports, its credits, and what each good hop-only frame does at the unit that it
reaches.
-/

namespace Sys2Proof.Machine

namespace DM

variable (x : DM) (down : Bool)

/-! ## Ports and credits (R363, R364) -/

section PortUp

variable (hport : (x.m.chain down).up = true)
include hport

theorem portDown_of_up : x.portDown down =
    { d := (x.d.fldCnt Reg.halErrCnt 16 16 (x.m.chain down).out.length).evMgt (if down then 8 else 7),
      m := x.m.modChain down fun p => { held := p.held } } := if_pos hport

theorem frameCredit_of_up : x.frameCredit down =
    x.modM fun m => (m.modChain down fun p => { p with credits := min 4 (p.credits + 1) }).chainPump down := if_pos hport

end PortUp

theorem up_modChain (m : Mgmt) (f : ChainPort → ChainPort) : (m.modChain down f).up = m.up := by cases down <;> rfl

/-- A port that comes up while the cores stand offers nothing on it. -/
theorem portUp_of_stopped (hport : (x.m.chain down).up = false) (hboot : x.d.pwr.boot ≠ .off) (hup : x.m.up = false) :
    x.portUp down = { d := x.d.evMgt (if down then 8 else 7), m := x.m.modChain down fun _ => { up := true, credits := 4 } } := by
  have hdown : ¬((x.m.chain down).up = true ∨ x.d.pwr.boot = .off) := not_or.mpr ⟨Bool.eq_false_iff.mp hport, hboot⟩
  unfold portUp
  rw [if_neg hdown]
  refine if_pos ?_
  rw [mgtUp, up_modChain, hup, Bool.and_false]
  rfl

/-! ## Images over the chain (R371) -/

/-- A chunk that answers no request leaves the device as it is. -/
theorem chunkIn_d (o : Nat) (b : List Byte) : (x.chunkIn (o, b, none)).d = x.d := by
  unfold chunkIn
  extract_lets timed
  split <;> rfl

theorem lockTake_now (by_ : LockBy) (total : Nat) (ver : Word) : (x.lockTake by_ total ver).d.now = x.d.now := Data.ev_now x.d (64 + 11)

section Image

variable {next total : Nat} {dig : BitVec 384} {tries asked : Nat} {p : List Byte}

theorem imgResend_of_due (himg : x.m.img = some (down, next, total, dig, tries, asked)) (hmore : next < total)
    (hdue : asked + ms 10 ≤ x.d.now) (hup : x.mgtUp = true) (htries : tries < 8) :
    x.imgResend down = (x.modM fun m => { m with img := some (down, next, total, dig, tries + 1, asked) }).imgAsk := by
  unfold imgResend
  rw [himg]
  exact (if_pos ⟨rfl, hmore, hdue, hup⟩).trans (if_pos htries)

theorem imgDataRecv_of_asked (himg : x.m.img = some (down, next, total, dig, tries, asked)) (hmore : next < total)
    (hofs : leAt p 0 4 = next) (hlen : (p.drop 4).length = min 1024 (total - next)) :
    x.imgDataRecv down p = (((x.chunkIn (next, p.drop 4, none)).modM fun m =>
      { m with img := some (down, next + (p.drop 4).length, total, dig, 0, x.d.now) }).imgAsk).imgEnd := by
  unfold imgDataRecv
  rw [himg]
  refine (if_pos ⟨rfl, hofs, hlen, hmore⟩).trans ?_
  extract_lets written
  rw [show written.d = x.d from x.chunkIn_d next (p.drop 4)]

theorem imgOfferRecv_of_wanted (hlock : x.m.lock = .free) (hset : x.m.setOn tagChainUpd = true) (hcru : x.m.act.cru ≠ 4)
    (hact : BitVec.ofNat 32 (leAt p 0 4) ≠ x.m.act.actVer) (hver : BitVec.ofNat 32 (leAt p 0 4) ≠ x.m.act.cruVer)
    (hmin : 64 ≤ leAt p 5 4) (hmax : leAt p 5 4 ≤ flImage) :
    x.imgOfferRecv down p = ((x.lockTake (.chain down) (leAt p 5 4) (BitVec.ofNat 32 (leAt p 0 4))).modM fun m =>
      { m with img := some (down, 0, leAt p 5 4, BitVec.ofNat 384 (leAt p 9 48), 0, x.d.now) }).imgAsk := by
  have hwanted : ¬((!x.m.setOn tagChainUpd) = true ∨ BitVec.ofNat 32 (leAt p 0 4) = x.m.act.actVer ∨
      BitVec.ofNat 32 (leAt p 0 4) = x.m.act.cruVer ∨ x.m.act.cru = 4 ∨ leAt p 5 4 < 64 ∨ flImage < leAt p 5 4) := by
    rw [hset]
    simp [hact, hver, hcru, hmin, hmax]
  refine (if_neg (not_not.mpr hlock)).trans ((if_neg hwanted).trans ?_)
  extract_lets locked
  rw [show locked.d.now = x.d.now from x.lockTake_now _ _ _]

theorem imgReqRecv_of_verified (hcru : x.m.act.cru = 3 ∨ x.m.act.cru = 4) (hlen : leAt p 4 2 ≤ 1024)
    (hfits : leAt p 0 4 + leAt p 4 2 ≤ (cruImage x.m).length) :
    x.imgReqRecv down p = x.hopSend down 6 (leBytes 4 (leAt p 0 4) ++ sub (cruImage x.m) (leAt p 0 4) (leAt p 4 2)) :=
  if_pos ⟨hcru, hlen, hfits⟩

end Image

/-! ## Enumeration (R365) -/

theorem enumRecv_of_downstream {c : Nat} (hc : c < 0x3F) (hdn : x.m.chDn.up = true) :
    x.enumRecv c = (x.modM fun m => { m with addr := some (BitVec.ofNat 6 (c + 1)) }).hopSend true 1 [BitVec.ofNat 8 (c + 1)] :=
  (if_pos hc).trans (if_pos hdn)

theorem enumDoneRecv_at_head {a : Nat} (hhead : x.d.pwr.chainHead = true) :
    x.enumDoneRecv a = (x.modD fun d => d.evMgt 9).modM fun m => { m with lastAddr := BitVec.ofNat 6 a } := if_pos hhead

/-! ## Frames (R364) -/

section Frame

variable {f : List Byte}

/-- A good hop-only frame on a port that is up gives its buffer back and is consumed. -/
theorem frameRow_of_good (hup : x.mgtUp = true) (hport : (x.m.chain down).up = true) (hheld : (x.m.chain down).held.length < 4)
    (hok : hframeOk f = true) (hdst : f.headD 0 = 0xFF) {ty : Nat} (hty : leAt f 2 1 = ty) :
    frameRow ty x down f = (x.heard down).frameTake down f := by
  have hroom : ¬((!(x.m.chain down).up) = true ∨ 4 ≤ (x.m.chain down).held.length) := by
    rw [hport]
    simpa using hheld
  have hhop : (f.headD 0).toNat = 0xFF := by rw [hdst]; rfl
  calc frameRow ty x down f = x.frameRecv down f := if_pos hty
    _ = x.frameFree down f := (if_neg hroom).trans (if_pos hup)
    _ = (x.heard down).frameRoute down f := if_pos hok
    _ = (x.heard down).frameTake down f := if_pos hhop

theorem frameTake_enum (hty : leAt f 2 1 = 1) : x.frameTake false f = x.enumRecv (leAt (hframePayload f) 0 1) :=
  (if_pos hty).trans (if_neg Bool.false_ne_true)

theorem frameTake_enumDone (hty : leAt f 2 1 = 2) : x.frameTake down f = x.enumDoneRecv (leAt (hframePayload f) 0 1) :=
  (if_neg (by rw [hty]; decide)).trans (if_pos hty)

section HopOnly

variable (hdst : f.headD 0 = 0xFF)
include hdst

theorem frameTake_tmp (hty : leAt f 2 1 = 3) (hframed : tmpFramed (hframePayload f) = true)
    (hreq : nbit (leAt (hframePayload f) 4 1) 0 = false) :
    x.frameTake down f = x.tmpServe (chainSrc down 0xFF) (hframePayload f) := by
  unfold frameTake
  extract_lets p ty dst src
  have hsrc : src = 0xFF := if_pos hdst
  have hty : ty = 3 := hty
  rw [hsrc, if_neg (by rw [hty]; decide), if_neg (by rw [hty]; decide), if_pos hty, hframed, if_neg (by decide), hreq, if_neg (by decide)]

theorem frameTake_image {ty : Nat} (hty : leAt f 2 1 = ty) (h4 : 4 ≤ ty) : x.frameTake down f =
    if ty = 4 then x.imgOfferRecv down (hframePayload f) else if ty = 5 then x.imgReqRecv down (hframePayload f)
    else if ty = 6 then x.imgDataRecv down (hframePayload f) else x := by
  subst hty
  unfold frameTake
  extract_lets p ty dst src
  rw [if_neg (by omega), if_neg (by omega), if_neg (by omega), if_neg (not_not.mpr hdst)]

end HopOnly

end Frame

end DM

/-- Settles O35: a good frame is consumed by the operation of its type, which finds what it needs in order. -/
theorem chainCommandsComplete : Obligations.ChainCommandsComplete := by
  refine ⟨fun down s => ⟨fun hport => ⟨?portDown, ?credit⟩, fun hport hboot hup => ?portUp,
    fun next total dig tries asked hup himg hmore hdue htries => ?resend⟩, ?frames⟩
  case portDown => exact exec_afterDM rfl (DM.portDown_of_up _ down hport)
  case credit => exact exec_afterDM rfl (DM.frameCredit_of_up _ down hport)
  case portUp => exact exec_afterDM rfl (DM.portUp_of_stopped _ down hport hboot hup)
  case resend => exact exec_afterDM rfl (DM.imgResend_of_due _ down himg hmore hdue (State.mgtUp_begun hup) htries)
  case frames =>
    rintro down s f p hup hport hheld hok hdst rfl
    have hrow {ty : Nat} (hty : leAt f 2 1 = ty) : DM.frameRow ty s.begun down f = (s.begun.heard down).frameTake down f :=
      DM.frameRow_of_good _ down (State.mgtUp_begun hup) hport hheld hok hdst hty
    have himage {ty : Nat} (hty : leAt f 2 1 = ty) (h4 : 4 ≤ ty) := (hrow hty).trans (DM.frameTake_image _ down hdst hty h4)
    refine ⟨fun hty hside hc hdn => ?enum, fun hty hhead => ?enumDone, fun hty hframed hreq => ?tmp,
      fun hty hlock hset hcru hact hver hmin hmax => ?offer, fun hty hcru hlen hfits => ?req,
      fun next total dig tries asked hty himg hofs hlen hmore => ?data, fun hty => ?rsp⟩
    case enum =>
      subst hside
      exact exec_afterDM rfl ((hrow hty).trans ((DM.frameTake_enum _ hty).trans (DM.enumRecv_of_downstream _ hc hdn)))
    case enumDone =>
      exact exec_afterDM rfl ((hrow hty).trans ((DM.frameTake_enumDone _ down hty).trans (DM.enumDoneRecv_at_head _ hhead)))
    case tmp => exact exec_afterDM rfl ((hrow hty).trans (DM.frameTake_tmp _ down hdst hty hframed hreq))
    case offer =>
      exact exec_afterDM rfl ((himage hty (by decide)).trans
        (DM.imgOfferRecv_of_wanted (s.begun.heard down) down hlock hset hcru hact hver hmin hmax))
    case req =>
      exact exec_afterDM rfl ((himage hty (by decide)).trans (DM.imgReqRecv_of_verified (s.begun.heard down) down hcru hlen hfits))
    case data =>
      exact exec_afterDM rfl ((himage hty (by decide)).trans (DM.imgDataRecv_of_asked (s.begun.heard down) down himg hmore hofs hlen))
    case rsp => exact exec_afterDM rfl (himage hty (by decide))

end Sys2Proof.Machine
end

section
/-!
PROOFS. The clock, the Ethernet link, and the timers of the crucible and of the trial (R361, R362, R370, R373, R375, R377).
-/

namespace Sys2Proof.Machine

namespace DM

/-! ## IEEE 1588 time (R361, R362) -/

section Sync

variable (d : Data) (ofs : BitVec 64) (ival : Nat)

/-- A Sync near a locked clock counts and moves the time by its offset and what was still to be moved. -/
theorem syncRecv_of_near (hboot : d.pwr.boot ≠ .off) (hlocked : d.ptp.locked = true) (hever : d.ptp.ever = true)
    (hnear : ofs.toInt.natAbs ≤ 1000) :
    syncRecv d ofs ival = { d with ptp := { d.ptp with
      ofs := ofsSat ofs.toInt, good := min 8 (d.ptp.good + 1), lastSync := d.now, ival := ival
      baseNs := nsAdd d.timeNs (d.ptp.adj - ofs.toInt), baseAt := d.now, adj := 0 } } := by
  have hfar : ¬10000 < ofs.toInt.natAbs := by omega
  unfold syncRecv
  rw [if_neg hboot]
  simp only [hlocked, hever, hnear, hfar, decide_true, decide_false, if_true, if_false, Bool.true_or, Bool.not_true, Bool.and_false,
    Bool.false_eq_true]

theorem syncTimeout_of_due (hlocked : d.ptp.locked = true) (hdue : d.ptp.lastSync + 3 * d.ptp.ival ≤ d.now) :
    syncTimeout d = (d.modPtp fun p => { p with locked := false, good := 0 }).evMgt 6 := if_pos ⟨hlocked, hdue⟩

end Sync

variable (x : DM)

/-! ## The Ethernet link (R377) -/

section Ethernet

variable (hboot : x.d.pwr.boot ≠ .off)
include hboot

theorem ethSet_up (heth : x.m.ethUp = false) :
    x.ethSet true = { d := if x.d.pwr.boot = .rdy then (x.d.evMgt 3).domWake 1 else x.d.evMgt 3, m := { x.m with ethUp := true } } := by
  have hchange : ¬(x.m.ethUp = true ∨ x.d.pwr.boot = .off) := not_or.mpr ⟨Bool.eq_false_iff.mp heth, hboot⟩
  unfold ethSet
  rw [if_neg hchange]
  by_cases hrdy : x.d.pwr.boot = .rdy
  · have hwakes : (true && (x.d.evMgt 3).pwr.boot == .rdy) = true := by
      rw [show (x.d.evMgt 3).pwr.boot = .rdy from hrdy]
      rfl
    rw [if_pos hrdy]
    exact congrArg (DM.mk · _) (if_pos hwakes)
  · have hsleeps : ¬(true && (x.d.evMgt 3).pwr.boot == .rdy) = true := by
      rw [Bool.true_and, beq_iff_eq]
      exact hrdy
    rw [if_neg hrdy]
    exact congrArg (DM.mk · _) (if_neg hsleeps)

theorem ethSet_down (heth : x.m.ethUp = true) : x.ethSet false = { d := x.d.evMgt 4, m := { x.m with ethUp := false } } := by
  have hchange : ¬(x.m.ethUp = false ∨ x.d.pwr.boot = .off) := not_or.mpr ⟨by rw [heth]; decide, hboot⟩
  exact if_neg hchange

end Ethernet

/-! ## The crucible and the trial (R370, R373, R375) -/

/-- An erase changes the flash and what is kept of its failures alone. -/
theorem mgmtErase_eq (m : Mgmt) (o n : Nat) : ∃ f e, m.erase o n = { m with flash := f, flashErr := e } := by
  unfold Mgmt.erase Mgmt.flashOp
  split
  · exact ⟨_, _, rfl⟩
  · exact ⟨_, _, rfl⟩

theorem imgEnd_of_none (himg : x.m.img = none) : x.imgEnd = x := by
  unfold imgEnd
  rw [himg]

section ClusterUp

variable (hup : x.mgtUp = true)
include hup

theorem lockTimeout_of_due (hlock : x.m.lock ≠ .free) (hdue : x.m.lockAt + ms 60000 ≤ x.d.now) : x.lockTimeout = x.lockDrop :=
  if_pos ⟨hlock, hdue, hup⟩

/-- With no request, no chunk and no transfer waiting for the block, the erase goes on. -/
theorem blockErased_alone (hlock : x.m.lock ≠ .free) (hleft : x.m.erased < 128) (hreq : x.m.startReq = none) (hchunks : x.m.chunks = [])
    (himg : x.m.img = none) :
    x.blockErased = x.modM fun m => { m.erase (flCrucible + m.erased * flBlock) flBlock with erased := m.erased + 1, chunks := [] } := by
  have hgo : ¬(x.m.lock = .free ∨ 128 ≤ x.m.erased ∨ (!x.mgtUp) = true) := by
    rw [hup]
    simp [hlock, hleft]
  unfold blockErased
  rw [if_neg hgo]
  extract_lets offset ok erased answered go rest
  obtain ⟨f, e, herase⟩ := mgmtErase_eq x.m offset flBlock
  have hfree : erased.m.startReq = none ∧ erased.m.chunks = [] ∧ erased.m.img = none := by
    unfold erased modM
    dsimp only
    rw [herase]
    exact ⟨hreq, hchunks, himg⟩
  obtain ⟨hreq, hchunks, himg⟩ := hfree
  have hanswered : answered = erased := by
    unfold answered
    rw [hreq]
  have hgo : go = [] := by
    unfold go
    rw [hanswered, hchunks]
    rfl
  have hrest : rest = erased.modM fun m => { m with chunks := [] } := by
    have hkept : erased.m.chunks.filter (fun c => !chunkFits erased.m c) = [] := by
      rw [hchunks]
      rfl
    unfold rest
    rw [hanswered]
    change ({ erased with m := { erased.m with chunks := erased.m.chunks.filter fun c => !chunkFits erased.m c } } : DM) = _
    rw [hkept]
    rfl
  rw [hgo, hrest]
  exact imgEnd_of_none _ himg

theorem trialTimer_of_due (htrial : x.m.act.trial = true) (hdue : x.m.trialAt + ms 60000 ≤ x.d.now) (hsec : x.m.act.trialSec + 60 < 600) :
    x.trialTimer = x.modM fun m => { m.recWrite fun r => { r with trialSec := r.trialSec + 60 } with trialAt := m.trialAt + ms 60000 } :=
  (if_pos ⟨htrial, hdue, hup⟩).trans (if_neg (Nat.not_le.mpr hsec))

theorem autoConfirm_of_due (htrial : x.m.act.trial = true) (hsec : x.m.act.trialSec < 600) (hset : x.m.setOn tagAutoConfirm = true)
    (hdue : x.m.startAt + ms 60000 ≤ x.d.now) (hrig : x.d.rig ≠ none) (hfatal : x.d.evt.fatalSeen = false) : x.autoConfirm = x.confirm :=
  if_pos ⟨htrial, hsec, hset, hdue, Option.isSome_iff_ne_none.mpr hrig, by rw [hfatal]; rfl, hup⟩

end ClusterUp

end DM

/-- Settles O36: each command finds the clock, the link, the crucible or the trial in the state in which it acts. -/
theorem clockAndTrialCommandsComplete : Obligations.ClockAndTrialCommandsComplete := by
  refine ⟨fun s hboot => ⟨fun ofs ival hlocked hever hnear => ?sync, fun heth => ?up, fun heth => ?down⟩,
    fun s hlocked hdue => ?holdover, fun s hup => ⟨fun hlock hdue => ?lock, fun hlock hleft hreq hchunks himg => ?erased,
      fun htrial => ⟨fun hdue hsec => ?trial, fun hsec hset hdue hrig hfatal => ?confirm⟩⟩⟩
  case sync => exact exec_after rfl (DM.syncRecv_of_near s.d ofs ival hboot hlocked hever hnear)
  case up => exact exec_afterDM rfl (DM.ethSet_up s.begun hboot heth)
  case down => exact exec_afterDM rfl (DM.ethSet_down s.begun hboot heth)
  case holdover => exact exec_after rfl (DM.syncTimeout_of_due s.d hlocked hdue)
  case lock => exact exec_afterDM rfl (DM.lockTimeout_of_due _ (State.mgtUp_begun hup) hlock hdue)
  case erased => exact exec_afterDM rfl (DM.blockErased_alone _ (State.mgtUp_begun hup) hlock hleft hreq hchunks himg)
  case trial => exact exec_afterDM rfl (DM.trialTimer_of_due _ (State.mgtUp_begun hup) htrial hdue hsec)
  case confirm => exact exec_afterDM rfl (DM.autoConfirm_of_due _ (State.mgtUp_begun hup) htrial hsec hset hdue hrig hfatal)

end Sys2Proof.Machine
end

section
/-!
PROOFS. The domains (R407 to R410, R416, R422): what PWR_DOM_CTL triggers, and how a reef and a wake end.
-/

namespace Sys2Proof.Machine

namespace DM

variable (x : DM) (r : Requester) (m : BitVec 67)

/-! ## A write of PWR_DOM_CTL -/

/-- DOM and OP of PWR_DOM_CTL. -/
theorem regRow_pwrDomCtl_fields : ∃ row, regRow Reg.pwrDomCtl = some row ∧ (⟨0, 5, .rw⟩ : Fld) ∈ row.flds ∧ (⟨5, 2, .rw⟩ : Fld) ∈ row.flds := by
  decide +kernel

/-- A write of DOM, OP and GO does what OP says to the domain. -/
theorem writeAlone_pwrDomCtl {v : Word} {i op : Nat} (hgo : v.getLsbD 7 = true) (hdom : bits v.toNat 0 5 = i) (hop : bits v.toNat 5 2 = op) :
    x.writeAlone r Reg.pwrDomCtl v 0xFF m =
      if op = 0 then ({ x with d := x.d.regWrite Reg.pwrDomCtl v 0xFF } : DM).domUnreef i
      else if op = 1 then ({ x with d := x.d.regWrite Reg.pwrDomCtl v 0xFF } : DM).domReefOp i
      else if op = 2 then ({ x with d := x.d.regWrite Reg.pwrDomCtl v 0xFF } : DM).domResetOp i
      else ({ x with d := x.d.regWrite Reg.pwrDomCtl v 0xFF } : DM).domRefuse := by
  obtain ⟨row, hrow, hfdom, hfop⟩ := regRow_pwrDomCtl_fields
  have hdom' := (x.d.fld_regWrite_enabled hrow hfdom (.inl rfl) (v := v) (en := 0xFF) (by decide)).trans hdom
  have hop' := (x.d.fld_regWrite_enabled hrow hfop (.inl rfl) (v := v) (en := 0xFF) (by decide)).trans hop
  have hhit : hit v 0xFF 7 = true := by rw [hit, hgo]; rfl
  rw [writeAlone_pwr _ _ _ _ _ _ (by decide), writePwr, if_pos rfl, if_pos hhit]
  dsimp only at hdom' hop' ⊢
  rw [hdom', hop']

section Written

variable (dom : BitVec 5)

theorem writeAlone_pwrDomCtl_unreef : x.writeAlone r Reg.pwrDomCtl (dom.setWidth 32 ||| 0x80) 0xFF m =
    ({ x with d := x.d.regWrite Reg.pwrDomCtl (dom.setWidth 32 ||| 0x80) 0xFF } : DM).domUnreef dom.toNat := by
  have hbits : ∀ dom : BitVec 5, (dom.setWidth 32 ||| 0x80 : Word).getLsbD 7 = true ∧
      bits (dom.setWidth 32 ||| 0x80 : Word).toNat 0 5 = dom.toNat ∧ bits (dom.setWidth 32 ||| 0x80 : Word).toNat 5 2 = 0 := by decide
  obtain ⟨hgo, hdom, hop⟩ := hbits dom
  exact (x.writeAlone_pwrDomCtl r m hgo hdom hop).trans (if_pos rfl)

theorem writeAlone_pwrDomCtl_reef : x.writeAlone r Reg.pwrDomCtl (dom.setWidth 32 ||| 0xA0) 0xFF m =
    ({ x with d := x.d.regWrite Reg.pwrDomCtl (dom.setWidth 32 ||| 0xA0) 0xFF } : DM).domReefOp dom.toNat := by
  have hbits : ∀ dom : BitVec 5, (dom.setWidth 32 ||| 0xA0 : Word).getLsbD 7 = true ∧
      bits (dom.setWidth 32 ||| 0xA0 : Word).toNat 0 5 = dom.toNat ∧ bits (dom.setWidth 32 ||| 0xA0 : Word).toNat 5 2 = 1 := by decide
  obtain ⟨hgo, hdom, hop⟩ := hbits dom
  exact (x.writeAlone_pwrDomCtl r m hgo hdom hop).trans ((if_neg (by decide)).trans (if_pos rfl))

theorem writeAlone_pwrDomCtl_reset : x.writeAlone r Reg.pwrDomCtl (dom.setWidth 32 ||| 0xC0) 0xFF m =
    ({ x with d := x.d.regWrite Reg.pwrDomCtl (dom.setWidth 32 ||| 0xC0) 0xFF } : DM).domResetOp dom.toNat := by
  have hbits : ∀ dom : BitVec 5, (dom.setWidth 32 ||| 0xC0 : Word).getLsbD 7 = true ∧
      bits (dom.setWidth 32 ||| 0xC0 : Word).toNat 0 5 = dom.toNat ∧ bits (dom.setWidth 32 ||| 0xC0 : Word).toNat 5 2 = 2 := by decide
  obtain ⟨hgo, hdom, hop⟩ := hbits dom
  exact (x.writeAlone_pwrDomCtl r m hgo hdom hop).trans ((if_neg (by decide)).trans ((if_neg (by decide)).trans (if_pos rfl)))

end Written

/-! ## What OP does to a domain that is not refused (R407, R416, R422) -/

variable (i : Fin 30)

theorem domUnreef_of_used (hused : x.d.domUsed i = true) (hrdy : x.d.pwr.boot = .rdy) :
    x.domUnreef i.val = { x with d := (x.d.domWake i).domCtl i } := (dif_pos i.isLt).trans (if_pos ⟨hused, hrdy⟩)

theorem domReefOp_of_idle (hrdy : x.d.pwr.boot = .rdy) (hmay : x.d.domMayReef x.mgtIdle i = true) :
    x.domReefOp i.val = { x with d := (x.d.domReef i).domCtl i } := (dif_pos i.isLt).trans (if_pos ⟨hrdy, hmay⟩)

section Reset

variable (hfree : resetRefused x.d i = false)
include hfree

theorem domResetOp_of_other (hi : i.val ≠ 1) : x.domResetOp i.val = { x with d := (domReset x.d i).domCtl i } :=
  (dif_pos i.isLt).trans ((if_neg (Bool.eq_false_iff.mp hfree)).trans (if_neg hi))

theorem domResetOp_of_d1 (hi : i.val = 1) {v : BitVec 64} {d : Data} (hv : x.d.freeVal = (v, d)) :
    x.domResetOp i.val = ({ x with d := d } : DM).mgtRestart (v.truncate 3) := by
  refine (dif_pos i.isLt).trans ((if_neg (Bool.eq_false_iff.mp hfree)).trans ((if_pos hi).trans ?_))
  rw [hv]

end Reset

theorem onDom_of_lt {dom : BitVec 5} {f : DM → Fin 30 → DM} (h : dom.toNat = i.val) : x.onDom dom f = f x i := by
  have hi : (⟨dom.toNat, h ▸ i.isLt⟩ : Fin 30) = i := Fin.ext h
  rw [onDom, dif_pos (h ▸ i.isLt), hi]

end DM

namespace Data

variable (d : Data) {i : Fin 30}

/-! ## Reefs (R407, R410, R422) -/

theorem domIdleReef_of_idle {mgt : Bool} (hrdy : d.pwr.boot = .rdy) (hidle : bits (d.powerWord i) 16 16 ≠ 0) (hmay : d.domMayReef mgt i = true) :
    d.domIdleReef mgt i = d.domReef i := if_pos ⟨hrdy, hidle, hmay⟩

theorem domWakeSrc_of_rdy (hrdy : d.pwr.boot = .rdy) : d.domWakeSrc i = d.domWake i := if_pos hrdy

/-- A count leaves the delivery list. -/
theorem tally_list (c n : Nat) : (d.tally c n).evt.list = d.evt.list := by
  obtain ⟨m, rs, y, latch, p, ports, hrest⟩ := ((KeepsOthers.refl 0 d).tally (c := c) (n := n)).rest
  rw [hrest]

theorem domLose_now (i : Fin 30) : (d.domLose i).now = d.now := by
  unfold domLose
  split
  · rfl
  · split <;> rfl

/-- Of the delivery list D2 keeps what the AON holds, which is empty just where the list is. -/
theorem list_domLose_d2 (hi : i.val = 2) : (d.domLose i).evt.list = [] ↔ d.evt.list = [] := by
  rw [domLose, if_pos hi]
  exact List.take_eq_nil_iff.trans (or_iff_right (by decide))

theorem domReefed_of_reefing {t : Nat} {w : Bool} (hst : d.domAt i = .reefing t w) (hi : i.val ≠ 1) :
    d.domReefed i = ((((d.domLose i).ev 8).tally 41).domSet i (if w ∨ i.val = 2 ∧ d.evt.list ≠ [] then .waking d.now else .reefed)) := by
  have hnow : (((d.domLose i).ev 8).tally 41).now = d.now := by rw [tally_now, ev_now, domLose_now]
  have hwakes : (w || (i.val == 2 && !(((d.domLose i).ev 8).tally 41).evt.list.isEmpty)) = true ↔
      (w = true ∨ i.val = 2 ∧ d.evt.list ≠ []) := by
    rw [tally_list, Bool.or_eq_true, Bool.and_eq_true, beq_iff_eq, Bool.not_eq_true', ← Bool.not_eq_true, List.isEmpty_iff]
    exact or_congr_right (and_congr_right fun hd2 => not_congr (d.list_domLose_d2 hd2))
  unfold domReefed
  rw [hst]
  extract_lets lost kept
  have hkept : kept = ((d.domLose i).ev 8).tally 41 := if_neg hi
  rw [hkept, hnow]
  simp only [hwakes]
  split <;> rfl

/-! ## Wakes (R409, R410) -/

theorem domNeeds_eq (i : Fin 30) : domNeeds i = none ∨ domNeeds i = some 2 := by
  unfold domNeeds
  split
  · exact .inr rfl
  · exact .inl rfl

section Waking

variable {t : Nat} (hst : d.domAt i = .waking t)
include hst

theorem domWoken_of_ready (hready : ∀ j, domNeeds i = some j → d.domUp j = true) : d.domWoken i = d.domUp_ i := by
  unfold domWoken
  rw [hst]
  refine if_pos ?_
  cases hneeds : domNeeds i with
  | none => rfl
  | some j => exact hready j hneeds

theorem domWoken_of_waiting (hneeds : domNeeds i = some 2) (hdown : d.domUp 2 = false) :
    d.domWoken i = d.modPwr fun p => { p with woken := setBit p.woken i.val true } := by
  unfold domWoken
  rw [hst, hneeds]
  exact if_neg (Bool.eq_false_iff.mp hdown)

theorem domWakeTimeout_of_due (hdue : t + ms 1 ≤ d.now) : d.domWakeTimeout i =
    (((d.domSet i .reefed).modPwr fun p => { p with woken := setBit p.woken i.val false }).ev 7).domFail i := by
  unfold domWakeTimeout
  rw [hst]
  exact if_pos hdue

end Waking

/-- A domain other than D2 releases no other. -/
theorem domUp_of_other (hi : i.val ≠ 2) : d.domUp_ i = d.domUp1 i := by
  have hnone : (List.finRange 30).filter (fun j => d.pwr.woken.getLsbD j.val && domNeeds j == some i) = [] := by
    refine List.filter_eq_nil_iff.mpr fun j _ h => ?_
    rw [Bool.and_eq_true, beq_iff_eq] at h
    rcases domNeeds_eq j with hj | hj
    · exact nomatch hj.symm.trans h.2
    · exact hi (congrArg Fin.val (Option.some.inj (hj.symm.trans h.2))).symm
  unfold domUp_
  rw [hnone]
  rfl

end Data

/-! ## The commands -/

/-- Settles O32: DOM and OP reach the power manager as they were written, and each command finds the domain in the state in which it
acts. -/
theorem domainCommandsComplete : Obligations.DomainCommandsComplete := by
  intro dom i s hdom
  refine ⟨fun hreach => ⟨fun hused hrdy => ?unreef, fun hrdy hmay => ?reef, fun hfree => ⟨fun hi => ?reset, fun hi v d hv => ?d1⟩⟩,
    fun hrdy => ⟨fun hidle hmay => ?idle, ?wake⟩,
    fun t hst => ⟨fun hi hneeds => ?up, fun hi => ?upD2, fun hneeds hdown => ?waits, fun hdue => ?fails⟩, fun t w hst hi => ?reefed⟩
  case unreef =>
    obtain ⟨regs, hwrite⟩ := s.d.regWrite_eq Reg.pwrDomCtl (dom.setWidth 32 ||| 0x80) 0xFF
    refine exec_afterDM_data rfl ?_
    rw [State.trigger_reaches hreach _ _ _ (by decide), DM.writeAlone_pwrDomCtl_unreef, hdom, State.begun_d, hwrite]
    exact DM.domUnreef_of_used _ i hused hrdy
  case reef =>
    obtain ⟨regs, hwrite⟩ := s.d.regWrite_eq Reg.pwrDomCtl (dom.setWidth 32 ||| 0xA0) 0xFF
    refine exec_afterDM_data rfl ?_
    rw [State.trigger_reaches hreach _ _ _ (by decide), DM.writeAlone_pwrDomCtl_reef, hdom, State.begun_d]
    rw [hwrite] at hmay ⊢
    exact DM.domReefOp_of_idle _ i hrdy hmay
  case reset =>
    obtain ⟨regs, hwrite⟩ := s.d.regWrite_eq Reg.pwrDomCtl (dom.setWidth 32 ||| 0xC0) 0xFF
    refine exec_afterDM_data rfl ?_
    rw [State.trigger_reaches hreach _ _ _ (by decide), DM.writeAlone_pwrDomCtl_reset, hdom, State.begun_d, hwrite]
    exact DM.domResetOp_of_other _ i hfree hi
  case d1 =>
    obtain ⟨regs, hwrite⟩ := s.d.regWrite_eq Reg.pwrDomCtl (dom.setWidth 32 ||| 0xC0) 0xFF
    refine exec_afterDM rfl ?_
    rw [State.trigger_reaches hreach _ _ _ (by decide), DM.writeAlone_pwrDomCtl_reset, hdom, State.begun_d]
    rw [hwrite] at hv ⊢
    exact DM.domResetOp_of_d1 _ i hfree hi hv
  case idle =>
    refine exec_afterDM_data rfl ((DM.onDom_of_lt _ i hdom).trans ?_)
    rw [State.begun_d, s.d.domIdleReef_of_idle hrdy hidle hmay]
  case wake =>
    refine exec_afterDM_data rfl ((DM.onDom_of_lt _ i hdom).trans ?_)
    rw [State.begun_d, s.d.domWakeSrc_of_rdy hrdy]
  case up =>
    have hready : ∀ j, Data.domNeeds i = some j → s.d.domUp j = true := fun j hj => by
      rcases hneeds with h | h
      · exact nomatch h.symm.trans hj
      · rcases Data.domNeeds_eq i with hn | hn
        · exact nomatch hn.symm.trans hj
        · exact Option.some.inj (hn.symm.trans hj) ▸ h
    refine exec_afterDM_data rfl ((DM.onDom_of_lt _ i hdom).trans ?_)
    rw [State.begun_d, s.d.domWoken_of_ready hst hready, s.d.domUp_of_other hi]
    rfl
  case upD2 =>
    have hready : ∀ j, Data.domNeeds i = some j → s.d.domUp j = true := fun j hj => by
      obtain rfl : i = 2 := Fin.ext hi
      exact nomatch hj
    refine exec_afterDM_data rfl ((DM.onDom_of_lt _ i hdom).trans ?_)
    rw [State.begun_d, s.d.domWoken_of_ready hst hready]
    rfl
  case waits =>
    refine exec_afterDM_data rfl ((DM.onDom_of_lt _ i hdom).trans ?_)
    rw [State.begun_d, s.d.domWoken_of_waiting hst hneeds hdown]
  case fails =>
    refine exec_afterDM_data rfl ((DM.onDom_of_lt _ i hdom).trans ?_)
    rw [State.begun_d, s.d.domWakeTimeout_of_due hst hdue]
  case reefed =>
    refine exec_afterDM_data rfl ((DM.onDom_of_lt _ i hdom).trans ?_)
    rw [State.begun_d, s.d.domReefed_of_reefing hst hi]

end Sys2Proof.Machine
end

section
/-!
PROOFS. Power good, straps, RDY, resets, clocks, the watchdog and the thermal pins (R411 to R420, R444, R445).
-/

namespace Sys2Proof.Machine

namespace DM

/-! ## Start-up and resets (R414, R415, R417) -/

variable (x : DM) (e : StartEnv)

theorem powerGood_of_off (hboot : x.d.pwr.boot = .off) (hpwrgd : x.d.pwr.pwrgd = false) : x.powerGood e = x.coldStart e 0 :=
  if_pos ⟨hboot, by rw [hpwrgd]; rfl⟩

/-- Without a power-fail sequence a warm reset takes effect at its time. -/
theorem warmEffect_of_due {t : Nat} {c : BitVec 3} (hwarm : x.d.pwr.warm = some (t, c)) (hdue : t ≤ x.d.now) (htr : x.d.dur.tr = none) :
    x.warmEffect e = ({ d := (x.d.warmReset.modPwr fun p => { p with cause := c, flushed := false, pfd := false }).ev 1,
                        m := { x.m.stopped with up := false } } : DM).startUp e := by
  unfold warmEffect
  rw [hwarm, htr]
  refine if_neg ?_
  rw [decide_eq_true hdue]
  exact Bool.false_ne_true

theorem crystalFail_of_on (hboot : x.d.pwr.boot ≠ .off) (hx : x.d.pwr.xfail = false) : x.crystalFail =
    { d := (x.d.warmReset.modPwr fun p => { p with xfail := true, boot := .stopped }).ev 4, m := x.m.stopped } :=
  if_neg (not_or.mpr ⟨hboot, Bool.eq_false_iff.mp hx⟩)

theorem watchdog_of_due (hup : x.d.domUp 1 = true ∧ x.m.up = true) (hon : x.d.fld Reg.pwrWdt 0 16 ≠ 0)
    (hdue : x.d.pwr.wdtAt + ms (x.d.fld Reg.pwrWdt 0 16) ≤ x.d.now) :
    x.watchdog = ({ x with d := x.d.ev 2 } : DM).mgtRestart 4 := if_pos ⟨hup.1, hup.2, hon, hdue⟩

/-- KICK restarts the count of the watchdog. -/
theorem writeAlone_pwrWdt_kick (r : Requester) (m : BitVec 67) : x.writeAlone r Reg.pwrWdt 0x10000 0x10000 m =
    { x with d := (x.d.regWrite Reg.pwrWdt 0x10000 0x10000).modPwr fun p =>
        { p with wdtAt := (x.d.regWrite Reg.pwrWdt 0x10000 0x10000).now } } := by
  rw [writeAlone_pwr _ _ _ _ _ _ (by decide), writePwr, if_neg (by decide), if_pos rfl, if_pos (by decide)]

section OnData

variable (d : Data)

/-! ## Straps (R420) -/

section Strap

variable {t : Nat} (hpg : d.pwr.pg = some t)
include hpg

theorem strapSample_early {k : Fin 3} {a b c : Bool} (hlen : d.pwr.strap.length = k.val) (hk : k ≠ 2) (hdue : t + us (100 * (k.val + 1)) ≤ d.now) :
    strapSample d k a b c = d.modPwr fun p => { p with strap := p.strap.concat (a, b, c) } := by
  unfold strapSample
  rw [hpg]
  exact (if_neg (not_or.mpr ⟨not_not.mpr hlen, Nat.not_lt.mpr hdue⟩)).trans (if_pos fun h => hk (Fin.ext h))

/-- Three samples that agree decide as they are. -/
theorem strapSample_agreed {a b c : Bool} (hstrap : d.pwr.strap = [(a, b, c), (a, b, c)]) (hdue : t + us 300 ≤ d.now) :
    strapSample d 2 a b c = ((d.modPwr fun p => { p with strap := p.strap.concat (a, b, c) }).modPwr fun p =>
      { p with mgtMode := a, chainHead := b, scanEn := c, disagree := false }) := by
  have hopen : ¬(d.pwr.strap.length ≠ (2 : Fin 3).val ∨ d.now < t + us (100 * ((2 : Fin 3).val + 1))) := by
    rw [hstrap]
    exact not_or.mpr ⟨not_not.mpr rfl, Nat.not_lt.mpr hdue⟩
  have hmajority (f : Bool × Bool × Bool → Bool) :
      decide (2 ≤ (([(a, b, c), (a, b, c)].concat (a, b, c)).filter f).length) = f (a, b, c) := by
    cases h : f (a, b, c) <;> simp [h]
  have hsame : ([(a, b, c), (a, b, c)].concat (a, b, c)).any (fun x => x != (a, b, c)) = false := by simp
  unfold strapSample
  rw [hpg]
  refine (if_neg hopen).trans ((if_neg (not_not.mpr rfl)).trans ?_)
  rw [hstrap]
  simp only [hmajority, hsame, Bool.false_eq_true, if_false, Data.modPwr, hstrap]

end Strap

/-! ## RDY and RESET_N (R415, R422) -/

theorem rdy_of_flushed (hboot : d.pwr.boot = .flushing) (hflush : d.dur.flush = []) : rdy d =
    (allDoms.filter fun i => i.val != 0 && nbit (d.powerWord i) 1 && !d.flag Reg.pwrKeep i.val).foldl (fun (d : Data) i => d.domReef i)
      ((((d.modPwr fun p => { p with boot := .rdy, bootUs := min 0xFFFFFF ((d.now - d.pwr.pg.getD 0) / 1600) }).ev 15).modPair fun p =>
        { p with waitAt := d.now }).modStore fun y => { y with periodAt := Vector.replicate 32 d.now }) :=
  if_neg (not_or.mpr ⟨not_not.mpr hboot, by rw [hflush]; decide⟩)

theorem resetN_of_rdy {d' : Data} (hboot : d.pwr.boot = .rdy) (hx : d.pwr.xfail = false) (hwarm : d.pwr.warm = none) (htr : d.dur.tr = none)
    (hfail : failGo d = d') : resetN d = d'.modPwr fun p => { p with warm := some (d.now, 2) } := by
  have hon : ¬(d.pwr.boot = .off ∨ d.pwr.xfail = true ∨ d.pwr.warm.isSome = true) := by
    rw [hboot, hx, hwarm]
    decide
  subst hfail
  refine (if_neg hon).trans ((if_neg ?_).trans (if_pos hboot))
  rw [htr]
  decide

theorem d1Wake_of_due (hst : d.domAt 1 = .reefed) (hboot : d.pwr.boot = .rdy) (hon : d.fld Reg.pwrWdt 17 15 ≠ 0)
    (hdue : d.pwr.d1At + ms (10 * d.fld Reg.pwrWdt 17 15) ≤ d.now) : d1Wake d = d.domWake 1 :=
  (if_pos ⟨hst, hon, hdue⟩).trans (d.domWakeSrc_of_rdy hboot)

end OnData

end DM

namespace Data

/-! ## Clocks and the thermal pin (R411, R412, R445) -/

section On

variable (d : Data) (hboot : d.pwr.boot ≠ .off)
include hboot

theorem refFail_apts {k : Fin 4} (hk : k.val ≤ 1) : d.refFail k = (allAgents.filter fun p => p.val / 8 == k.val &&
    (d.links[aptLink p].st != .disabled && d.links[aptLink p].st != .down)).foldl (fun (d : Data) p => d.linkDown (aptLink p))
      (((d.modPwr fun p => { p with refbad := setBit p.refbad k.val true }).stamp Reg.clkStat (BitVec.twoPow 32 (k.val + 1))).ev 5) :=
  (if_neg hboot).trans (if_pos hk)

theorem refFail_bkps : d.refFail 2 = d.usedBkps.foldl (fun (d : Data) b => d.bkpFailPort b)
    (((d.modPwr fun p => { p with refbad := setBit p.refbad 2 true }).stamp Reg.clkStat (BitVec.twoPow 32 3)).ev 5) :=
  (if_neg hboot).trans ((if_neg (by decide)).trans (if_pos rfl))

theorem refFail_shroud (hlink : d.links[shdLink].st = .active) : d.refFail 3 =
    (((d.modPwr fun p => { p with refbad := setBit p.refbad 3 true }).stamp Reg.clkStat (BitVec.twoPow 32 4)).ev 5).linkDown shdLink := by
  have hlive : (d.links[shdLink].st != .disabled && d.links[shdLink].st != .down) = true := by
    rw [hlink]
    decide
  exact (if_neg hboot).trans ((if_neg (by decide)).trans ((if_neg (by decide)).trans (if_pos hlive)))

theorem pllFail_slice {i : Fin 30} {n : SliceId} (hslice : domSlice i = some n) : d.pllFail i =
    (((d.modPwr fun p => { p with pllBad := setBit p.pllBad i.val true, woken := setBit p.woken i.val false }).ev 6).domSet i .reefed).sliceFault
      n := by
  have hi : i.val ≠ 0 := fun h => by
    rw [show i = 0 from Fin.ext h] at hslice
    exact nomatch hslice
  refine (if_neg (not_or.mpr ⟨hi, hboot⟩)).trans ?_
  rw [hslice]

end On

theorem thermTrip_of_powered (d : Data) (h : d.pwr.pwrgd = true) : d.thermTrip = d.modPwr fun p => { p with thermtrip := true } := if_pos h

end Data

/-! ## The commands -/

/-- Settles O31: each command finds power, straps, clocks, domains and timers as its row needs them. -/
theorem powerCommandsComplete : Obligations.PowerCommandsComplete := by
  refine ⟨fun e s => ⟨fun hboot hpwrgd => ?powerGood, fun t c hwarm hdue htr => ?warm⟩,
    fun s t hpg => ⟨fun k a b c hlen hk hdue => ?early, fun a b c hstrap hdue => ?agreed⟩,
    fun s => ⟨fun hboot hflush => ?rdy, ?low, fun d hboot hx hwarm htr hfail => ?resetN, fun hboot hx => ?crystal,
      fun hup hon hdue => ?watchdog, fun hreach => ?kick, fun hst hboot hon hdue => ?d1Wake, fun t => ?temperature, fun hpwrgd => ?thermtrip⟩,
    fun s hboot => ⟨?bkps, fun k hk => ?apts, fun hlink => ?shroud, fun dom i n hdom hslice => ?pll⟩⟩
  case powerGood => exact exec_afterDM rfl (DM.powerGood_of_off _ e hboot hpwrgd)
  case warm => exact exec_afterDM rfl (DM.warmEffect_of_due s.begun e hwarm hdue htr)
  case early => exact exec_after rfl (DM.strapSample_early s.d hpg hlen hk hdue)
  case agreed => exact exec_after rfl (DM.strapSample_agreed s.d hpg hstrap hdue)
  case rdy => exact exec_after rfl (DM.rdy_of_flushed s.d hboot hflush)
  case low => exact exec_afterDM rfl rfl
  case resetN => exact exec_after rfl (DM.resetN_of_rdy s.d hboot hx hwarm htr hfail)
  case crystal => exact exec_afterDM rfl (DM.crystalFail_of_on s.begun hboot hx)
  case watchdog => exact exec_afterDM rfl (DM.watchdog_of_due s.begun hup hon hdue)
  case kick =>
    refine exec_afterDM_data rfl (State.trigger_data hreach (by decide) (DM.writeAlone_pwrWdt_kick _ _ _) ?_)
    obtain ⟨regs, hwrite⟩ := s.d.regWrite_eq Reg.pwrWdt 0x10000 0x10000
    rw [State.begun_d, hwrite]
  case d1Wake => exact exec_after rfl (DM.d1Wake_of_due s.d hst hboot hon hdue)
  case temperature => exact exec_after rfl rfl
  case thermtrip => exact exec_after rfl (s.d.thermTrip_of_powered hpwrgd)
  case bkps => exact exec_after rfl (s.d.refFail_bkps hboot)
  case apts => exact exec_after rfl (s.d.refFail_apts hboot hk)
  case shroud => exact exec_after rfl (s.d.refFail_shroud hboot hlink)
  case pll =>
    refine exec_afterDM_data rfl ((DM.onDom_of_lt _ i hdom).trans ?_)
    rw [State.begun_d, s.d.pllFail_slice hboot hslice]

end Sys2Proof.Machine
end

section
/-!
PROOFS. The mirror and the shadow (R386 to R388), the census (R395, R396), salvage (R398) and the resume of a slice fault (R397).
-/

namespace Sys2Proof.Machine

namespace Data

variable {d : Data}

/-! ## Items of the mirror (R386 to R388) -/

section MirrorOn

variable (hon : d.mirrorOn = true)
include hon

/-- The items are processed: their refusal does not hold. -/
theorem mirror_open : ¬(!d.mirrorOn) = true := by
  rw [hon]
  decide

theorem mwrRecv_of_stored {ga : Nat} {poison : Bool} {g : Gran} {d' : Data} (hw : (d.tally 507).mirWrite ga g poison = (d', true)) :
    d.mwrRecv ga poison g = d' := by
  unfold mwrRecv
  rw [if_neg (mirror_open hon)]
  extract_lets counted
  rw [show counted.mirWrite ga g poison = (d', true) from hw]

theorem mwrRecv_of_full {ga : Nat} {poison : Bool} {g : Gran} {d' : Data} (hw : (d.tally 507).mirWrite ga g poison = (d', false)) :
    d.mwrRecv ga poison g = d'.shdSend (.mfull (BitVec.ofNat 36 ga)) := by
  unfold mwrRecv
  rw [if_neg (mirror_open hon)]
  extract_lets counted
  rw [show counted.mirWrite ga g poison = (d', false) from hw]

theorem mclrRecv_of_on {ga : Nat} : d.mclrRecv ga = (d.mirClear ga).1 := if_pos hon

/-- A shadow entry that was not valid is born with the item. -/
theorem swrRecv_of_free {src : SliceId} {entry ga : Nat} {be : ByteEn} {g : Gran} {poison : Bool} {sq : BitVec 6}
    (hfree : (SMap.get {} d.pair.shadow (shadowKey src entry)).valid = false) :
    d.swrRecv src entry ga be g poison sq = { d with seq := d.seq + 1 }.modPair fun p =>
      { p with shadow := SMap.set {} p.shadow (shadowKey src entry)
                      { ga := ga, be := be, data := g, poison := poison, seq := sq, born := d.seq, valid := true } } := by
  have hold : ¬((SMap.get {} d.pair.shadow (shadowKey src entry)).valid = true ∧
      (SMap.get {} d.pair.shadow (shadowKey src entry)).seq = sq) := fun h => Bool.false_ne_true (hfree.symm.trans h.1)
  unfold swrRecv
  rw [if_neg (mirror_open hon)]
  extract_lets key old born e
  rw [show e = { ga := ga, be := be, data := g, poison := poison, seq := sq, born := d.seq, valid := true } from
    congrArg (fun b : Nat => ({ ga := ga, be := be, data := g, poison := poison, seq := sq, born := b, valid := true } : Shadow)) (if_neg hold)]

theorem sclrRecv_of_on {src : SliceId} {entry : Nat} :
    d.sclrRecv src entry = d.modPair fun p => { p with shadow := SMap.set {} p.shadow (shadowKey src entry) {} } := if_pos hon

theorem mrdRecv_of_hit {ga : Nat} {tag : Byte} {d' : Data} {g : Gran} {p : Bool} (hread : d.mirRead ga = (d', some (g, p))) :
    d.mrdRecv ga tag = d'.shdSend (.mdat (BitVec.ofNat 36 ga) p true tag g) := by
  unfold mrdRecv
  rw [if_neg (mirror_open hon), hread]

theorem mrdRecv_of_miss {ga : Nat} {tag : Byte} {d' : Data} (hread : d.mirRead ga = (d', none)) :
    d.mrdRecv ga tag = d'.shdSend (.mdat (BitVec.ofNat 36 ga) false false tag 0) := by
  unfold mrdRecv
  rw [if_neg (mirror_open hon), hread]

end MirrorOn

/-! ## Reads of the mirror and MFULL (R386, R388) -/

theorem mdatRecv_of_open {ga : Nat} {tag : Byte} {p hit : Bool} {g : Gran}
    (hopen : (d.pair.reads3.any fun r => r.1 == tag && r.2.2.2 == ga) = true) :
    d.mdatRecv ga p hit tag g = d.mirrorReadEnd tag (if hit then some (g, p) else none) := if_pos hopen

theorem mirrorReadTimeout_of_due {tag : Byte} (hdue : (d.pair.reads3.any fun r => r.1 == tag && decide (r.2.1 + us 20 ≤ d.now)) = true) :
    d.mirrorReadTimeout tag = d.mirrorReadEnd tag none := if_pos hdue

/-- A count changes registers and the record of the cycle alone. -/
theorem fldCnt_frame (a lo n k : Nat) : ∃ m y, d.fldCnt a lo n k = { d with regs := m, cyc := y } := ⟨_, _, rfl⟩

/-- A slice changes by what the function makes of it. -/
theorem modSlice_congr {n : SliceId} {f g : Slice → Slice} (h : f d.slices[n] = g d.slices[n]) : d.modSlice n f = d.modSlice n g := by
  have hslices : vmod d.slices n f = vmod d.slices n g := by unfold vmod; rw [h]
  unfold modSlice
  rw [hslices]

/-- A dirty sector for which the mirror was full is kept for cleaning. -/
theorem mfullRecv_of_dirty {ga w : Nat} (hway : d.presentWay (d.homeOf ga) ga = some w)
    (hdirty : (d.tagEnt (d.homeOf ga) (setOf (lineOf ga)) w).sd.getLsbD (secIn ga) = true)
    (hnew : (d.slices[d.homeOf ga].mfull.contains (secOf ga)) = false) :
    d.mfullRecv ga = ((d.fldCnt Reg.shdMfullCnt 0 32 1).evShd 9).modSlice (d.homeOf ga) fun x =>
      { x with mfull := x.mfull.concat (secOf ga) } := by
  obtain ⟨m, y, hcnt⟩ := d.fldCnt_frame Reg.shdMfullCnt 0 32 1
  unfold mfullRecv
  rw [hcnt]
  extract_lets counted home
  have hway' : counted.presentWay home ga = some w := hway
  rw [hway']
  refine (if_pos hdirty).trans (modSlice_congr ?_)
  exact congrArg (fun l => { counted.slices[home] with mfull := l }) (if_neg (Bool.eq_false_iff.mp hnew))

/-! ## The census (R396) -/

theorem censusLimit_of_due {c : Census} (hopen : d.pair.census = some c) (hdue : c.start + us (10 * act1 (d.fld Reg.shdCfg 8 8)) ≤ d.now) :
    d.censusLimit = (((agents c.left).foldl (fun (d : Data) p => d.isolate p) d).evShd 14).censusClose := by
  unfold censusLimit
  rw [hopen]
  exact if_pos hdue

/-! ## Salvage and resume (R397, R398) -/

/-- What salvage of a set leaves to be written: the lines of the set that an error or a failed port has taken are lost. -/
def salvLost (d : Data) (n : SliceId) (set : Nat) : Data :=
  let kept := match d.salvBad n with
    | some (s, w) => if s = set ∧ (d.tagEnt n set w).sd ≠ 0 then d.salvLose n set w else d
    | none => d
  let dead := ((kept.salvDirty n set).filter fun y => kept.bkpFailed (kept.wayLine n set y.1 * 32)).map (·.1)
  dead.eraseDups.foldl (fun (d : Data) w => d.salvLose n set w) kept

/-- A set that neither an error nor a failed port touches loses nothing. -/
theorem salvLost_of_whole {n : SliceId} {set : Nat} (hbad : ∀ w, d.salvBad n ≠ some (set, w))
    (hports : ((d.salvDirty n set).any fun y => d.bkpFailed (d.wayLine n set y.1 * 32)) = false) : d.salvLost n set = d := by
  unfold salvLost
  extract_lets kept dead
  have hkept : kept = d := by
    unfold kept
    cases h : d.salvBad n with
    | none => rfl
    | some bad =>
      obtain ⟨s, w⟩ := bad
      refine if_neg ?_
      rintro ⟨rfl, -⟩
      exact hbad w h
  have hdead : dead = [] := by
    unfold dead
    rw [hkept, List.filter_eq_nil_iff.mpr fun y hy => List.any_eq_false.mp hports y hy]
    rfl
  rw [hdead, hkept]
  rfl

section Salvage

variable {n : SliceId} {x : Salvage} (hsalv : d.slices[n].salv = some x)
  (hsent : (d.slices[n].wb.any fun e => e.sent.isNone && !d.bkpFailed e.ga) = false)
include hsalv hsent

theorem salvStep_of_done (hset : d.salvSet n x = none) : d.salvStep n = d.modSlice n fun y => { y with salv := some { x with next := 32768 } } := by
  unfold salvStep
  rw [hsalv]
  refine (if_neg (Bool.eq_false_iff.mp hsent)).trans ?_
  rw [hset]

/-- Every dirty sector of the next set that is not lost is written, and salvage passes on from the set. -/
theorem salvStep_of_set {set : Nat} {d' : Data} (hset : d.salvSet n x = some set)
    (hwrite : ((d.salvLost n set).salvDirty n set).foldlM (fun (d : Data) y => d.salvSector n set y.1 y.2) (d.salvLost n set) = .ok d') :
    d.salvStep n = d'.modSlice n fun y => { y with salv := y.salv.map fun z =>
      if set ≠ (minBy id ((d'.slices[n].tags.filter fun t => t.2.sd != 0 && decide (x.next ≤ t.1 / 16)).map fun t => t.1 / 16)).getD set then
        { z with extra := z.extra.concat set } else { z with next := set + 1 } } := by
  unfold salvStep
  rw [hsalv]
  refine (if_neg (Bool.eq_false_iff.mp hsent)).trans ?_
  rw [hset]
  split
  · next h => exact nomatch h
  next chosen h =>
  cases h
  extract_lets kept dead lost
  have hlost : lost = d.salvLost n set := rfl
  rw [hlost]
  rw [hwrite]
  simp only [decide_eq_true_eq]

end Salvage

theorem salvSector_of_read {n : SliceId} {set w k ga : Nat} {b : BkpId} {d1 d2 : Data} {g0 g1 : Gran} {p0 p1 : Bool}
    (hlow : d.frameRead n set w (2 * k) = .ok (d1, g0, p0)) (hhigh : d1.frameRead n set w (2 * k + 1) = .ok (d2, g1, p1))
    (hga : ga = d2.wayLine n set w * 32 + 2 * k) (hb : b = d2.bkpOf ga) :
    d.salvSector n set w k = .ok (((d2.pmcBkp b 1).pmcBkp b 1).modSlice n fun y =>
      { y with salv := y.salv.map fun z => { z with await := z.await ++ [(set, ga), (set, ga + 1)] } }) := by
  subst hga hb
  unfold salvSector
  rw [hlow]
  change (d1.frameRead n set w (2 * k + 1) >>= _) = _
  rw [hhigh]
  rfl

theorem slcResumeDue_of_done {n : SliceId} (hfault : d.svc.fault.getLsbD n.val = true) (hcensus : d.svc.cnsDone.getLsbD n.val = true)
    (hnew : d.svc.resumed.getLsbD n.val = false) (hacked : (d.slices[n].wb.all fun e => d.bkpFailed e.ga) = true) :
    d.slcResumeDue n = d.slcResume n := if_pos ⟨hfault, hcensus, by rw [hnew]; rfl, hacked⟩

end Data

/-! ## The commands -/

/-- Settles O27: each item and each step finds the mirror, the census or the salvage in the state in which it acts. -/
theorem mirrorAndCensusCommandsComplete : Obligations.MirrorAndCensusCommandsComplete := by
  refine ⟨fun s ga hon => ⟨fun poison g => ⟨fun d hw => ?stored, fun d hw => ?full⟩, ?clear, fun src e sq poison be g hfree => ?shadow,
      fun src e => ?shadowClear, fun tag d => ⟨fun g p hread => ?hit, fun hread => ?miss⟩⟩,
    fun s tag => ⟨fun ga p hit g hopen => ?mdat, fun hdue => ?timeout⟩, fun s ga w hway hdirty hnew => ?mfull,
    fun s n hrun => ⟨fun hwork => ?walk, fun hwork => ?drain, fun hwork => ?resync⟩, fun s c hopen hdue => ?limit,
    fun s n => ⟨fun x hsalv hsent hset => ?salvaged, fun x set d hsalv hsent hset hbad hports hwrite => ?salvage,
      fun d d1 d2 set w k g0 p0 g1 p1 ga b hlow hhigh hga hb => Data.salvSector_of_read hlow hhigh hga hb,
      fun hfault hcensus hnew hacked => ?resume⟩⟩
  case stored => exact exec_after rfl (Data.mwrRecv_of_stored hon hw)
  case full =>
    refine exec_after rfl ((Data.mwrRecv_of_full hon hw).trans ?_)
    rw [BitVec.ofNat_toNat, BitVec.setWidth_eq]
  case clear => exact exec_after rfl (Data.mclrRecv_of_on hon)
  case shadow => exact exec_after rfl (Data.swrRecv_of_free hon hfree)
  case shadowClear => exact exec_after rfl (Data.sclrRecv_of_on hon)
  case hit =>
    refine exec_after rfl ((Data.mrdRecv_of_hit hon hread).trans ?_)
    rw [BitVec.ofNat_toNat, BitVec.setWidth_eq]
  case miss =>
    refine exec_after rfl ((Data.mrdRecv_of_miss hon hread).trans ?_)
    rw [BitVec.ofNat_toNat, BitVec.setWidth_eq]
  case mdat => exact exec_after rfl (Data.mdatRecv_of_open hopen)
  case timeout => exact exec_after rfl (Data.mirrorReadTimeout_of_due hdue)
  case mfull => exact exec_after rfl (Data.mfullRecv_of_dirty hway hdirty hnew)
  case walk => exact exec_after rfl (Data.stepIf_of_work hrun hwork)
  case drain => exact exec_after rfl (Data.stepIf_of_work hrun hwork)
  case resync => exact exec_after rfl (Data.stepIf_of_work hrun hwork)
  case limit => exact exec_after rfl (Data.censusLimit_of_due hopen hdue)
  case salvaged => exact exec_after rfl (Data.salvStep_of_done hsalv hsent hset)
  case salvage =>
    refine exec_after rfl (Data.salvStep_of_set hsalv hsent hset ?_)
    rw [Data.salvLost_of_whole hbad hports]
    exact hwrite
  case resume => exact exec_after rfl (Data.slcResumeDue_of_done hfault hcensus hnew hacked)

end Sys2Proof.Machine
end
